-- ==== Sys2Proof/Word.lean ====
section
/-! DEFINITION. The word types of the K920 (R1 to R3, R7): bytes, 32-bit registers, 64-bit quantities. -/
namespace Sys2Proof

/-- One byte of a memory structure, a frame or flash. -/
abbrev Byte := BitVec 8

/-- One BAR0 register (R7). -/
abbrev Word := BitVec 32

/-- A 64-bit quantity (R10). -/
abbrev DWord := BitVec 64

/-- Bit `i` of a word, as 0 or 1. -/
def bit (w : Word) (i : Nat) : Nat := (w.toNat / 2 ^ i) % 2

/-- Bits `[hi:lo]` of a word (R1) as a number. -/
def bits (w : Word) (hi lo : Nat) : Nat := (w.toNat / 2 ^ lo) % 2 ^ (hi + 1 - lo)

/-- The truth of bit `i`. -/
def flag (w : Word) (i : Nat) : Bool := w.getLsbD i

/-- A word whose bit `i` is `b` and whose other bits are 0. -/
def bitIf (b : Bool) (i : Nat) : Word := if b then BitVec.ofNat 32 (2 ^ i) else 0

/-- The number `n` placed at bit `lo` of a word, cut to `width` bits. -/
def field (n width lo : Nat) : Word := BitVec.ofNat 32 ((n % 2 ^ width) * 2 ^ lo)

/-- The least of two numbers and `hi`, and at least `lo`: a value clamped to its range. -/
def clampNat (lo hi n : Nat) : Nat := if n < lo then lo else if hi < n then hi else n

/-- `a / b` rounded up; 0 when `b` is 0. -/
def ceilDiv (a b : Nat) : Nat := if b = 0 then 0 else (a + b - 1) / b

end Sys2Proof
end

