-- ==== Sys2Proof/Syntax.lean ====
section
/-! DEFINITION. The commands of the K920: one constructor of `Instr` for each row of spec/opcode_table.json. The table
gives the rows no operands, so the operands are the model's (log 8): the unit a row acts on, the agent a register access
arrives from (R92), the frame received, or the measurement made. -/
namespace Sys2Proof

abbrev PortId := Fin 48
abbrev RingId := Fin 8192
abbrev PartId := Fin 32
abbrev QuadId := Fin 4
abbrev StackId := Fin 20
abbrev VeinId := Fin 64
abbrev StageId := Fin 12
abbrev VfId := Fin 1024
abbrev SlotId := Fin 512
abbrev QpId := Fin 1048576

/-- The path a BAR0 access arrives on (R92): the physical function over PCIe, I3C, the management queue pair. -/
inductive Agent where
  | pcie | i3c | mgmt
  deriving DecidableEq, Repr

/-- A PCIe function: the physical function or a virtual function (R504). -/
inductive Func where
  | pf
  | vf (v : VfId)
  deriving DecidableEq, Repr

/-- Where a register access that a virtual function can also make comes from: BAR0 with its agent, or the BAR0 of a
virtual function (R508). -/
inductive Via where
  | bar (a : Agent)
  | vf (v : VfId)
  deriving DecidableEq, Repr

/-- The PLLs of R23 and R38 that a lock event names. -/
inductive Pll where
  | core | xpt | hif | lod | obs
  | stack (s : StackId)
  deriving DecidableEq, Repr

/-- The sensor kinds of R137. -/
inductive SensorKind where
  | tile | stack | laser | coolant
  deriving DecidableEq, Repr

/-- The hottest reading of each sensor kind in °C and the electrical input, as measured (R137, R140, R141). -/
structure Readings where
  tile : Nat := 0
  stack : Nat := 0
  laser : Nat := 0
  coolant : Nat := 0
  /-- Input voltage in mV. -/
  vin : Nat := 0
  /-- Input current in units of 10 mA. -/
  iin : Nat := 0
  /-- Input power in W, averaged over 1 ms. -/
  watts : Nat := 0
  deriving DecidableEq, Repr

/-- How a lane in use failed (R152, R158). -/
inductive LaneEvent where
  | signal | alignment | errors
  deriving DecidableEq, Repr

/-- The hop fields of a group-link preamble, bytes 1 to 6 (R161). -/
structure Hop where
  seq : BitVec 16 := 0
  ack : BitVec 16 := 0
  hopsLeft : BitVec 4 := 0
  flags : BitVec 4 := 0
  pchk : Byte := 0
  deriving DecidableEq, Repr

/-- An Ethernet frame without preamble and FCS; `hop` is used on group links only (R262, R263). `tags` are the tags
before the EtherType as (TPID, TCI), outermost first; `body` runs from the EtherType to the FCS. -/
structure Frame where
  hop : Hop := {}
  da : BitVec 48 := 0
  sa : BitVec 48 := 0
  tags : List (BitVec 16 × BitVec 16) := []
  etype : BitVec 16 := 0
  body : List Byte := []
  deriving DecidableEq, Repr

/-- A frame at the receive MAC of a port; `fcsOk` says whether its FCS verifies, `room` whether the receiving slice has an
input buffer free for it (R166). -/
structure RxFrame where
  port : PortId
  frame : Frame
  fcsOk : Bool := true
  room : Bool := true
  deriving DecidableEq, Repr

/-- The engine kinds a translation names (R205 ENGINE). -/
inductive Engine where
  | dma | collective | send | receive | mover
  deriving DecidableEq, Repr

/-- One access that a translation walk serves: the engine, its partition, the virtual address and the kind of access. `unit`
says which engine of its kind it is: a quadrant, or the logical tile of a tile DMA engine. -/
structure Access where
  engine : Engine
  part : PartId
  va : DWord
  write : Bool := false
  atomic : Bool := false
  qp : Nat := 0
  unit : Fin 256 := 0
  deriving DecidableEq, Repr

/-- A read of a register as it arrives: the path it comes on and its size in bytes, which only PCIe leaves open (R8). -/
structure ReadOf (α : Type) where
  path : α
  size : Nat := 4
  deriving DecidableEq, Repr

/-- A place in the doorbell pages: a page of BAR2 and the offset in it (R42, R234). -/
structure PagePlace where
  page : RingId
  offset : Fin 4096
  deriving DecidableEq, Repr

/-- The lanes of a port that are aligned with their FEC locked, lane 8 the parity lane (R152). -/
structure Alignment where
  port : PortId
  lanes : BitVec 9
  deriving DecidableEq, Repr

/-- What happens on the I3C bus (R128): a private transfer to an address, or an assignment of addresses: a dynamic one to the
target at a static one, a dynamic one to the next target without one, and the loss of every dynamic one. -/
inductive I3cBus where
  | transfer (target : BitVec 7)
  | setStatic (static dynamic : BitVec 7)
  | setDynamic (dynamic : BitVec 7)
  | resetDynamic
  deriving DecidableEq, Repr

/-- An I3C transfer: what it is on the bus, and the bytes that the controller sends (R128). -/
structure I3cFrame where
  bus : I3cBus
  data : List Byte
  deriving DecidableEq, Repr

/-- Which sampler ends its interval (R549, R552). -/
inductive Sampler where
  | global
  | part (p : PartId)
  deriving DecidableEq, Repr

/-- One counter set as measured over a sample interval (R547, R549): the cycles busy and stalled, the rest of the interval being
idle, and how many cycles of its domain after the sample instant its boundary falls (R550). -/
structure SetCount where
  set : Nat
  reason : Nat := 255
  busy : Nat := 0
  stall : List Nat := []
  edge : Fin 6 := 0
  deriving DecidableEq, Repr

/-- The PTP fields the time block uses (R384). -/
structure Ptp where
  port : PortId
  version : Nat := 2
  domain : Nat := 0
  source : DWord := 0
  sourcePort : BitVec 16 := 0
  seqId : BitVec 16 := 0
  twoStep : Bool := true
  /-- Requesting port identity of a Delay_Resp. -/
  reqClock : DWord := 0
  reqPort : BitVec 16 := 0
  seconds : Nat := 0
  nanos : Nat := 0
  /-- correctionField in whole nanoseconds, fractions dropped (R385). -/
  correction : Int := 0
  /-- messageType: 0 Sync, 8 Follow_Up, 9 Delay_Resp, other values as IEEE 1588 numbers them. -/
  kind : Nat := 0
  /-- logMessageInterval as the Sync interval in ticks, for R385's rate. -/
  intervalTicks : Nat := 4000000000
  deriving DecidableEq, Repr

inductive Instr where
  /-- VIN_OUT_OF_RANGE (R119): The 24 V input stays outside 22.0 to 26.5 V for more than 20 µs; outputs go dark, all rails turn off and the device enters OFF. -/
  | vinOutOfRange
  /-- VIN_IN_RANGE (R119): The input has stayed in range for 10 ms; MGT starts on the integrated oscillator, SLOT_ID is sampled and the device enters STANDBY. -/
  | vinInRange (slotId : BitVec 4)
  /-- PWR_EN_RISE (R122): PWR_EN rises with the input in range; the main rails soft-start, after the 20 ms minimum off time when it applies. -/
  | pwrEnRise
  /-- MAIN_RAILS_GOOD (R122): The main rails reach regulation after their soft-start. -/
  | mainRailsGood
  /-- PWR_EN_FALL (R89): PWR_EN falls in BOOT or a later state; outputs go dark within 1 µs, the main rails turn off and a rail-off reset returns the device to STANDBY. -/
  | pwrEnFall
  /-- RESET_N_LOW (R124): RESET_N stays low for 1 µs or more and starts a device reset with cause 1. -/
  | resetNLow
  /-- PLL_LOCKED (R562): A PLL achieves lock and its bit in PWR_CLK_LOCK or PWR_HBM_LOCK sets. -/
  | pllLocked (p : Pll)
  /-- PLL_LOCK_LOSS (R41): An in-use PLL loses lock; its UNLOCK bit sets and it reports a LOCK fault. -/
  | pllLockLoss (p : Pll)
  /-- REFCLK_LOSS (R130): REFCLK is lost; the PWR block reports a REFCLK fault with device-level containment. -/
  | refclkLoss
  /-- PCIE_REFCLK_LOSS (R130): PCIE_REFCLK is lost; the PCIe link goes down and the HIF PLL's LOCK fault is contained at engine level. -/
  | pcieRefclkLoss
  /-- BOOT_ENTRY (R87): Once PWR_EN is high, the rails are good, the reference PLLs are locked and RESET_N is high, the device enters BOOT, advances the incarnation, starts PCIe training and checks the active slot. -/
  | bootEntry
  /-- PCIE_LINK_UP (R87): PCIe link training completes and configuration requests are accepted. -/
  | pcieLinkUp
  /-- PCIE_LINK_DOWN (R108): The PCIe link goes down; no further completions, events or MSI-X messages are written to host memory. -/
  | pcieLinkDown
  /-- DEVICE_RESET_COMPLETE (R566): A device reset completes once every joined cause has ended and REFCLK has locked; BOOT begins. -/
  | deviceResetComplete (r : Readings)
  /-- FUNCTION_RESET_PF (R89): A PCIe hot reset, link disable or FLR of the physical function abandons every ring and resets the HIF block and configuration space. -/
  | functionResetPf
  /-- FUNCTION_RESET_VF (R89): An FLR of one virtual function resets that function's registers and MSI-X table and abandons its rings. -/
  | functionResetVf (v : VfId)
  /-- FUNCTION_RESET_DRAINED (R90): Transfers of the affected functions have drained; the function reset completes and their queue pairs pass to ERROR. -/
  | functionResetDrained (f : Func)
  /-- LASER_BANK_BIASED (R84): The laser bank is biased in CONFIGURED; lasers are enabled on ports of mode 1 or 2 and the device enters TRAINING. -/
  | laserBankBiased
  /-- TRAINING_COMPLETE (R84): Every port of mode 1 or 2 is trained or failed and time is locked; the device enters SERVICE or DEGRADED. -/
  | trainingComplete
  /-- TIME_ACQUISITION_TIMEOUT (R84): The device has been 5 s in TRAINING without time lock; a time-acquisition fault is raised. -/
  | timeAcquisitionTimeout
  /-- ALERT_TOGGLE (R132): In Alive mode with no uncleared fault, ALERT_N changes level at the end of each 500 µs half-period. -/
  | alertToggle
  /-- DUTY_STEP (R138): Every 1 ms the tile issue duty is lowered or raised by 1/16 under the thermal and power rules. -/
  | dutyStep (r : Readings)
  /-- THERMAL_TRIP (R139): A sensor reaches its trip limit; a device-level fault with cause 4 holds the main rails off until every sensor is below its throttle limit. -/
  | thermalTrip (k : SensorKind) (celsius : Nat)
  /-- I3C_TRANSFER (R128): An I3C private transfer performs a BAR0 register write or read, or is NACKed when its length is wrong. -/
  | i3cTransfer (sent : I3cFrame) (readLen : Nat)
  /-- REGISTER_WRITE (R12): A write to a BAR0 register that has no row of its own; it is checked for alignment, address and ownership and then applied as its access code gives. -/
  | registerWrite (a : Via) (addr size : Nat) (v : Word)
  /-- LO_SNAPSHOT_READ (R35): A read of the _LO register of a 64-bit quantity captures all 64 bits into the agent's snapshot. -/
  | loSnapshotRead (a : ReadOf Via) (addr : Nat)
  /-- HI_READ (R36): A read of the _HI register of a 64-bit quantity returns the snapshot's upper half, or the live upper half when no _LO read preceded it. -/
  | hiRead (a : ReadOf Via) (addr : Nat)
  /-- LO_WRITE_HOLD (R37): A write to the _LO register of a writable 64-bit quantity is held for the writing agent, discarding another agent's held value. -/
  | loWriteHold (a : Via) (addr : Nat) (v : Word)
  /-- HI_WRITE_APPLY (R37): A write to the _HI register applies the held _LO value and the new upper half as one update. -/
  | hiWriteApply (a : Via) (addr : Nat) (v : Word)
  /-- BAR4_ACCESS (R188): A host read or write through BAR4 reaches stacked memory from XLT_BAR4_BASE; beyond 900 GiB a read returns all-ones and a write is discarded. -/
  | bar4Access (offset : Nat) (store : Bool) (data : List Byte)
  /-- APPLY (R73): The LAT APPLY command reads a full image from host memory and applies it, permitted in AWAIT_HOST only. -/
  | apply (a : Agent)
  /-- WRITE_SLOT (R73): The LAT WRITE_SLOT command reads a full image and writes it to flash slot A or B. -/
  | writeSlot (a : Agent) (slotB : Bool)
  /-- SET_ACTIVE (R63): The LAT SET_ACTIVE command selects a valid slot for the next BOOT and may raise the rollback floor. -/
  | setActive (a : Agent) (slotB : Bool)
  /-- STAGE (R78): The LAT STAGE command reads a JOB_ONLY image into the job shadow. -/
  | stage (a : Agent)
  /-- ARM (R77): The LAT ARM command arms a job switch at tick LAT_SWITCH_TICK after its refusal checks. -/
  | arm (a : Agent)
  /-- DISARM (R77): The LAT DISARM command disarms the armed switch before quiescing begins and leaves the job staged. -/
  | disarm (a : Agent)
  /-- LOAD_WEIGHTS (R450): The LAT LOAD_WEIGHTS command loads and verifies the resident weights of the running job's veins. -/
  | loadWeights (a : Agent)
  /-- DISCARD (R78): The LAT DISCARD command drops the staged job. -/
  | discard (a : Agent)
  /-- FIRST_PASS_DONE (R64): The first read of an image, from host memory or a flash slot, completes and its checks end in refusal or pass. -/
  | firstPassDone (ok : Bool)
  /-- SECOND_PASS_DONE (R66): The second read completes; the image is applied or staged, or written to its slot, or restored with BAD_SIGNATURE when the digest differs. -/
  | secondPassDone (ok : Bool)
  /-- SLOT_COMMIT (R68): The flash slot's contents have been written and checked, and its commit marker is written. -/
  | slotCommit
  /-- WEIGHT_LOAD_DONE (R58): A load of resident weights completes; the digests are compared and the veins become READY, or FAILED with WEIGHT_DIGEST. -/
  | weightLoadDone
  /-- QUIESCE_POINT (R79): The quiesce point of an armed switch arrives; fetching stops and loading of the staged weights begins. -/
  | quiescePoint
  /-- READY_CUTOFF (R79): The ready cutoff arrives; a ready device sends MQ_READY to every member without a valid fence record. -/
  | readyCutoff
  /-- ABORT_CUTOFF (R79): The abort cutoff arrives; a device that is unready, lacks a counted READY or holds a differing one sends MQ_ABORT. -/
  | abortCutoff
  /-- SWITCH_TICK (R79): Tick T of an armed switch arrives; banks are exchanged unless an ABORT counted, fetching resumes and fence records and JOIN_PENDING are settled. -/
  | switchTick
  /-- MQ_READY_RX (R565): An MQ_READY is received and counted for the armed switch when its T matches and it arrives before T, and is compared with the device's own values. -/
  | mqReadyRx (f : RxFrame)
  /-- MQ_ABORT_RX (R565): An MQ_ABORT is received and counted for the armed switch when its T matches and it arrives before T. -/
  | mqAbortRx (f : RxFrame)
  /-- OWN_CLAIM (R94): A write to OWN_CLAIM by an agent while the owner is 0 makes the first claimant the owner with a 2,000 ms lease. -/
  | ownClaim (a : Agent) (v : Word)
  /-- RENEW (R95): The owner writes RENEW to OWN_LEASE, which restarts the lease. -/
  | renew (a : Agent)
  /-- RELEASE (R100): The owner writes RELEASE to OWN_LEASE and gives up ownership at once. -/
  | release (a : Agent)
  /-- LEASE_EXPIRY (R95): The lease reaches zero; the owner becomes 0 and LAPSED is set. -/
  | leaseExpiry
  /-- HANDOVER_NAME (R98): The owner writes SUCCESSOR in OWN_HANDOVER, which names, replaces or cancels a successor. -/
  | handoverName (a : Agent) (successor : BitVec 2)
  /-- HANDOVER_ACCEPT (R98): The named successor writes ACCEPT and becomes owner with a fresh lease. -/
  | handoverAccept (a : Agent) (successor : BitVec 2)
  /-- HANDOVER_TIMEOUT (R98): A pending handover gets no acceptance within 100 ms; PENDING returns to 0 and EXPIRED is set. -/
  | handoverTimeout
  /-- INBAND_PEER_WRITE (R100): A write to OWN_INBAND_PEER sets the in-band manager's node and VALID and stores them in flash within 50 ms. -/
  | inbandPeerWrite (a : Agent) (v : Word)
  /-- DEVICE_RESET (R101): The OWN_CMD DEVICE_RESET command starts a device reset with cause 2. -/
  | deviceReset (a : Agent)
  /-- REJOIN (R101): The OWN_CMD REJOIN command in QUARANTINE sets JOIN_PENDING and starts a device reset with cause 3. -/
  | rejoin (a : Agent)
  /-- TRUST_WRITE (R101): The OWN_CMD TRUST_WRITE command writes the buffered digest into an empty trust-list entry 1 to 3. -/
  | trustWrite (a : Agent) (index : BitVec 2)
  /-- TRUST_CLEAR (R101): The OWN_CMD TRUST_CLEAR command empties trust-list entry 1 to 3. -/
  | trustClear (a : Agent) (index : BitVec 2)
  /-- PASSWORD_SET (R114): The OWN_CMD PASSWORD_SET command stores the SHA-384 of the data buffer as the site password hash. -/
  | passwordSet (a : Agent)
  /-- PASSWORD_CLEAR (R101): The OWN_CMD PASSWORD_CLEAR command removes the site password hash. -/
  | passwordClear (a : Agent)
  /-- OBS_CHALLENGE (R113): The OWN_CMD OBS_CHALLENGE command places a fresh 128-bit nonce in OWN_OBS_NONCE0 to 3. -/
  | obsChallenge (a : Agent)
  /-- OBS_RESPOND (R113): The OWN_CMD OBS_RESPOND command checks the HMAC response to the nonce and opens a session on success. -/
  | obsRespond (a : Agent)
  /-- OBS_PASSWORD (R114): The OWN_CMD OBS_PASSWORD command checks the presented site password and opens a session on success. -/
  | obsPassword (a : Agent)
  /-- OBS_CLOSE (R116): The OWN_CMD OBS_CLOSE command ends the observation session and discards unsent trace. -/
  | obsClose (a : Agent)
  /-- OWN_CMD_FLASH_DONE (R104): The atomic flash write of an OWN command completes; the result is set and the data buffer is zeroed. -/
  | ownCmdFlashDone (ok : Bool)
  /-- AUTH_LOCKOUT_EXPIRY (R115): The 1 s lockout that follows a failed authentication attempt ends. -/
  | authLockoutExpiry
  /-- NONCE_EXPIRY (R113): An observation nonce expires 60 s after issue. -/
  | nonceExpiry
  /-- OBS_SESSION_EXPIRY (R116): An observation session ends 8 hours after opening. -/
  | obsSessionExpiry
  /-- HEARTBEAT_TX (R155): A heartbeat is sent every 1 µs on each group-link port in UP or PAUSED. -/
  | heartbeatTx (p : PortId)
  /-- HEARTBEAT_RX (R156): A heartbeat is received and checked against GROUP_ID and PEER_NODE, and updates PEER_OK, DATA_OK and the hop acknowledgement. -/
  | heartbeatRx (f : RxFrame)
  /-- PEER_OK_TIMEOUT (R157): No accepted heartbeat has arrived on a port for 8 µs; PEER_OK and DATA_OK clear. -/
  | peerOkTimeout (p : PortId)
  /-- PEER_DEAD_DECLARE (R107): No heartbeat from a directly attached peer has arrived for DEAD_TIME_US; the peer is declared dead. -/
  | peerDeadDeclare (p : PortId)
  /-- LINK_ALIGNED (R152): Every lane in use of a training port is aligned and FEC locked; the port goes UP with an empty replay buffer. -/
  | linkAligned (p : Alignment)
  /-- PORT_TRAIN_TIMEOUT (R152): A port has been 500 ms in TRAINING without alignment and is reported failed. -/
  | portTrainTimeout (p : PortId)
  /-- LINK_SIGNAL_LOSS (R152): Loss of signal, alignment loss or uncorrectable FEC on a lane in use takes an UP port to PAUSED. -/
  | linkSignalLoss (p : PortId) (lane : Fin 8) (e : LaneEvent)
  /-- LINK_SIGNAL_RESTORED (R152): Signal, alignment and FEC lock return within 10 µs and the port is UP again. -/
  | linkSignalRestored (p : PortId)
  /-- PAUSE_TIMEOUT (R152): A port has been PAUSED for 10 µs; it becomes unusable, its replay buffer is discarded and it returns to TRAINING. -/
  | pauseTimeout (p : PortId)
  /-- RETRAIN (R152): A write of RETRAIN to PRT_n_CTRL sends an UP port back to TRAINING. -/
  | retrain (a : Agent) (p : PortId)
  /-- LANE_FAULT (R158): A data lane of a group link fails and is rebuilt from the parity lane, or a fault on a second lane or on the parity lane is handled. -/
  | laneFault (p : PortId) (lane : Fin 9) (e : LaneEvent)
  /-- PRT_HELD_WRITE (R178): A write to PRT_n_ETYPE, UDP, DA, VLAN or a filter word is held until the next job switch or image application. -/
  | prtHeldWrite (a : Agent) (p : PortId) (offset : Nat) (v : Word)
  /-- RX_FRAME_DISCARD (R167): A received frame is discarded by the MAC, by tag rules or by a DROP filter, or because no filter or built-in rule matches. -/
  | rxFrameDiscard (f : RxFrame)
  /-- HOST_STEERED_FRAME (R169): A frame matching a HOST filter is placed in the next buffer of its shared receive queue and completed as a received SEND. -/
  | hostSteeredFrame (f : RxFrame)
  /-- NAK_REPEAT (R163): The expected hop frame has not arrived 12 µs after a NAK, and the NAK is repeated. -/
  | nakRepeat (p : PortId)
  /-- ACK_HEARTBEAT (R164): 500 ns without a frame to send, or 32 accepted frames since the last acknowledgement, sends a heartbeat that carries the acknowledgement. -/
  | ackHeartbeat (p : PortId)
  /-- HOP_REPLAY_TIMEOUT (R165): The oldest unacknowledged hop frame is 12 µs old without a NAK and the transmitter replays from it. -/
  | hopReplayTimeout (p : PortId)
  /-- FRAME_FORWARD (R172): A GXT frame for another node received on a group link is forwarded on a route's next hop, or discarded with HOP_LIMIT or NO_ROUTE. -/
  | frameForward (f : RxFrame)
  /-- PORT_FRAME_START (R357): A port that can start a frame chooses class 7 first, then a class by deficit round robin under shapers and gates, and starts the frame. -/
  | portFrameStart (p : PortId)
  /-- TRANSLATION_WALK_DONE (R192): A page-table walk ends with a translation or a fault cause; a fault opens or joins a pending-fault slot. -/
  | translationWalkDone (x : Access) (ok : Bool)
  /-- FAULT_EVENT_TIMER (R200): 250 ns after a slot opens, a TRANSLATION_FAULT event is written to the partition's event ring. -/
  | faultEventTimer (slot : SlotId)
  /-- FAULT_RETRY (R203): XLT_FAULT_RESOLVE with RETRY drops the slot's cached translations and every waiter walks again. -/
  | faultRetry (a : Via) (slot : SlotId)
  /-- FAULT_FAIL (R203): XLT_FAULT_RESOLVE with FAIL completes every waiter with TRANSLATION_FAULT and frees the slot. -/
  | faultFail (a : Via) (slot : SlotId)
  /-- FAULT_SLOT_TIMEOUT (R204): A slot unresolved for XLT_FAULT_TIMEOUT milliseconds is failed as by FAIL. -/
  | faultSlotTimeout (slot : SlotId)
  /-- FAULT_TIMEOUT_WRITE (R204): A write to XLT_FAULT_TIMEOUT applies to open slots at once and fails those already older than the new value. -/
  | faultTimeoutWrite (a : Agent) (v : Word)
  /-- WORK_DOORBELL (R234, R235): an access of a doorbell page, a write of `v` or, with `none`, a read. A doorbell write
  gives a work ring a new PRODUCER, which is recorded, or sends the ring to ERROR when out of range. -/
  | workDoorbell (f : Func) (page : PagePlace) (size : Nat) (v : Option Word)
  /-- CQ_DOORBELL (R234, R236): an access of a doorbell page, a write of `v` or, with `none`, a read. A doorbell write gives
  a completion ring a new CONSUMER, which frees slots, and may arm an interrupt. -/
  | cqDoorbell (f : Func) (page : PagePlace) (size : Nat) (v : Option Word)
  /-- WORK_ENTRY_FETCH (R243): A work entry is read from its ring after a completion slot is reserved, and checked for malformation. -/
  | workEntryFetch (k : RingId) (ok : Bool)
  /-- DESCRIPTOR_FETCH (R252): A receive descriptor is fetched ahead of need with its reserved completion slot and checked. -/
  | descriptorFetch (k : RingId) (ok : Bool)
  /-- NOP (R241): A NOP entry completes at fetch and releases its completion slot. -/
  | nop (k : RingId)
  /-- WRITE (R242): A WRITE entry sends LENGTH bytes to a remote window. -/
  | write (k : RingId) (i : BitVec 16)
  /-- WRITE_NOTIFY (R242): A WRITE_NOTIFY entry sends bytes to a remote window and a notification to the receiver. -/
  | writeNotify (k : RingId) (i : BitVec 16)
  /-- READ (R309): A READ entry issues READ_REQs for bytes of a remote window. -/
  | read (k : RingId) (i : BitVec 16)
  /-- SEND (R242): A SEND entry sends a message to the peer's shared receive queue. -/
  | send (k : RingId) (i : BitVec 16)
  /-- ATOMIC_ADD (R328): An ATOMIC_ADD entry sends a fetch-and-add request. -/
  | atomicAdd (k : RingId) (i : BitVec 16)
  /-- ATOMIC_CAS (R328): An ATOMIC_CAS entry sends a compare-and-swap request. -/
  | atomicCas (k : RingId) (i : BitVec 16)
  /-- WINDOW_OPEN (R214): A WINDOW_OPEN entry opens a CLOSED window of the partition's range with the given rights and scope. -/
  | windowOpen (k : RingId) (i : BitVec 16)
  /-- WINDOW_REVOKE (R214): A WINDOW_REVOKE entry puts an OPEN window in CLOSING, or CLOSED at once when nothing is in flight. -/
  | windowRevoke (k : RingId) (i : BitVec 16)
  /-- WINDOW_CLOSED (R214): The last accepted access to a CLOSING window finishes; its generation increments and the revoke completes OK. -/
  | windowClosed (w : QpId)
  /-- INVALIDATE_RANGE (R206): An INVALIDATE entry with SCOPE 0 drops cached translations of a virtual range from every cache. -/
  | invalidateRange (k : RingId) (i : BitVec 16)
  /-- INVALIDATE_PARTITION (R206): An INVALIDATE entry with SCOPE 1 drops every cached translation of the partition. -/
  | invalidatePartition (k : RingId) (i : BitVec 16)
  /-- INVALIDATE_DRAINED (R207): Every transfer issued with a dropped translation has drained and the INVALIDATE completes. -/
  | invalidateDrained (k : RingId) (i : BitVec 16)
  /-- PREFETCH (R209): A PREFETCH entry moves host-aperture leaves of a range to stacked memory, page by page. -/
  | prefetch (k : RingId) (i : BitVec 16)
  /-- EVICT (R210): An ADVISE entry with KIND EVICT moves stacked-memory leaves to the host aperture. -/
  | evict (k : RingId) (i : BitVec 16)
  /-- WARM (R210): An ADVISE entry with KIND WARM loads a range's leaves into every slice's caches. -/
  | warm (k : RingId) (i : BitVec 16)
  /-- PAGE_MOVE_DONE (R209): The copy of one page by PREFETCH or EVICT completes; the leaf is rewritten with MOVING 0 and caches are dropped again. -/
  | pageMoveDone (k : RingId) (i : BitVec 16)
  /-- ALL_REDUCE (R402): A COLLECTIVE entry with OP ALL_REDUCE sums every member's vector and gives the result to every member. -/
  | allReduce (k : RingId) (i : BitVec 16)
  /-- REDUCE_SCATTER (R402): A COLLECTIVE entry with OP REDUCE_SCATTER gives each rank its segment of the sum. -/
  | reduceScatter (k : RingId) (i : BitVec 16)
  /-- ALL_GATHER (R402): A COLLECTIVE entry with OP ALL_GATHER gathers every member's elements to every member. -/
  | allGather (k : RingId) (i : BitVec 16)
  /-- BROADCAST (R402): A COLLECTIVE entry with OP BROADCAST writes the root's data to every member. -/
  | broadcast (k : RingId) (i : BitVec 16)
  /-- ALL_TO_ALL (R402): A COLLECTIVE entry with OP ALL_TO_ALL exchanges blocks between every pair of ranks. -/
  | allToAll (k : RingId) (i : BitVec 16)
  /-- DISPATCH (R426): A COLLECTIVE entry with OP DISPATCH sends token rows to destination ranks' slots and writes count tables. -/
  | dispatch (k : RingId) (i : BitVec 16)
  /-- COMBINE (R427): A COLLECTIVE entry with OP COMBINE returns expert rows to their origins, which sum each token's rows exactly. -/
  | combine (k : RingId) (i : BitVec 16)
  /-- BARRIER (R402): A COLLECTIVE entry with OP BARRIER synchronises the members over the Melquin path. -/
  | barrier (k : RingId) (i : BitVec 16)
  /-- VEIN_RUN (R459): A VEIN_RUN entry passes input from SRC_VA through a vein bound to VEIN_RUN and writes output to DST_VA. -/
  | veinRun (k : RingId) (i : BitVec 16)
  /-- FENCE (R241): A FENCE entry starts after every earlier entry of its ring has completed and holds back later entries until it completes. -/
  | fence (k : RingId) (i : BitVec 16)
  /-- WRG_ENABLE (R231): ENABLE of a work ring is accepted, setting its indices to 0, or refused with CONFIG_ERR. -/
  | wrgEnable (a : Via) (k : RingId)
  /-- WRG_SHUTDOWN (R238): SHUTDOWN of a work ring begins the abort procedure and the ring enters STOPPING. -/
  | wrgShutdown (a : Via) (k : RingId)
  /-- CMP_ENABLE (R231): ENABLE of a completion or event ring is accepted or refused with CONFIG_ERR. -/
  | cmpEnable (a : Via) (c : RingId)
  /-- CMP_DISABLE (R232): DISABLE of a completion ring is accepted, or refused with REFUSED while a bound work ring is not DISABLED. -/
  | cmpDisable (a : Via) (c : RingId)
  /-- WRITE_RX (R272): A WRITE packet is received, passes the receive steps and is placed in its window, or steered to a vein. -/
  | writeRx (f : RxFrame)
  /-- WRITE_NOTIFY_RX (R322): A WRITE_NOTIFY packet is received and placed, with its notification slot reserved at the first accepted packet. -/
  | writeNotifyRx (f : RxFrame)
  /-- READ_REQ_RX (R325): A READ_REQ is received and, once order-bound-ready, answered with READ_RESP packets. -/
  | readReqRx (f : RxFrame)
  /-- READ_RESP_RX (R286): A READ_RESP packet is received and placed at the requester's local offset. -/
  | readRespRx (f : RxFrame)
  /-- SEND_RX (R253): A SEND packet is received; its message takes the next receive buffer in order and is placed. -/
  | sendRx (f : RxFrame)
  /-- ATOMIC_REQ_RX (R328): An ATOMIC_REQ is received, executed once and answered with an ATOMIC_RESP. -/
  | atomicReqRx (f : RxFrame)
  /-- ATOMIC_RESP_RX (R324): An ATOMIC_RESP is received, which makes its PSN done and carries ORIGINAL to the entry. -/
  | atomicRespRx (f : RxFrame)
  /-- ACK_RX (R315): An ACK with CODE 0 is received; covered PSNs are done, an RTT sample is taken and pacing is updated. -/
  | ackRx (f : RxFrame)
  /-- NAK_GAP_RX (R318): A NAK_GAP is received; the sender resends PSNs in the gap that it has not resent within srtt. -/
  | nakGapRx (f : RxFrame)
  /-- BUSY_RX (R332): A BUSY acknowledgement suspends the PSN's timer and schedules its resend after backoff. -/
  | busyRx (f : RxFrame)
  /-- ACCESS_RX (R332): An ACCESS acknowledgement completes the entry REMOTE_ACCESS and sends the queue pair to ERROR. -/
  | accessRx (f : RxFrame)
  /-- FENCED_ACK_RX (R343): A FENCED acknowledgement naming this node and its present incarnation sends the device to QUARANTINE; any other is discarded. -/
  | fencedAckRx (f : RxFrame)
  /-- NO_QP_RX (R332): A NO_QP acknowledgement completes the entry REMOTE_ACCESS and sends the queue pair to ERROR without DISCONNECT. -/
  | noQpRx (f : RxFrame)
  /-- CONNECT_REQ_RX (R293): A CONNECT_REQ is received and accepted, rejected or re-answered according to the context state. -/
  | connectReqRx (f : RxFrame)
  /-- CONNECT_ACCEPT_RX (R294): A CONNECT_ACCEPT is received by a CONNECTING context, which negotiates and enters READY or ERROR. -/
  | connectAcceptRx (f : RxFrame)
  /-- CONNECT_REJECT_RX (R293): A CONNECT_REJECT is received; VERSION or CAPABILITY sends the context to ERROR, and NO_QP leaves it CONNECTING. -/
  | connectRejectRx (f : RxFrame)
  /-- DISCONNECT_RX (R293): A DISCONNECT from the peer sends a READY context to ERROR and aborts its outstanding entries. -/
  | disconnectRx (f : RxFrame)
  /-- MGMT_REQ_RX (R284): A MGMT_REQ from the in-band manager is accepted and queued, answered from the kept responses, refused BUSY, or discarded. -/
  | mgmtReqRx (f : RxFrame)
  /-- MGMT_REQ_EXECUTE (R284): The next queued management request is executed register by register as agent 3 and answered with a MGMT_RESP. -/
  | mgmtReqExecute
  /-- MGMT_RESP_RX (R284): A received MGMT_RESP is discarded. -/
  | mgmtRespRx (f : RxFrame)
  /-- FENCE_RX (R340): A FENCE packet is received and sets or raises a fence record and is flooded onward, triggers quarantine, or is discarded. -/
  | fenceRx (f : RxFrame)
  /-- PACKET_PLACED (R311): A new packet's placement completes; it is marked received, RECV_PSN advances and complete messages are notified in order. -/
  | packetPlaced (q : QpId) (psn : BitVec 32)
  /-- ACK_DELAY_EXPIRY (R312): ACK_DELAY has passed since the first unacknowledged placed packet of a queue pair and an ACK is sent. -/
  | ackDelayExpiry (q : QpId)
  /-- REORDER_TIMEOUT (R313): A PSN below the highest received has been missing for REORDER_NS and a NAK_GAP is sent. -/
  | reorderTimeout (q : QpId)
  /-- RTO_EXPIRY (R317): The retransmission timer expires; the packet at UNA_PSN is resent with backoff, or the entry completes RETRY_EXHAUSTED after 15 retries. -/
  | rtoExpiry (q : QpId)
  /-- BUSY_RESEND (R332): The BUSY backoff of a PSN ends and the PSN is resent. -/
  | busyResend (q : QpId) (psn : BitVec 32)
  /-- BUSY_LIMIT_EXPIRY (R332): BUSY_LIMIT milliseconds pass from the first BUSY on a PSN; the entry completes BUSY_TIMEOUT. -/
  | busyLimitExpiry (q : QpId) (psn : BitVec 32)
  /-- HOST_ATOMIC_COMPLETION (R330): A PCIe AtomicOp completion from the host returns ORIGINAL, or gives an ACCESS reply and a fault when not Successful. -/
  | hostAtomicCompletion (q : QpId) (psn : BitVec 32) (successful : Bool) (original : DWord)
  /-- CONN_RETRY_TIMEOUT (R295): The connection retry timer expires; CONNECT_REQ is sent again, or waiting entries complete RETRY_EXHAUSTED after 15 retries. -/
  | connRetryTimeout (q : QpId)
  /-- CREATE (R306): The XPT_QP_CMD CREATE command takes a context from FREE to INIT from the image buffer. -/
  | create (a : Via) (q : BitVec 24)
  /-- MODIFY (R297): The XPT_QP_CMD MODIFY command changes the fields permitted in the context's present state. -/
  | modify (a : Via) (q : BitVec 24)
  /-- QUERY (R306): The XPT_QP_CMD QUERY command writes the context's image to the buffer. -/
  | query (a : Via) (q : BitVec 24)
  /-- CONNECT (R293): The XPT_QP_CMD CONNECT command sends CONNECT_REQ and takes the context to CONNECTING. -/
  | connect (a : Via) (q : BitVec 24)
  /-- QP_RESET (R293): The XPT_QP_CMD RESET command returns an ERROR context to INIT. -/
  | qpReset (a : Via) (q : BitVec 24)
  /-- DESTROY (R293): The XPT_QP_CMD DESTROY command drains and frees a context, sending DISCONNECT when READY. -/
  | destroy (a : Via) (q : BitVec 24)
  /-- QP_EVICT (R299): The XPT_QP_CMD EVICT command writes back and evicts an unpinned context that qualifies. -/
  | qpEvict (a : Via) (q : BitVec 24)
  /-- QP_FETCH (R306): The XPT_QP_CMD FETCH command makes a context resident. -/
  | qpFetch (a : Via) (q : BitVec 24)
  /-- QPC_FETCH_DONE (R301): A context fetch completes and parked packets and waiting requesters proceed, or on failure the context enters ERROR. -/
  | qpcFetchDone (q : QpId) (ok : Bool)
  /-- QPC_WRITEBACK_DONE (R300): An eviction write-back completes and frees the resident entry, unless the eviction was cancelled. -/
  | qpcWritebackDone (q : QpId)
  /-- QPC_REGION_WRITE (R305): A write to XPT_QPC_REGION_r is applied, or discarded while any queue pair of the region is not FREE. -/
  | qpcRegionWrite (a : Agent) (r : Fin 16) (hi : Bool) (v : Word)
  /-- XPT_FENCE_READ (R344): A write to XPT_FENCE_READ snapshots one member's fence record into XPT_FENCE_ENTRY0 to 2. -/
  | xptFenceRead (a : Agent) (index : BitVec 10)
  /-- XPT_QPC_DROP_READ (R304): A read of XPT_QPC_DROP_q returns and clears the count of miss-buffer discards. -/
  | xptQpcDropRead (a : ReadOf Agent) (q : QuadId)
  /-- WHEEL_SLOT_TICK (R352): The timing-wheel cursor advances every 32 ns, releasing its slot's flows and moving due overflow flows at wrap. -/
  | wheelSlotTick (q : QuadId)
  /-- ECN_QUIET_PERIOD (R350): ecn_period passes without CE marks and the ECN rate increases additively. -/
  | ecnQuietPeriod (q : QpId)
  /-- PACE_EPOCH (R350): A 16 ms pacing epoch ends and the base round-trip minimum rolls over. -/
  | paceEpoch (q : QpId)
  /-- SCH_QP_READ (R365): A write to SCH_QP_READ snapshots a queue pair's pacing state. -/
  | schQpRead (a : Agent) (q : BitVec 20)
  /-- QUANTUM_WRITE (R357): A write to SCH_PORT_n_QUANTUM_c sets the quantum and caps the class's deficit at it. -/
  | quantumWrite (a : Agent) (p : PortId) (c : Fin 7) (v : Word)
  /-- SHAPER_WRITE (R359): A write to a shaper's RATE or BURST caps its tokens, refills at the new rate, and starts the bucket full when leaving RATE 0. -/
  | shaperWrite (a : Agent) (p : PortId) (c : Fin 7) (burst : Bool) (v : Word)
  /-- TIME_REQ_TX (R373): Every 125 µs a time-exchange REQ is sent on each group-link port with PEER_OK. -/
  | timeReqTx (p : PortId)
  /-- TIME_REQ_RX (R373): A time-exchange REQ is stamped on arrival and answered with a RESP within 2 µs. -/
  | timeReqRx (f : RxFrame)
  /-- TIME_RESP_RX (R374): A time-exchange RESP is received; a complete exchange on the parent port runs the servo and may step the counter. -/
  | timeRespRx (f : RxFrame)
  /-- ADVERT_EXPIRY (R377): An advertisement becomes unusable 500 µs after it arrived, which may change parent or time state. -/
  | advertExpiry (p : PortId)
  /-- PARENT_TIMEOUT (R379): 500 µs pass without a complete exchange on the parent port; the parent changes or the device enters HOLDOVER. -/
  | parentTimeout
  /-- CANDIDATE_TIMEOUT (R376): An ACQUIRING device has held no usable advertisement for 1 ms and becomes a candidate. -/
  | candidateTimeout
  /-- LODESTONE_CLAIM (R379): A candidate sees no better usable advertisement for 4 periods of 125 µs and becomes LODESTONE. -/
  | lodestoneClaim
  /-- HOLDOVER_LIMIT (R379): HOLDOVER_LIMIT_MS elapse in HOLDOVER; UNCERTAIN is set and a time fault is reported. -/
  | holdoverLimit
  /-- SYNC_RX (R384): An accepted PTP Sync gives t2. -/
  | syncRx (f : RxFrame)
  /-- FOLLOW_UP_RX (R384): An accepted PTP Follow_Up gives t1 and a Delay_Req is sent. -/
  | followUpRx (f : RxFrame)
  /-- DELAY_RESP_RX (R385): An accepted PTP Delay_Resp gives t4 and the servo runs once on the complete set. -/
  | delayRespRx (f : RxFrame)
  /-- PTP_DISCARD (R384): A PTP message that is not accepted is discarded and sets PTP_DISCARD. -/
  | ptpDiscard (f : RxFrame)
  /-- PTP_LOST (R386): No accepted Follow_Up arrives for 3 s; PTP_LOCKED clears, PTP_LOST sets and frequency is held. -/
  | ptpLost
  /-- TIMED_LAUNCH_POINT (R388): A timed entry reaches its launch point; it waits, or completes LATE when the lead is too short or too long. -/
  | timedLaunchPoint (k : RingId) (i : BitVec 16)
  /-- TIMED_START (R389): A waiting timed entry starts in the first cycle in which its domain's counter reaches LAUNCH_TICK. -/
  | timedStart (k : RingId) (i : BitVec 16)
  /-- DEADLINE_EXPIRY (R392): DEADLINE_TICK arrives before an entry completes; a DEADLINE_FAULT event and a deadline fault are raised. -/
  | deadlineExpiry (k : RingId) (i : BitVec 16)
  /-- MQ_LATE_RX (R390): A LATE notice completes the member's entry for that COLLECTIVE_ID LATE with reason 2, or is kept until the entry is fetched. -/
  | mqLateRx (f : RxFrame)
  /-- LOD_LATE_COUNT_READ (R396): A read of LOD_LATE_COUNT returns and clears the count of LATE completions. -/
  | lodLateCountRead (a : ReadOf Agent)
  /-- LOD_MISS_COUNT_READ (R396): A read of LOD_MISS_COUNT returns and clears the deadline-miss count. -/
  | lodMissCountRead (a : ReadOf Agent)
  /-- COLLECTIVE_START (R414): An engine with a free slot starts the next fetched collective in fetch order. -/
  | collectiveStart (q : QuadId)
  /-- ADDEND_CHUNK_RX (R417): An addend chunk is checked and added once; after the last addend the chunk is rounded and written to the result queue. -/
  | addendChunkRx (f : RxFrame)
  /-- RESULT_CHUNK_RX (R419): A result chunk is CRC-checked, placed, forwarded down the tree and released, or a COLL_RESEND is sent. -/
  | resultChunkRx (f : RxFrame)
  /-- DATA_CHUNK_RX (R416): A data chunk of a data-only operation is checked, placed and forwarded. -/
  | dataChunkRx (f : RxFrame)
  /-- COLL_ACK_RX (R420): A COLL_ACK with CODE 0 acknowledges an addend or releases a result chunk; a batch released by all members frees its queue entries. -/
  | collAckRx (f : RxFrame)
  /-- COLL_NOT_STARTED_RX (R418): A COLL_ACK with CODE 1 schedules a resend of the chunk after RESEND_US. -/
  | collNotStartedRx (f : RxFrame)
  /-- COLL_NO_CREDIT_RX (R418): A COLL_ACK with CODE 2 schedules a resend of the chunk after 2 µs. -/
  | collNoCreditRx (f : RxFrame)
  /-- COLL_RESEND_RX (R420): A COLL_RESEND rewinds the producer to its mark and resends unreleased chunks directly to the member. -/
  | collResendRx (f : RxFrame)
  /-- CHUNK_RESEND_TIMEOUT (R421): A chunk is not released within RESEND_US and is resent, or after RESEND_LIMIT sends the closing exchange starts with POISON. -/
  | chunkResendTimeout (comm : Nat) (id : DWord) (chunk : Nat) (dest : Nat)
  /-- COLL_COMPUTE_FAULT (R434): The engine detects a computational fault in a chunk and recomputes it, or starts the closing exchange when the result has left. -/
  | collComputeFault (comm : Nat) (id : DWord) (chunk : Nat)
  /-- MQ_CLOSE_RX (R436): An MQ_CLOSE note is merged and resent when values change; equal notes from every live member complete the collective. -/
  | mqCloseRx (f : RxFrame)
  /-- MQ_DATA_RX (R431): A Melquin-path packet is received and handled by its phase: collected by the leader, relayed on the ring, or written as the result. -/
  | mqDataRx (f : RxFrame)
  /-- MQ_RESEND_TIMEOUT (R432): MQ_RESEND_US passes; a Melquin contribution or a differing closing note is resent. -/
  | mqResendTimeout (comm : Nat) (id : DWord)
  /-- VEIN_UNIT_READY (R449): A stage whose input unit is complete and whose output has credit takes its sequencer turn and processes the unit. -/
  | veinUnitReady (v : VeinId) (st : StageId)
  /-- UNSEAL (R462): An UNSEAL stage verifies and decrypts one sealed record. -/
  | unseal (v : VeinId) (st : StageId)
  /-- SEAL (R462): A SEAL stage encrypts one record with a fresh counter. -/
  | seal (v : VeinId) (st : StageId)
  /-- DEQUANTIZE (R463): A DEQUANTIZE stage converts one MX row to OUT_FORMAT. -/
  | dequantize (v : VeinId) (st : StageId)
  /-- QUANTIZE (R464): A QUANTIZE stage forms one MX row with block scales. -/
  | quantize (v : VeinId) (st : StageId)
  /-- CONVERT (R465): A CONVERT stage scales and rounds one row into OUT_FORMAT. -/
  | convert (v : VeinId) (st : StageId)
  /-- REDUCE (R466): A REDUCE stage sums GROUP input vectors exactly into one vector. -/
  | reduce (v : VeinId) (st : StageId)
  /-- MATMUL (R467): A MATMUL stage multiplies one X row by the resident weights. -/
  | matmul (v : VeinId) (st : StageId)
  /-- ATTENTION (R473): An ATTENTION stage computes partial attention for a descriptor's query rows over its cache blocks. -/
  | attention (v : VeinId) (st : StageId)
  /-- SCATTER (R468): A SCATTER stage writes a row at its table index. -/
  | scatter (v : VeinId) (st : StageId)
  /-- GATHER (R468): A GATHER stage reads the row at an index. -/
  | gather (v : VeinId) (st : StageId)
  /-- PACK (R469): A PACK stage copies a field out of each record. -/
  | pack (v : VeinId) (st : StageId)
  /-- UNPACK (R469): An UNPACK stage places each record inside a filled record. -/
  | unpack (v : VeinId) (st : StageId)
  /-- STEERED_PACKET_RESUME (R455): Credit returns to a receive-stream vein and a steered packet waiting in the miss buffer is written to stage 0's queue. -/
  | steeredPacketResume (q : QuadId) (qp : QpId)
  /-- VEN_ERRCNT_READ (R477): A read of VEN_VEIN_v_ERRCNT returns and clears the error count and re-arms ERR0 and ERR1. -/
  | venErrcntRead (a : ReadOf Agent) (v : VeinId)
  /-- LOAD (R485): The CIP_KEY_CMD LOAD command reads the key record for a slot phase. -/
  | load (a : Via) (slot : BitVec 16)
  /-- KEY_RECORD_READ_DONE (R485): The key record has been read; it is checked and zeroed, and the phase is filled, or the load is refused. -/
  | keyRecordReadDone (ok : Bool)
  /-- CLEAR (R487): The CIP_KEY_CMD CLEAR command empties one phase of a key slot. -/
  | clear (a : Via) (slot : BitVec 16) (phase : Bool)
  /-- ACTIVATE (R487): The CIP_KEY_CMD ACTIVATE command makes a loaded phase of a SEAL slot active. -/
  | activate (a : Via) (slot : BitVec 16) (phase : Bool)
  /-- CIP_SLOT_READ (R497): A write to CIP_SLOT_READ snapshots a key slot's state. -/
  | cipSlotRead (a : Via) (slot : BitVec 16)
  /-- CIPHER_REQUEST_DONE (R491): A cipher core finishes sealing or opening a request; results leave in entry order, or are discarded on parity error. -/
  | cipherRequestDone (core : Nat) (parityError : Bool)
  /-- PAR_ENABLE (R501): The PAR_CMD ENABLE command puts a partition's ranges into effect and sets its scheduler weight. -/
  | parEnable (a : Agent) (p : PartId)
  /-- RESIZE (R502): The PAR_CMD RESIZE command raises a partition's range counts. -/
  | resize (a : Agent) (p : PartId)
  /-- PARTITION_RESET (R503): The PAR_CMD RESET command starts a partition reset. -/
  | partitionReset (a : Agent) (p : PartId)
  /-- PAR_DISABLE (R500): The PAR_CMD DISABLE command resets a partition with no bound function and then withdraws its ranges. -/
  | parDisable (a : Agent) (p : PartId)
  /-- BIND (R506): The PAR_CMD BIND command binds a virtual function to a partition with a ring range. -/
  | bind (a : Agent) (p : PartId) (v : VfId)
  /-- UNBIND (R506): The PAR_CMD UNBIND command unbinds a virtual function whose rings are all DISABLED. -/
  | unbind (a : Agent) (p : PartId) (v : VfId)
  /-- PARTITION_RESET_DONE (R503): A partition reset completes; the partition returns to ACTIVE or, after DISABLE, to IDLE. -/
  | partitionResetDone (p : PartId)
  /-- FAULT_REPORT (R517): A source drives its fault pair to (1, 0) with a cause; the collector records it and starts containment for its class and level. -/
  | faultReport (source : BitVec 16) (cause : Byte) (part : Option PartId)
  /-- WIRE_FAULT (R518): A fault pair reads equal for three consecutive MGT cycles and a WIRE fault is recorded. -/
  | wireFault (source : BitVec 16)
  /-- RECOVERY_DONE (R525): A recovery's reinitialisation and self-test end; the domain resumes, or the unit is retired and spared; the next queued fault starts. -/
  | recoveryDone (slot : Fin 4) (passed : Bool)
  /-- PENDING_CLEAR (R522): The owner writes 1 to a FLT_PEND bit, which clears it unless the fault is still recovering or the pair is unhealthy. -/
  | pendingClear (a : Agent) (k : Fin 64) (v : Word)
  /-- FORCE_FAULT (R523): FLT_FORCE with MODE 1 injects a fault at a source with the given cause. -/
  | forceFault (a : Agent) (source : BitVec 16) (cause : Byte)
  /-- FORCE_WIRE (R523): FLT_FORCE with MODE 2 holds both wires of a source's pair at 1 for 4 MGT cycles. -/
  | forceWire (a : Agent) (source : BitVec 16) (cause : Byte)
  /-- FLT_CLEAR_FIRST (R520): A write to FLT_CLEAR_FIRST clears the first-error entry and FIRST_VALID. -/
  | fltClearFirst (a : Agent) (v : Word)
  /-- FLT_HIST_READ (R541): A write to FLT_HIST_READ snapshots one history entry. -/
  | fltHistRead (a : Agent) (age : BitVec 5)
  /-- LASER_BIAS_CHECK (R540): Every 1 s each laser's bias is measured against LASER_DRIFT and a swap may start. -/
  | laserBiasCheck (l : Fin 80) (drift : Nat) (lost : Bool)
  /-- HBM_CE_CHECK (R540): Every 60 s each pseudo-channel's correctable errors are checked against HBM_CE_RATE and a copy may start. -/
  | hbmCeCheck (s : StackId) (pc : Fin 32) (errors : Nat)
  /-- TILE_SLOWDOWN_CHECK (R540): Every 10 s each tile's ring oscillator is checked against TILE_SLOWDOWN. -/
  | tileSlowdownCheck (t : Fin 272) (slow : Nat)
  /-- PC_COPY_DONE (R534): A pseudo-channel copy completes; COPY_DONE sets, the remap takes effect and the next copy starts. -/
  | pcCopyDone (s : StackId) (bad : List Nat)
  /-- LASER_SWAP (R536): The reserve laser has been biased and every modulator of the old laser moves to it in one step. -/
  | laserSwap (q : QuadId)
  /-- HBM_UE_READ (R543): A read of HBM_s_UE returns and clears the count of MEM_UE events. -/
  | hbmUeRead (a : ReadOf Agent) (s : StackId)
  /-- SAMPLE_INTERVAL (R549): A sampler's interval ends and one 64-byte record is written for each enabled set. -/
  | sampleInterval (w : Sampler) (counts : List SetCount)
  /-- TRACE_SYNC (R555): Every 1 ms of trace cycles a SYNC trace record is formed. -/
  | traceSync
  /-- OBS_FRAME_TX (R557): The observation port sends a 1,048-byte frame of up to 32 trace records, with a LOST record once space allows. -/
  | obsFrameTx
  /-- OBS_TRACE_LOST_READ (R558): A read of OBS_TRACE_LOST returns and clears the count of dropped trace records. -/
  | obsTraceLostRead (a : ReadOf Agent)
  /-- PC_CQ_ERR_READ (R559): A read of PC_CQ_ERR returns and clears the partition's count of non-OK completions. -/
  | pcCqErrRead (a : ReadOf Via) (p : PartId)
  /-- COALESCING_INTERVAL_END (R219): A window index's WIN_COALESCE.US coalescing interval ends; with violations counted, one WINDOW_VIOLATION event carrying SUPPRESSED is written and a new interval opens. -/
  | coalescingIntervalEnd (w : QpId)
  /-- WIN_READ (R221): A write to WIN_READ snapshots one window's fields into WIN_ENTRY0 to 5 in one XPT cycle. -/
  | winRead (a : Agent) (index : BitVec 20)
  /-- PARITY_REBUILD_TIMEOUT (R532): A group-link port has rebuilt a lane from parity without a break for 10 s; the device records EXHAUSTED and enters DEGRADED. -/
  | parityRebuildTimeout (p : PortId)
  /-- LANE_LOCK_RESTORED (R159): A rebuilt data lane or a failed parity lane regains lock; RX_LOCK, PARITY_OK and SPARED_LANE change and the rebuild ends. -/
  | laneLockRestored (p : PortId) (lane : Fin 9)
  /-- SET_ACTIVE_FLASH_DONE (R76): The flash write of SET_ACTIVE completes within 50 ms; the active slot and any raised rollback floor are stored, and BUSY clears with the result. -/
  | setActiveFlashDone
  /-- INBAND_PEER_FLASH_STORED (R104): The 50 ms flash store of a write to OWN_INBAND_PEER completes; before this moment a reset keeps the old flash value. -/
  | inbandPeerFlashStored
  /-- PWR_EVENT_CONDITION (R142): The input voltage falls below 22.5 V or the coolant inlet rises above 40 °C; the matching PWR_STATUS bit shows it and the PWR_EVENTS bit sets. -/
  | pwrEventCondition (r : Readings)
  deriving DecidableEq, Repr

end Sys2Proof
end

