-- ==== Sys2Proof/Config.lean ====
section
/-! DEFINITION. What one implementation fixes, and the free values: constants without a body, about which nothing can be
proved, so that every statement holds for each of their values (log 6). -/
namespace Sys2Proof.Config

/-- The free values: the value at index `n` of everything the spec leaves open after which the device goes on (a random
nonce R113, the contents of a result buffer that the spec calls undefined R390, R436, the use of an old or a new
translation R197, the error of a stamp within its bound R370). A meaning draws the next index, `State.seq`. -/
opaque freeValue : Nat → BitVec 64

/-- `exp` of the vector unit (R445): the same binary32 result for the same input on every K920, within 2 ulp of the
exact value. The spec gives no table: which of the four binary32 values around the exact one it is, is free. -/
opaque expUlp : BitVec 32 → BitVec 2

/-- The AtomicOp requester enable of a PCIe function (R330), a bit of its configuration space, which no command of the
table writes: 0 the physical function, 1 + v a virtual function (log 21). -/
opaque atomicEnable : Nat → Bool

/-- The digest of Abelwell's image key, which is written to trust-list entry 0 at manufacture (R61); the spec does not print
it. -/
opaque abelwellKey : BitVec 384

/-- Tiles, stacks and ports built (R14, R45). -/
def tilesBuilt : Nat := 272
def tilesInService : Nat := 256
def stacksBuilt : Nat := 20
def ports : Nat := 48

/-- Bytes of stacked memory in service: 900 units of 1 GiB (R184). -/
def stackedBytes : Nat := 900 * 2 ^ 30

/-- The least and the greatest image length (R49). -/
def imageMin : Nat := 384
def imageMax : Nat := 125829120

end Sys2Proof.Config
end

