-- ==== Sys2Proof/Machine/State.lean ====
section
/-! DEFINITION. The state of the K920 as plain data, its faults and refusals, and the state right after reset.
The large register and context tables are sparse (`SMap`): a list of (key, value) pairs, keys strictly rising, that lists
no value equal to what an unlisted key holds; Ops.lean reads and writes them. -/
namespace Sys2Proof.Machine

/-- A sparse table: keys strictly rising, no entry equal to the unlisted value of its key. -/
abbrev SMap (α : Type) := List (Nat × α)

/-- Memory: a sparse table of bytes. -/
abbrev Mem := List Host.Cell

/-- The device states of R83. -/
inductive DevState where
  | off | standby | boot | awaitHost | configured | training | service | degraded | quarantine
  deriving DecidableEq, Repr

/-- Sideband pins and clocks as the module sees them (R119 to R130). -/
structure Pins where
  vinOk : Bool := true
  pwrEn : Bool := true
  resetN : Bool := true
  refclk : Bool := true
  pcieRefclk : Bool := true
  deriving DecidableEq, Repr

/-- Live PLL lock bits (R38 to R40). -/
structure Locks where
  core : Bool := false
  xpt : Bool := false
  hif : Bool := false
  lod : Bool := false
  obs : Bool := false
  stackPlls : BitVec 20 := 0
  deriving DecidableEq, Repr

/-- Device state, reset, pins, power and thermal state (R83 to R91, R119 to R142). -/
structure Dev where
  state : DevState := .boot
  /-- A device reset has begun and has not completed (R566). -/
  inReset : Bool := true
  resetCause : BitVec 4 := 0
  incarnation : BitVec 16 := 0
  joinPending : Bool := false
  /-- Local time at which the present state was entered. -/
  enteredAt : Nat := 0
  timeFault : Bool := false
  pins : Pins := {}
  rails : Bool := true
  /-- Local time of the last fall of PWR_EN, for R123. -/
  pwrEnFellAt : Nat := 0
  pcieUp : Bool := false
  /-- Size of BAR4 in bytes (R42). -/
  bar4 : Nat := 2 ^ 36
  /-- Dynamic I3C address, once the bus controller has assigned one (R128). -/
  i3cAddr : Option (BitVec 7) := none
  slotId : BitVec 4 := 0
  locks : Locks := {}
  /-- The last readings (log 5). -/
  sensors : Readings := { tile := 40, stack := 40, laser := 40, coolant := 30, vin := 24000 }
  /-- The tile issue duty that the thermal rule and the power rule call for (R138, R140). -/
  duty : Nat := 16
  dutyPower : Nat := 16
  /-- Local time of the last step of the duty (R138). -/
  dutyAt : Nat := 0
  /-- A thermal trip holds the main rails off (R139). -/
  tripped : Bool := false
  /-- Optical outputs may be lit (R106). -/
  lit : Bool := false
  /-- The present half-period of ALERT_N in Alive mode is a low one; `alertAt` is when it began (R132). -/
  alertLow : Bool := false
  alertAt : Nat := 0
  /-- Functions whose reset has begun and not drained (R89, R90). -/
  funcReset : List Func := []
  deriving DecidableEq, Repr

/-- Observation session (R112 to R116). -/
structure Session where
  isOpen : Bool := false
  method : Bool := false
  lockedOut : Bool := false
  fails : Nat := 0
  openedAt : Nat := 0
  /-- Local time at which the 1 s lock-out of R115 ends; `retryWait` says that it runs. -/
  retryWait : Bool := false
  retryAt : Nat := 0
  deriving DecidableEq, Repr

/-- The OWN block (R92 to R104, R112 to R116). -/
structure Own where
  owner : BitVec 2 := 0
  lapsed : Bool := false
  /-- Local time of the claim by which the present owner owns the device (R94). -/
  claimedAt : Option Nat := none
  leaseEnd : Nat := 0
  successor : BitVec 2 := 0
  handover : Bool := false
  expired : Bool := false
  handoverEnd : Nat := 0
  reject : BitVec 3 := 0
  inbandNode : BitVec 20 := 0
  inbandValid : Bool := false
  /-- A write of OWN_INBAND_PEER is being stored in flash (R100, R104). -/
  inbandStore : Bool := false
  busy : Bool := false
  lastCmd : Nat := 0
  result : Nat := 0
  index : Nat := 0
  data : SMap Byte := []
  dataLen : Nat := 0
  /-- The digest or hash that the running flash-writing command stores. -/
  stored : BitVec 384 := 0
  nonce : BitVec 128 := 0
  nonceLive : Bool := false
  nonceAt : Nat := 0
  session : Session := {}
  deriving DecidableEq, Repr

/-- One image slot of flash (R68). -/
structure ImageSlot where
  bytes : List Byte := []
  commit : Bool := false
  deriving DecidableEq, Repr

/-- Pseudo-channel remap of a stack (R222, R534). -/
structure PcMap where
  spare30 : Option Nat := none
  spare31 : Option Nat := none
  /-- Spare 30 has failed in its turn and serves no more. -/
  dead30 : Bool := false
  deriving DecidableEq, Repr

/-- What flash holds (R61 to R69, R88, R89, R104, R109, R531). Unlisted entries of the tables are a module with every
spare unused and no manufacturing failure (R560, R568). -/
structure Flash where
  serial : DWord := 0
  macs : SMap (BitVec 48) := []
  obsKey : BitVec 256 := 0
  trust : SMap (Option (BitVec 384)) := [(0, some Config.abelwellKey)]
  floor : BitVec 16 := 0
  password : Option (BitVec 384) := none
  incarnation : BitVec 16 := 0
  quarantine : Bool := false
  inbandNode : BitVec 20 := 0
  inbandValid : Bool := false
  slotA : ImageSlot := {}
  slotB : ImageSlot := {}
  activeB : Bool := false
  bootB : Bool := false
  /-- State of physical tile t as TIL_n_ID encodes it. -/
  tileState : SMap (BitVec 2) := []
  /-- Physical tile that serves a logical tile in the running image; `none` while it is unserved. -/
  tileOf : SMap (Option Nat) := []
  laserState : SMap (BitVec 2) := []
  /-- State of cipher core c: 0 in service, 1 reserve, 2 retired. -/
  coreState : SMap (BitVec 2) := []
  /-- Compatibility core of a quadrant retired. -/
  compatBad : SMap Bool := []
  pcMaps : SMap PcMap := []
  hbmShort : SMap Bool := []
  /-- Spare context banks used, banks lost, and spare rows used, per slice or tile. -/
  banksUsed : SMap Nat := []
  banksLost : SMap Nat := []
  rowsUsed : SMap Nat := []
  portsRetired : SMap Bool := []
  /-- A unit kind is short of spares (R84, R532). -/
  short : Bool := false
  deriving DecidableEq, Repr

/-! ## The lattice image (R49 to R58) -/

structure PartRec where
  part : Nat
  hbmFirst : Nat
  hbmUnits : Nat
  tileGroups : DWord
  deriving DecidableEq, Repr

structure PortRec where
  port : Nat
  mode : Nat
  peer : Nat
  deriving DecidableEq, Repr

structure Member where
  node : Nat
  coord : List Nat
  deriving DecidableEq, Repr

structure GroupRec where
  groupId : Nat := 0
  selfNode : Nat := 0
  priority : Nat := 255
  maxHops : Nat := 1
  deadTimeUs : Nat := 2000
  leadUs : Nat := 1000
  extent : List Nat := []
  members : List Member := []
  deriving DecidableEq, Repr

/-- The static sections (R55). -/
structure Static where
  coreFreq : Nat := 0
  parts : List PartRec := []
  ports : List PortRec := []
  shares : List Nat := []
  policy : List (Nat × Nat) := []
  laserDrift : Nat := 10
  tileSlow : Nat := 20
  hbmCeRate : Nat := 1000
  group : GroupRec := {}
  deriving DecidableEq, Repr

structure Route where
  dest : Nat
  ports : List Nat
  adaptive : Bool
  fabric : Bool
  deriving DecidableEq, Repr

structure GateWin where
  openAt : Nat
  closeAt : Nat
  mask : Nat
  deriving DecidableEq, Repr

structure Gate where
  port : Nat
  cycle : Nat
  base : DWord
  wins : List GateWin
  deriving DecidableEq, Repr

structure StageRec where
  kind : Nat
  tile : Nat
  param : List Byte
  weightLen : Nat
  weightAddr : Nat
  digest : BitVec 384
  /-- Byte offset of WEIGHT_DIGEST in the image that defined the stage (R564). -/
  digestAt : Nat
  deriving DecidableEq, Repr

structure VeinRec where
  vein : Nat
  part : Nat
  binding : Nat
  bindArg : Nat
  stages : List StageRec
  deriving DecidableEq, Repr

structure CommRec where
  comm : Nat
  mask : Nat
  vein : Nat
  part : Nat
  origin : List Nat
  extent : List Nat
  stride : List Nat
  deriving DecidableEq, Repr

/-- The job sections (R57), with the COMM_TAG of R79. -/
structure Job where
  jobId : Nat := 0
  routes : List Route := []
  gates : List Gate := []
  veins : List VeinRec := []
  comms : List CommRec := []
  commTag : DWord := 0
  deriving DecidableEq, Repr

structure Image where
  version : Word := 0
  security : Nat := 0
  groupId : Nat := 0
  staticTag : DWord := 0
  static : Static := {}
  job : Job := {}
  deriving DecidableEq, Repr

/-- What the loader is doing (R66, R76). -/
inductive LatPhase where
  | idle | firstPass | secondPass | commit | weights | flash
  deriving DecidableEq, Repr

/-- A counted MQ_READY (R565): the member's index and its four values. -/
structure ReadyNote where
  member : Nat
  jobId : Nat
  tick : DWord
  staticTag : DWord
  commTag : DWord
  deriving DecidableEq, Repr

/-- A staged job: its sections and the weights loaded and verified for it during the quiesce (R77 to R79). -/
structure Staged where
  job : Job
  staticTag : DWord
  deriving DecidableEq, Repr

/-- The LAT block (R64 to R79). -/
structure Lat where
  busy : Bool := false
  lastCmd : Nat := 0
  result : Nat := 0
  dropped : Bool := false
  failOffset : Word := 0xFFFFFFFF
  phase : LatPhase := .idle
  /-- Command whose image is being read: 1 APPLY, 2 WRITE_SLOT, 4 STAGE, 0 the slot check of BOOT. -/
  reading : Nat := 0
  slotB : Bool := false
  /-- In BOOT: the active slot has failed and the other one is being checked (R69). -/
  second : Bool := false
  digest : BitVec 384 := 0
  parsed : Option Image := none
  staged : Option Staged := none
  armed : Option DWord := none
  /-- LAT_SRC and LAT_LEN of the command that runs. -/
  src : Nat := 0
  len : Nat := 0
  quiescing : Bool := false
  /-- The ready cutoff and the abort cutoff of the armed switch have passed; `readySent`: this device sent READY. -/
  cutReady : Bool := false
  cutAbort : Bool := false
  readySent : Bool := false
  readies : List ReadyNote := []
  aborted : Bool := false
  weightsBusy : Bool := false
  weightsOk : Bool := false
  imageVersion : Word := 0
  fromSlot : Bool := false
  deriving DecidableEq, Repr

/-! ## Time (R367 to R398) -/

inductive TimeState where
  | free | acquiring | locked | holdover | lodestone
  deriving DecidableEq, Repr

/-- The candidate a time-exchange frame advertises (R372, R377). -/
structure Advert where
  state : Nat
  priority : Nat
  serial : DWord
  node : Nat
  sender : Nat
  distance : Nat
  since : Nat
  deriving DecidableEq, Repr

/-- One open exchange of a port (R373). -/
structure Exchange where
  seq : BitVec 16
  t1 : DWord
  t2 : Option DWord := none
  t4 : Option DWord := none
  deriving DecidableEq, Repr

structure Lod where
  tick : DWord := 0
  /-- Part of an LOD cycle owed by the steered frequency, in units of 10^-12 cycle. -/
  part : Int := 0
  state : TimeState := .free
  parent : Option Nat := none
  distance : Nat := 15
  uncertain : Bool := false
  served : Bool := false
  ptpLocked : Bool := false
  samples : Nat := 0
  fdelay : Int := 0
  /-- Integral term and frequency in ppt (10^-12). `fdelay` is the filtered delay of the PTP path, in units of
  2^-(4 samples - 3) tick, so that R374's sixteenths stay exact. -/
  integ : Int := 0
  freq : Int := 0
  recent : List Int := []
  /-- Consecutive complete exchanges with |offset| at most 8 ticks (R379), or sets of R385. -/
  good : Nat := 0
  /-- The last offset in half ticks. -/
  offset : Int := 0
  lastAt : Nat := 0
  quietAt : Nat := 0
  claimAt : Nat := 0
  candidate : Bool := false
  holdAt : Nat := 0
  lodeNode : Nat := 0
  lodePriority : Nat := 0
  lodeSerial : DWord := 0
  /-- PTP: sequence of the last accepted Sync, its t1 and t2, the Delay_Req sequence and t3, the last offset. -/
  ptpSeq : Option (BitVec 16) := none
  ptpT1 : Option DWord := none
  ptpT2 : DWord := 0
  ptpReq : Option (BitVec 16) := none
  ptpReqNext : BitVec 16 := 0
  ptpT3 : Option DWord := none
  ptpInterval : Nat := 4000000000
  ptpOffset : Int := 0
  ptpAt : Nat := 0
  ptpSets : Nat := 0
  /-- LOD_PTP_CTRL, MASTER, MASTER_PORT and OFFSET as they apply since the last Sync (R397). -/
  ptpEff : List Word := []
  deriving DecidableEq, Repr

/-! ## Ports and scheduling (R143 to R180, R346 to R364) -/

inductive LinkState where
  | disabled | dark | training | up | paused
  deriving DecidableEq, Repr

/-- A packet presented at stage 4 of R348 on a port: the head of its flow. -/
structure Head where
  flow : Nat
  cls : Nat
  wire : Nat
  finish : BitVec 32
  frame : Frame
  /-- Queue pair and PSN of an originated packet. -/
  qp : Option Nat := none
  psn : BitVec 32 := 0
  /-- Wire bytes that pacing charges (R353). -/
  charge : Nat := 0
  isSealed : Bool := false
  /-- Arrival of the packet that an acknowledgement under way answers (R275). -/
  since : Option Nat := none
  deriving DecidableEq, Repr

/-- An acknowledgement in a class-7 queue, whose HOLD_NS is known when it departs (R275): its frame, the arrival of the packet it
answers, and the nonce and key that seal it. -/
structure AckHold where
  frame : Frame
  since : Nat
  sealing : Option (List Byte × BitVec 256) := none
  deriving DecidableEq, Repr

/-- Per-class scheduling state of a port (R355 to R359). -/
structure ClassState where
  virt : BitVec 32 := 0
  /-- Finish tag by flow (R355). -/
  tags : SMap (BitVec 32) := []
  deficit : Nat := 0
  visited : Bool := false
  /-- Tokens of the shaper at local time `tokAt`, in units of 1/80 byte. -/
  tokens : Int := 0
  tokAt : Nat := 0
  deriving DecidableEq, Repr

/-- A data frame in a replay buffer (R165): its HOP_SEQ, the frame, and the local time at which it was last sent. -/
structure HopFrame where
  seq : BitVec 16
  frame : Frame
  sentAt : Nat
  deriving DecidableEq, Repr

structure Port where
  link : LinkState := .dark
  mode : Nat := 0
  peerNode : Nat := 0
  txPll : Bool := false
  /-- Transmit lanes that carry light; lane 8 is the spare one (R133, R134). -/
  txLit : BitVec 9 := 0
  rxLock : BitVec 9 := 0
  parityOk : Bool := false
  spared : Option Nat := none
  sparedAt : Nat := 0
  /-- EXHAUSTED has been recorded for the present rebuild (R532). -/
  rebuildNoted : Bool := false
  peerOk : Bool := false
  dataOk : Bool := false
  /-- Last accepted heartbeat: local time, incarnation, STATE and JOIN_PENDING. `heard` says one has arrived. -/
  heard : Bool := false
  hbAt : Nat := 0
  hbInc : BitVec 16 := 0
  hbState : Nat := 0
  hbJoin : Bool := false
  dead : Bool := false
  cabling : Bool := false
  since : Nat := 0
  failed : Bool := false
  /-- Transmit side of link-level retry: next HOP_SEQ, replay buffer oldest first, replays of its oldest. -/
  hopNext : BitVec 16 := 0
  replay : List HopFrame := []
  replays : Nat := 0
  toReplay : List (BitVec 16 × Frame) := []
  /-- Receive side: expected HOP_SEQ, NAK outstanding since, frames accepted and time since the last acknowledgement. -/
  hopExpect : BitVec 16 := 0
  nakOut : Bool := false
  nakAt : Nat := 0
  accepted : Nat := 0
  ackAt : Nat := 0
  ackDue : Bool := false
  nakDue : Bool := false
  /-- Time exchange (R373, R374). -/
  reqSeq : BitVec 16 := 0
  /-- Local time at which the next REQ is due. -/
  reqAt : Nat := 0
  exch : List Exchange := []
  prevT3 : DWord := 0
  prevSeq : BitVec 16 := 0xFFFF
  /-- The filtered delay in units of 2^-(4 fsamples - 3) tick. -/
  fdelay : Int := 0
  fsamples : Nat := 0
  exchAt : Nat := 0
  exchDone : Bool := false
  advert : Option Advert := none
  /-- The class-7 queue, oldest first, what its acknowledgements answer, and the heads of classes 0 to 6. -/
  queue7 : List Frame := []
  ackHolds : List AckHold := []
  heads : List Head := []
  rr : Nat := 0
  classes : SMap ClassState := []
  /-- Local time until which the last frame started occupies the port (R347). -/
  busyTill : Nat := 0
  deriving DecidableEq, Repr

/-- Where a flow waits (R348, R352). -/
inductive Place where
  | idle
  | slot (n : Nat)
  | overflow
  | port (p : Nat)
  | cipher
  deriving DecidableEq, Repr

/-- A flow: next-send time in local ns, and the packets of a collective or forwarding flow (R346 to R354). -/
structure Flow where
  next : Nat := 0
  place : Place := .idle
  /-- Queued frames, oldest first: of a forwarding flow with their next-hop port; of a collective flow, whose hop is chosen at its
  release, with 48 and the GXT bytes as the body (R348). -/
  queue : List (Nat × Frame) := []
  deriving DecidableEq, Repr

/-- The timing wheel of a slice: cursor and the flows in append order with their slot (R352). -/
structure Wheel where
  cursor : Nat := 0
  waiting : List (Nat × Nat) := []
  overflow : List Nat := []
  deriving DecidableEq, Repr

/-! ## Faults (R513 to R529) -/

structure FltEvent where
  tick : DWord
  cycle : Word
  source : BitVec 16
  cls : Nat
  level : Nat
  cause : Byte
  forced : Bool
  escalated : Bool
  absorbed : Bool
  seq : BitVec 16
  domain : Nat
  deriving DecidableEq, Repr

/-- A recovery domain (R526): its level and unit; `source` is the source of the fault that started it. -/
structure Domain where
  level : Nat
  unit : Nat
  source : Nat
  deriving DecidableEq, Repr

structure Flt where
  hist : List FltEvent := []
  seq : BitVec 16 := 0
  first : Option FltEvent := none
  pend : SMap Word := []
  /-- Pair of a source: 1 healthy (0, 1), 2 fault (1, 0), 0 or 3 equal wires (R517, R518). -/
  pairs : SMap Nat := []
  wireLatch : SMap Bool := []
  slots : SMap (Option Domain) := []
  queue : List Domain := []
  /-- Local time until which an injection is in progress (R523). -/
  forceTill : Nat := 0
  /-- Local time of the last power-on, from which CYCLE counts (R519). -/
  poweredAt : Nat := 0
  laserDrift : SMap Nat := []
  swapFrom : SMap (Option Nat) := []
  /-- The swap of a quadrant answers a lost output and no wear (R531). -/
  swapLost : SMap Bool := []
  tileSlow : SMap Nat := []
  retirePending : SMap Bool := []
  /-- Lasers whose missing spare has been recorded (R532): l for drift, 100 + l for a lost output. -/
  noted : SMap Bool := []
  /-- Local times of the PARITY faults of a cipher core (R530). -/
  coreTimes : SMap (List Nat) := []
  /-- Local times of the MEM_CE events of a source (R530). -/
  ceTimes : SMap (List Nat) := []
  deriving DecidableEq, Repr

structure Hbm where
  copying : Option Nat := none
  done : Bool := false
  copyFrom : Nat := 0
  mib : Nat := 0
  /-- When the copy began. -/
  copyAt : Nat := 0
  waiting : List Nat := []
  ce : SMap Nat := []
  ueTimes : List Nat := []
  /-- Pseudo-channels that a fault, and no wear, has put among those to be copied (R530, R531). -/
  faulty : List Nat := []
  deriving DecidableEq, Repr

/-! ## Partitions, translation and windows -/

inductive PartState where
  | absent | idle | active | resetting
  deriving DecidableEq, Repr

structure Range where
  base : Nat := 0
  count : Nat := 0
  deriving DecidableEq, Repr

/-- A partition with the ranges in effect, in units of R498. -/
structure Part where
  state : PartState := .absent
  rings : Range := {}
  qps : Range := {}
  wins : Range := {}
  keys : Range := {}
  weight : Nat := 16
  disabling : Bool := false
  contained : Bool := false
  deriving DecidableEq, Repr

structure Vf where
  bound : Bool := false
  part : Nat := 0
  first : Nat := 0
  count : Nat := 0
  deriving DecidableEq, Repr

/-- Who waits for a translation fault to be resolved (R201): a fetched entry, a stage of a vein, or an engine whose work
the model does not hold. -/
inductive Waiter where
  | entry (ring : Nat) (index : BitVec 16)
  | stage (vein stage : Nat)
  | other
  deriving DecidableEq, Repr

/-- A faulting access that waits without a slot (R199). -/
structure Parked where
  access : Access
  cause : Nat
  waiter : Waiter
  deriving DecidableEq, Repr

/-- A pending-fault slot (R198 to R205). -/
structure FaultSlot where
  isOpen : Bool := false
  part : Nat := 0
  cause : Nat := 0
  access : Nat := 0
  waiters : List Waiter := []
  va : Nat := 0
  openedAt : Nat := 0
  reported : Bool := false
  engine : Nat := 0
  qp : Nat := 0
  deriving DecidableEq, Repr

/-- A cached leaf or pointer entry (R195): partition, first virtual address and size of the page or of what the named table
maps, and the entry's two halves. -/
structure CacheEnt where
  part : Nat
  va : Nat
  size : Nat
  lo : DWord
  hi : DWord
  deriving DecidableEq, Repr

inductive WinState where
  | closed | isOpen | closing
  deriving DecidableEq, Repr

structure Window where
  state : WinState := .closed
  part : Nat := 0
  base : Nat := 0
  len : Nat := 0
  rights : Nat := 0
  scope : Nat := 0
  peerNode : Nat := 0
  peerQp : Nat := 0
  gen : BitVec 12 := 0
  /-- Accepted accesses not yet finished. -/
  inflight : Nat := 0
  /-- Ring and index of the WINDOW_REVOKE that waits for the close. -/
  revoke : Option (Nat × BitVec 16) := none
  /-- Coalescing interval (R219): open until, violations counted, fields of the last one. -/
  coalescing : Bool := false
  coalesceEnd : Nat := 0
  counted : Nat := 0
  last : List Byte := []
  deriving DecidableEq, Repr

/-! ## Rings (R224 to R257) -/

inductive RingState where
  | disabled | enabled | error | stopping
  deriving DecidableEq, Repr

/-- What a fetched entry is doing. -/
inductive Phase where
  | fetched | timed | running | faulted | aborting
  deriving DecidableEq, Repr

/-- A fetched entry that has not completed. -/
structure Fetched where
  index : BitVec 16
  raw : List Byte
  phase : Phase := .fetched
  /-- Progress of a PREFETCH or EVICT in bytes; waiters' fault slot key otherwise. -/
  progress : Nat := 0
  missed : Bool := false
  bytes : Nat := 0
  /-- The entry was outstanding when the PCIe link went down, and completes no more (R108). -/
  lost : Bool := false
  deriving DecidableEq, Repr

/-- A posted receive descriptor (R252). -/
structure Desc where
  index : BitVec 16
  tag : BitVec 16
  va : Nat
  len : Nat
  /-- As `Fetched.lost`, for a descriptor in use. -/
  lost : Bool := false
  deriving DecidableEq, Repr

structure Ring where
  state : RingState := .disabled
  stall : Bool := false
  cfgErr : Bool := false
  tooLong : Bool := false
  producer : BitVec 16 := 0
  consumer : BitVec 16 := 0
  errIndex : BitVec 16 := 0
  errCause : Nat := 0
  errOffset : Nat := 0
  fetched : List Fetched := []
  descs : List Desc := []
  lowArmed : Bool := false
  deriving DecidableEq, Repr

structure Cq where
  enabled : Bool := false
  write : BitVec 16 := 0
  consumer : BitVec 16 := 0
  pending : Nat := 0
  armed : Bool := false
  cfgErr : Bool := false
  badConsumer : Bool := false
  refused : Bool := false
  overflow : Bool := false
  /-- Solicited entries among those not consumed, as write indices (R251). -/
  solicited : List (BitVec 16) := []
  deriving DecidableEq, Repr

/-- Events of a partition: SEQ of the next, and those held while the ring is full (R254, R257). -/
structure Events where
  seq : Word := 0
  held : List (List Byte) := []
  deriving DecidableEq, Repr

/-! ## Queue pairs (R290 to R335, R350) -/

inductive QpState where
  | free | init | connecting | ready | error
  deriving DecidableEq, Repr

/-- A message a queue pair sends: the owning entry, the PSN range it takes and what its packets carry (R285, R286). -/
structure Msg where
  ring : Nat
  index : BitVec 16
  ptype : Nat
  first : BitVec 32
  count : Nat
  len : Nat
  va : Nat := 0
  inline : Option (List Byte) := none
  handle : Word := 0
  notify : Word := 0
  remote : Nat := 0
  opA : DWord := 0
  opB : DWord := 0
  wide : Bool := false
  cas : Bool := false
  solicit : Bool := false
  layer : Word := 0
  deriving DecidableEq, Repr

/-- State of one PSN at or above UNA_PSN at the sender (R315 to R318, R332). -/
structure PsnState where
  sent : Nat := 0
  sentAt : Nat := 0
  resentAt : Nat := 0
  done : Bool := false
  due : Bool := false
  /-- It is due by a NAK_GAP (R318). -/
  nak : Bool := false
  /-- BUSY replies in a row, the local time of the first, and the BUSY_LIMIT of the time in ns (R332, R345). -/
  busy : Nat := 0
  busyAt : Nat := 0
  busyFor : Nat := 0
  busyUntil : Nat := 0
  busyWait : Bool := false
  busyDetail : Nat := 0
  deriving DecidableEq, Repr

/-- A response that the responder still has to send (R325), or the response of an atomic. -/
structure Resp where
  psn : BitVec 32
  offset : Nat
  len : Nat
  msgLen : Nat
  /-- Where the bytes lie in the local space, and the window that admitted the read. -/
  phys : List (Nat × Nat)
  win : Nat
  /-- An ATOMIC_RESP with its ORIGINAL. -/
  original : Option DWord := none
  deriving DecidableEq, Repr

/-- A message being received (R322, R323). -/
structure RxMsg where
  first : BitVec 32
  count : Nat
  len : Nat
  placed : Nat := 0
  /-- PTYPE: 2 WRITE_NOTIFY, 5 SEND. -/
  ptype : Nat
  value : Word := 0
  solicit : Bool := false
  desc : Option Desc := none
  ring : Nat := 0
  status : Nat := 0
  detail : Word := 0
  /-- BYTES of the completion: the message, or the output that a vein makes of it (R456). -/
  bytes : Nat := 0
  deriving DecidableEq, Repr

/-- A packet accepted and not yet placed (R311). -/
structure Placement where
  psn : BitVec 32
  ptype : Nat
  /-- First PSN of the message. -/
  first : BitVec 32
  bytes : List Byte
  part : Nat
  va : Nat
  /-- Pieces of the local space the bytes go to, as translated at acceptance. -/
  phys : List (Nat × Nat)
  win : Option Nat := none
  ackReq : Bool := false
  /-- Local time at which the packet arrived. -/
  since : Nat := 0
  deriving DecidableEq, Repr

/-- An atomic on host memory that waits for its completion (R330): the bus address, size, operation and operands. -/
structure HostAtomic where
  psn : BitVec 32
  addr : Nat
  wide : Bool
  cas : Bool
  opA : DWord
  opB : DWord
  win : Nat
  /-- Local time at which the request arrived. -/
  since : Nat := 0
  deriving DecidableEq, Repr

structure Qp where
  state : QpState := .free
  isSealed : Bool := false
  fabric : Bool := false
  ipv6 : Bool := false
  pin : Bool := false
  tc : Nat := 0
  part : Nat := 0
  peerNode : Nat := 0
  peerQp : Nat := 0
  peerInc : BitVec 16 := 0
  version : Nat := 0
  home : Nat := 0
  offerPayload : Nat := 0
  payload : Nat := 0
  entropy : Nat := 0
  cq : Nat := 0
  srq : Nat := 65535
  offerWindow : Nat := 0
  window : Nat := 0
  txKey : Nat := 0
  rxKey : Nat := 0
  peerRxKey : Nat := 0
  offerCaps : DWord := 0
  caps : DWord := 0
  initPsn : BitVec 32 := 0
  peerInitPsn : BitVec 32 := 0
  /-- Next PSN to send for the first time, and one past the last PSN given to a message. -/
  sendPsn : BitVec 32 := 0
  tailPsn : BitVec 32 := 0
  unaPsn : BitVec 32 := 0
  recvPsn : BitVec 32 := 0
  peerMac : BitVec 48 := 0
  localIp : List Byte := []
  peerIp : List Byte := []
  lastStatus : Nat := 0
  retries : Nat := 0
  /-- The node was fenced while the context was evicted: the EPOCH with which it ends when next fetched (R342). -/
  fenceDue : Option Word := none
  resident : Bool := false
  usedAt : Nat := 0
  /-- Sender. -/
  msgs : List Msg := []
  psns : SMap PsnState := []
  sentSince : Nat := 0
  /-- The next packet waits for a translation fault to be resolved (R201). -/
  stalled : Bool := false
  timerOn : Bool := false
  timerAt : Nat := 0
  /-- What is left of the timer while a BUSY suspends it (R332). -/
  timerLeft : Option Nat := none
  backoff : Nat := 0
  srtt : Nat := 0
  rttvar : Nat := 0
  connAt : Nat := 0
  /-- Receiver: PSNs received above RECV_PSN, each with the local time at which REORDER_NS from its placement ends (R310, R313). -/
  got : List (BitVec 32 × Nat) := []
  rxMsgs : List RxMsg := []
  places : List Placement := []
  resps : List Resp := []
  atomics : List (BitVec 32 × DWord) := []
  hostAtomics : List HostAtomic := []
  /-- New packets placed and not acknowledged, the local time of the first, and the ACK_DELAY in ns and ACK_COUNT of that time
  (R312, R345). -/
  ackCount : Nat := 0
  ackSince : Nat := 0
  ackFor : Nat := 0
  ackNeed : Nat := 0
  ceCount : Nat := 0
  trigger : BitVec 32 := 0
  triggerAt : Nat := 0
  /-- A NAK_GAP has been sent for the present gap, and the local time before which it is not sent again (R313). -/
  gapOn : Bool := false
  gapAt : Nat := 0
  /-- Pacing (R350). Rates in Mb/s; alpha in units of 2^-64. -/
  rateD : Nat := 0
  rateE : Nat := 0
  alpha : Nat := 0
  base : Nat := 0
  basePrev : Option Nat := none
  baseCur : Option Nat := none
  epochAt : Nat := 0
  lastD : Nat := 0
  lastE : Nat := 0
  lastQuiet : Nat := 0
  deriving DecidableEq, Repr

/-- A received GXT packet on its way through R288: the port and CE mark, the GXT bytes as sent, the payload in clear. -/
structure RxPkt where
  port : Nat
  ce : Bool := false
  raw : List Byte
  payload : List Byte
  since : Nat := 0
  wire : Nat := 0
  /-- The fabric port and frame it came by, by whose addresses a reply to a sender without a context goes back. -/
  back : Option (Nat × Frame) := none
  deriving DecidableEq, Repr

/-- Status of a command register pair: BUSY, LAST_CMD, RESULT, field offset (R307, R497, R512). -/
structure CmdStat where
  busy : Bool := false
  last : Nat := 0
  result : Nat := 0
  fieldOff : Nat := 255
  /-- The unit the running command acts on, and whether it has acted and only waits for an entry of its slice (R298). -/
  target : Nat := 0
  acted : Bool := false
  deriving DecidableEq, Repr

/-- A fence record (R337). -/
structure FenceRec where
  valid : Bool := false
  inc : BitVec 16 := 0
  epoch : Word := 0
  here : Bool := false
  deriving DecidableEq, Repr

/-- A management request or kept response: REQ_ID, its sender, and the bytes (R283, R284). -/
structure Mgmt where
  reqId : Word
  node : Nat
  qp : Nat
  op : Nat
  count : Nat
  address : Nat
  data : List Byte := []
  status : Nat := 0
  /-- The fabric port and frame of the request, by whose addresses the answer goes back. -/
  back : Option (Nat × Frame) := none
  deriving DecidableEq, Repr

structure Xpt where
  /-- Command status per function (0 the physical function, 1 + v a virtual function). -/
  cmds : SMap CmdStat := []
  /-- Parked packets of each slice in arrival order with their queue pair (R301, R302, R455). -/
  miss : SMap (List (Nat × RxPkt)) := []
  /-- Queue pairs whose context is being fetched, and those being written back. -/
  fetching : List Nat := []
  writeback : List Nat := []
  /-- Write-backs whose eviction a use has cancelled, and which still complete (R300). -/
  cancelled : List Nat := []
  /-- Queue pairs being destroyed. -/
  destroying : List Nat := []
  mgmtQueue : List Mgmt := []
  mgmtKept : List Mgmt := []
  fences : SMap FenceRec := []
  fenceEpoch : Word := 0
  /-- Context banks of each slice that are lost (R532). -/
  banksLost : SMap Nat := []
  fencedAt : SMap (Option Nat) := []
  deriving DecidableEq, Repr

/-! ## Staging queues, collectives and veins -/

/-- Where the output of a steered unit goes (R454, R456): its queue pair, the first PSN of its message, its input bytes,
the pieces of the local space as translated at acceptance, and its window. -/
structure Steered where
  qp : Nat
  first : BitVec 32
  len : Nat
  phys : List (Nat × Nat)
  win : Nat
  deriving DecidableEq, Repr

/-- One unit or chunk in a staging queue: its bytes, the entries it takes, its index in its run, message or chunk, the
producer that wrote it, and the error its unit has met. -/
structure Item where
  bytes : List Byte
  cells : Nat := 1
  index : Nat := 0
  producer : Nat := 0
  err : Nat := 0
  steered : Option Steered := none
  deriving DecidableEq, Repr

/-- A staging queue (R259): the four indices and the entries not yet released, oldest first. -/
structure Stg where
  wr : BitVec 16 := 0
  rd : BitVec 16 := 0
  mark : BitVec 16 := 0
  rl : BitVec 16 := 0
  items : List Item := []
  /-- Entries in use by each producer, against its credits (R260). -/
  used : SMap Nat := []
  deriving DecidableEq, Repr

/-- The exact accumulator of one element and its flags (R409, R410). -/
structure Acc where
  sum : Int := 0
  nan : Bool := false
  posInf : Bool := false
  negInf : Bool := false
  allNegZero : Bool := true
  deriving DecidableEq, Repr

/-- A chunk this member produces (R417 to R421). -/
structure Prod where
  chunk : Nat
  added : List Nat := []
  acc : List Acc := []
  result : Option (List Byte) := none
  released : List Nat := []
  sends : Nat := 0
  sentAt : Nat := 0
  deriving DecidableEq, Repr

/-- An addend or data chunk this member sends to a producer or receiver and that is not yet acknowledged, with RESEND_LIMIT and
RESEND_US as they stood at its last send (R440). -/
structure Sending where
  chunk : Nat
  dest : Nat
  code : Nat
  sends : Nat := 0
  resendAt : Nat := 0
  limit : Nat := 64
  period : Nat := 50000
  deriving DecidableEq, Repr

/-- A closing-exchange note (R435). -/
structure Note where
  cause : Nat := 0
  delivered : Bool := false
  epoch : Word := 0
  revision : Word := 0
  chunk : Nat := 0
  bitmap : List Byte := []
  deriving DecidableEq, Repr

inductive CollState where
  | waiting | active | closing | finished
  deriving DecidableEq, Repr

/-- A collective this member takes part in. -/
structure Coll where
  comm : Nat
  ident : DWord
  ring : Nat
  index : BitVec 16
  raw : List Byte
  part : Nat
  engine : Nat
  slot : Nat := 0
  state : CollState := .waiting
  rank : Nat
  /-- Node of each rank. -/
  nodes : List Nat
  sig : Word
  toSend : List (Nat × Nat) := []
  sending : List Sending := []
  prods : List Prod := []
  placed : List Nat := []
  bytes : Nat := 0
  saturated : Bool := false
  nanOut : Bool := false
  infOut : Bool := false
  overflow : Bool := false
  reason : Nat := 0
  note : Note := {}
  /-- The first note has been sent (R437). -/
  noteSent : Bool := false
  notes : SMap (Option Note) := []
  /-- Melquin path: contributions held by rank, whether a result has been formed, and when the next resend is due. -/
  contrib : SMap (List Byte) := []
  haveRank : List Nat := []
  ringRanks : List Nat := []
  mqResult : Option (List Byte) := none
  mqAt : Nat := 0
  /-- DISPATCH and COMBINE: the route descriptor, the route entries as (row, rank), the count table (R425 to R427). -/
  desc : List Byte := []
  entries : List (Nat × Nat) := []
  table : List Nat := []
  deriving DecidableEq, Repr

/-- A kept LATE notice (R390), or the final note and Melquin-path result of a finished collective (R432, R436). -/
structure Kept where
  comm : Nat
  ident : DWord
  engine : Nat := 0
  node : Nat := 0
  note : Note := {}
  late : Bool := false
  /-- The note answers an MQ_CLOSE: the collective completed MEMBER_FENCED, POISONED or LATE (R436, R438). -/
  answers : Bool := false
  result : Option (List Byte) := none
  deriving DecidableEq, Repr

structure Col where
  colls : List Coll := []
  kept : List Kept := []
  /-- Melquin packets held in the buffers of a quadrant for collectives not yet started (R432). -/
  early : List (Nat × List Byte) := []
  deriving DecidableEq, Repr

inductive VeinState where
  | absent | unloaded | ready | failed
  deriving DecidableEq, Repr

/-- A VEIN_RUN waiting for or using a vein (R459, R475). -/
structure VRun where
  ring : Nat
  index : BitVec 16
  src : Nat
  srcLen : Nat
  dst : Nat
  dstLen : Nat
  arg : DWord
  tag : BitVec 16
  part : Nat
  /-- Input bytes given to stage 0, output bytes written, units finished by the last stage. -/
  fed : Nat := 0
  wrote : Nat := 0
  status : Nat := 0
  detail : Word := 0
  stopped : Bool := false
  deriving DecidableEq, Repr

/-- An access of a vein through a remote leaf (R194): the place in the vein it serves (stage, 12 for the input and 13 for
the output of a run), the first virtual address, its bytes, and the status it ended with. -/
structure RemoteAcc where
  slot : Nat
  va : Nat
  bytes : List Byte
  ended : Option Nat := none
  deriving DecidableEq, Repr

structure Vein where
  state : VeinState := .absent
  runs : List VRun := []
  err0 : Word := 0
  err1 : Word := 0
  errArmed : Bool := true
  saturated : Bool := false
  nanOut : Bool := false
  infOut : Bool := false
  /-- Resident weights of a stage, and the banks loaded for a staged job (R58, R79). -/
  weights : SMap (List Byte) := []
  staged : SMap (List Byte) := []
  /-- Units a REDUCE stage has collected; query rows an ATTENTION stage has still to emit. -/
  gather : SMap (List (List Byte)) := []
  /-- Units each stage has taken in the present run. -/
  taken : SMap Nat := []
  /-- Accesses through remote leaves that the present units have made. -/
  remote : List RemoteAcc := []
  deriving DecidableEq, Repr

/-! ## Cipher (R479 to R497) -/

structure KeyPhase where
  loaded : Bool := false
  key : BitVec 256 := 0
  salt : BitVec 32 := 0
  count : Nat := 0
  deriving DecidableEq, Repr

structure KeySlot where
  /-- 0 empty, 1 SEAL, 2 OPEN. -/
  use : Nat := 0
  m410 : Bool := false
  active : Option Bool := none
  p0 : KeyPhase := {}
  p1 : KeyPhase := {}
  deriving DecidableEq, Repr

/-- A request in the cipher scheduler (R490): the core and its work in cycles, the group whose order it keeps (a
transmitting port, or 48 and a receiving slice), the key it started with, and the packet it seals or opens. -/
structure CipReq where
  core : Nat
  work : Nat
  group : Nat
  sealing : Option Head := none
  opening : Option RxPkt := none
  aad : List Byte := []
  text : List Byte := []
  nonce : List Byte := []
  key : BitVec 256 := 0
  finished : Bool := false
  lost : Bool := false
  deriving DecidableEq, Repr

structure Cip where
  cmds : SMap CmdStat := []
  reqs : List CipReq := []
  deriving DecidableEq, Repr

/-! ## Observation (R544 to R559) -/

/-- Traffic counters of a partition (R559). -/
structure PcCount where
  txPkts : DWord := 0
  rxPkts : DWord := 0
  txBytes : DWord := 0
  rxBytes : DWord := 0
  deriving DecidableEq, Repr

structure Obs where
  cycle : DWord := 0
  trace : List (List Byte) := []
  fseq : BitVec 16 := 0
  lostSince : Nat := 0
  smpSeq : Word := 0
  /-- Trace cycle of the last sample of each sampler: 0 the global one, 1 + p a partition's. -/
  smpAt : SMap Nat := []
  /-- How many cycles of its domain after that sample the boundary of a set fell (R550): key 512 * sampler + set. -/
  edges : SMap Nat := []
  partSeq : SMap Word := []
  counts : SMap PcCount := []
  syncAt : Nat := 0
  deriving DecidableEq, Repr

/-- What the block answered to the last bus access: read data, and whether I3C was refused (log 9). -/
structure Bus where
  data : Word := 0
  wide : List Byte := []
  nack : Bool := false
  deriving DecidableEq, Repr

/-- A snapshot (R35) or a held _LO write (R37) of one agent. -/
structure Hold where
  owner : Nat := 0
  value : Option DWord := none
  deriving DecidableEq, Repr

/-- What a command on the data path asks the control side to do; `settle` does it before the command ends. -/
inductive Effect where
  /-- A source drives its fault pair to (1, 0) with a cause (R517), for a partition when it has one. -/
  | fault (source : Nat) (cause : Nat) (part : Option Nat)
  /-- A parity error in an adder or accumulator of a collective engine, of class REPORT (R434, R514). -/
  | adderParity (engine part : Nat)
  /-- The device enters QUARANTINE (R343). -/
  | quarantine
  /-- A queue pair being destroyed has nothing left to drain (R293, R308). -/
  | qpDrained (qp : Nat)
  /-- A class-7 packet of a queue pair could not be sealed (R489). -/
  | keyless (qp : Nat)
  /-- An MQ_READY or MQ_ABORT has arrived (R565). -/
  | ready (n : ReadyNote)
  | abort (member : Nat) (tick : DWord)
  /-- A time exchange has completed on a port with its four stamps (R373). -/
  | exchange (port : Nat) (t1 t2 t3 t4 : DWord)
  /-- A PTP message for the time block has arrived (R384). -/
  | ptp (m : Ptp)
  /-- A Delay_Req has left with its departure stamp (R384). -/
  | delayReq (seq : BitVec 16) (t3 : DWord)
  deriving DecidableEq, Repr

/-- The control side: everything that only the management, boot, ownership, time and fault rules change. -/
structure Ctl where
  /-- Local time in nanoseconds (log 2). -/
  ns : Nat := 0
  dev : Dev := {}
  own : Own := {}
  flash : Flash := {}
  /-- Values in effect of the held registers of R178, by address. -/
  inEffect : SMap Word := []
  /-- Snapshots by agent and quantity, held _LO writes by quantity (R35 to R37). -/
  snaps : SMap Hold := []
  held : SMap Hold := []
  lat : Lat := {}
  image : Option Image := none
  lod : Lod := {}
  flt : Flt := {}
  hbm : SMap Hbm := []
  deriving DecidableEq, Repr

/-- A range of host memory by bus address: with a function (0 the physical one, 1 + v a virtual one), pages that the host's
IOMMU does not grant to that requester ID (R186); without one, bytes whose reads the host answers with an error. -/
structure HostDeny where
  addr : Nat
  len : Nat
  fn : Option Nat := none
  deriving DecidableEq, Repr

/-- The data side: registers, memories, ports, rings, queue pairs, engines. -/
structure Plane where
  /-- Index of the next free value (log 6). -/
  seq : Nat := 0
  /-- Every plain RW, W1C and RC register and every snapshot word, by address (R12); Regs.lean gives their reset. -/
  regs : SMap Word := []
  bus : Bus := {}
  ports : SMap Port := []
  flows : SMap Flow := []
  wheels : SMap Wheel := []
  parts : SMap Part := []
  vfs : SMap Vf := []
  /-- PAR_CMD_STATUS; `target` is the partition the running command resets (R512). -/
  par : CmdStat := {}
  /-- Stacked memory and near store by local address (R184), host memory by bus address (R186). -/
  mem : Mem := []
  host : Mem := []
  /-- Ranges of host memory that the host does not serve to every function (R186, log 4). -/
  hostBad : List HostDeny := []
  /-- The partition that owns a port's traffic (R182); `none` while nothing names one (log 137). -/
  portPart : SMap (Option Nat) := []
  /-- 64-byte lines of stacked memory that read as uncorrectable. -/
  poison : List Nat := []
  faults : SMap FaultSlot := []
  /-- Accesses that wait for a free slot (R199), oldest first. -/
  slotless : List Parked := []
  /-- Cached leaves by translation cache: slice q of a packet engine and collective engine q at q, the DMA engine of logical
  tile t at 4 + t; and the cached pointer entries of each slice (R195). -/
  cache : SMap (List CacheEnt) := []
  pointers : SMap (List CacheEnt) := []
  wins : SMap Window := []
  rings : SMap Ring := []
  cqs : SMap Cq := []
  events : SMap Events := []
  qps : SMap Qp := []
  xpt : Xpt := {}
  stg : SMap Stg := []
  col : Col := {}
  veins : SMap Vein := []
  /-- Stage that the sequencer of each logical tile served last: 1 + 12 * vein + stage, 0 for none (R446). -/
  turns : SMap Nat := []
  keys : SMap KeySlot := []
  cip : Cip := {}
  obs : Obs := {}
  /-- Frames that have started on each port, MSI-X messages (function, vector) sent, observation frames sent;
  newest first (log 9). -/
  wire : List (Nat × Frame) := []
  msix : List (Nat × Nat) := []
  obsOut : List (List Byte) := []
  /-- Effects the present command has raised, oldest first; empty between commands. -/
  effects : List Effect := []
  deriving DecidableEq, Repr

/-- The K920. -/
structure State where
  /-- The commands that wait, first in, first out. -/
  pending : List Instr := []
  ctl : Ctl := {}
  pl : Plane := {}
  deriving DecidableEq, Repr

/-- Faults of the model. No command of the K920 ends in one: the device's own faults are recorded by its collector in a
next state (R513 to R529). The type is kept for the interface. -/
inductive Fault where
  /-- Raised by no meaning; safe. -/
  | none
  deriving DecidableEq, Repr

/-- Refusals of the model. -/
inductive Refusal where
  /-- Answered by `exec` only, for a command that has no meaning yet; safe: the run stops. -/
  | notModelled (mnemonic : String)
  deriving DecidableEq, Repr

/-- The K920 right after reset (log 1): every register at its Reset column, Kept values as after power-on, the device
state BOOT with the reset not yet completed, no image applied. -/
def State.reset : State := {}

end Sys2Proof.Machine
end

