-- ==== Sys2Proof/Machine/Ops.lean ====
section
/-! DEFINITION. The named operations that every meaning uses: sparse tables, memory and byte order (R2, R3), free
values, and the lifts that apply a function to one part of the state. -/
namespace Sys2Proof.Machine

/-- What a sparse table holds at a key: the listed value, or `d`, what an unlisted key holds. -/
def SMap.find {α : Type} (d : α) : SMap α → Nat → α
  | [], _ => d
  | (a, v) :: m, k => if k = a then v else SMap.find d m k

/-- Write one key of a sparse table, keeping the canonical form: writing `d` unlists the key. -/
def SMap.put {α : Type} [DecidableEq α] (d : α) : SMap α → Nat → α → SMap α
  | [], k, v => if v = d then [] else [(k, v)]
  | (a, w) :: m, k, v =>
    if v = d then (if k = a then SMap.put d m k v else (a, w) :: SMap.put d m k v)
    else if k < a then (k, v) :: (a, w) :: m
    else if k = a then (k, v) :: m
    else (a, w) :: SMap.put d m k v

/-- The canonical form of a sparse table whose keys are at least `lo`: keys strictly rising, no value equal to `d`. -/
def SMap.wfFrom {α : Type} [DecidableEq α] (d : α) (lo : Nat) : SMap α → Bool
  | [] => true
  | (a, v) :: m => decide (lo ≤ a) && !decide (v = d) && SMap.wfFrom d (a + 1) m

/-- The canonical form of a sparse table. -/
def SMap.wf {α : Type} [DecidableEq α] (d : α) (m : SMap α) : Bool := SMap.wfFrom d 0 m

/-! ### Memory -/

/-- What a byte of memory that nothing has written reads as (log 4). -/
def Memory.unlisted : Byte := 0

/-- The canonical form of a memory. -/
def Memory.wf (m : Mem) : Bool := SMap.wf Memory.unlisted m

/-- One byte of memory. -/
def Mem.read (m : Mem) (a : Nat) : Byte := SMap.find Memory.unlisted m a

/-- One byte of memory written. -/
def Mem.write (m : Mem) (a : Nat) (b : Byte) : Mem := SMap.put Memory.unlisted m a b

/-- `n` bytes from address `a`. -/
def Mem.readN (m : Mem) (a : Nat) : Nat → List Byte
  | 0 => []
  | n + 1 => Mem.read m a :: Mem.readN m (a + 1) n

/-- Bytes written from address `a` up. -/
def Mem.writeN (m : Mem) (a : Nat) : List Byte → Mem
  | [] => m
  | b :: bs => Mem.writeN (Mem.write m a b) (a + 1) bs

/-! ### Byte order -/

/-- A little-endian number (R2). -/
def leNat : List Byte → Nat
  | [] => 0
  | b :: bs => b.toNat + 256 * leNat bs

/-- A big-endian number (R3). -/
def beNat (bs : List Byte) : Nat := leNat bs.reverse

/-- `n` bytes of a number, least significant first (R2). -/
def leBytes : Nat → Nat → List Byte
  | 0, _ => []
  | n + 1, v => BitVec.ofNat 8 v :: leBytes n (v / 256)

/-- `n` bytes of a number, most significant first (R3). -/
def beBytes (n v : Nat) : List Byte := (leBytes n v).reverse

/-- The `n` bytes from offset `o` of a byte list, as many as there are. -/
def slice (bs : List Byte) (o n : Nat) : List Byte := (bs.drop o).take n

/-- Little-endian field of `n` bytes at offset `o`. -/
def getLe (bs : List Byte) (o n : Nat) : Nat := leNat (slice bs o n)

/-- Big-endian field of `n` bytes at offset `o`. -/
def getBe (bs : List Byte) (o n : Nat) : Nat := beNat (slice bs o n)

/-- One byte of a byte list; 0 beyond its end. -/
def getByte (bs : List Byte) (o : Nat) : Nat := ((bs.drop o).head?.getD 0).toNat

/-- Bits `[hi:lo]` of a number. -/
def nbits (n hi lo : Nat) : Nat := (n / 2 ^ lo) % 2 ^ (hi + 1 - lo)

/-- Bit `i` of a number, as a truth. -/
def nbit (n i : Nat) : Bool := n.testBit i

/-- 1 for true. -/
def b2n (b : Bool) : Nat := if b then 1 else 0

/-- A byte list cut or filled with zeros to `n` bytes. -/
def fitTo (n : Nat) (bs : List Byte) : List Byte := bs.take n ++ List.replicate (n - bs.length) 0

/-- Whether every byte is zero. -/
def allZero (bs : List Byte) : Bool := bs.all (· == 0)

/-- A byte list cut into pieces of `n` bytes, the last one shorter; `fuel` bounds the number of pieces. -/
def chunksOf (n : Nat) : Nat → List Byte → List (List Byte)
  | 0, _ => []
  | fuel + 1, bs => if bs.isEmpty then [] else bs.take n :: chunksOf n fuel (bs.drop n)

/-- A list with every value that appears once only. -/
def nodup (l : List Nat) : Bool := l.eraseDups.length == l.length

/-- Replace element `i` of a list by `f` of it. -/
def modAt {α : Type} (l : List α) (i : Nat) (f : α → α) : List α :=
  match l, i with
  | [], _ => []
  | a :: l, 0 => f a :: l
  | a :: l, i + 1 => a :: modAt l i f

/-- Replace the first element that satisfies `p` by `f` of it. -/
def modFirst {α : Type} (p : α → Bool) (f : α → α) : List α → List α
  | [] => []
  | a :: l => if p a then f a :: l else a :: modFirst p f l

/-- Take the first element that satisfies `p` out of a list. -/
def takeFirst {α : Type} (p : α → Bool) : List α → Option (α × List α)
  | [] => none
  | a :: l => if p a then some (a, l) else (takeFirst p l).map fun (b, r) => (b, a :: r)

/-! ### Lifts: a function applied to one part of the state -/

def onPlane (f : Ctl → Plane → Plane) (s : State) : State := { s with pl := f s.ctl s.pl }
def onCtl (f : Ctl → Ctl) (s : State) : State := { s with ctl := f s.ctl }
def onOwn (f : Own → Own) (s : State) : State := { s with ctl := { s.ctl with own := f s.ctl.own } }
def onDev (f : Dev → Dev) (s : State) : State := { s with ctl := { s.ctl with dev := f s.ctl.dev } }
def onFlash (f : Flash → Flash) (s : State) : State := { s with ctl := { s.ctl with flash := f s.ctl.flash } }
def onLat (f : Lat → Lat) (s : State) : State := { s with ctl := { s.ctl with lat := f s.ctl.lat } }
def onLod (f : Lod → Lod) (s : State) : State := { s with ctl := { s.ctl with lod := f s.ctl.lod } }
def onFlt (f : Flt → Flt) (s : State) : State := { s with ctl := { s.ctl with flt := f s.ctl.flt } }

/-! ### Tables of the data side, with what an unlisted key holds -/

def Plane.port (d : Plane) (n : Nat) : Port := SMap.find {} d.ports n
def Plane.setPort (d : Plane) (n : Nat) (v : Port) : Plane := { d with ports := SMap.put {} d.ports n v }
def Plane.onPort (d : Plane) (n : Nat) (f : Port → Port) : Plane := d.setPort n (f (d.port n))
/-- Every port changed by one function. -/
def Plane.eachPort (d : Plane) (f : Port → Port) : Plane := (List.range 48).foldl (fun d n => d.onPort n f) d
def Plane.flow (d : Plane) (k : Nat) : Flow := SMap.find {} d.flows k
def Plane.setFlow (d : Plane) (k : Nat) (v : Flow) : Plane := { d with flows := SMap.put {} d.flows k v }
def Plane.wheel (d : Plane) (q : Nat) : Wheel := SMap.find {} d.wheels q
def Plane.setWheel (d : Plane) (q : Nat) (v : Wheel) : Plane := { d with wheels := SMap.put {} d.wheels q v }
def Plane.part (d : Plane) (p : Nat) : Part := SMap.find {} d.parts p
def Plane.setPart (d : Plane) (p : Nat) (v : Part) : Plane := { d with parts := SMap.put {} d.parts p v }
def Plane.vf (d : Plane) (v : Nat) : Vf := SMap.find {} d.vfs v
def Plane.setVf (d : Plane) (v : Nat) (x : Vf) : Plane := { d with vfs := SMap.put {} d.vfs v x }
def Plane.slot (d : Plane) (k : Nat) : FaultSlot := SMap.find {} d.faults k
def Plane.setSlot (d : Plane) (k : Nat) (v : FaultSlot) : Plane := { d with faults := SMap.put {} d.faults k v }
def Plane.win (d : Plane) (w : Nat) : Window := SMap.find {} d.wins w
def Plane.setWin (d : Plane) (w : Nat) (v : Window) : Plane := { d with wins := SMap.put {} d.wins w v }
def Plane.ring (d : Plane) (k : Nat) : Ring := SMap.find {} d.rings k
def Plane.setRing (d : Plane) (k : Nat) (v : Ring) : Plane := { d with rings := SMap.put {} d.rings k v }
def Plane.onRing (d : Plane) (k : Nat) (f : Ring → Ring) : Plane := d.setRing k (f (d.ring k))
def Plane.cq (d : Plane) (c : Nat) : Cq := SMap.find {} d.cqs c
def Plane.setCq (d : Plane) (c : Nat) (v : Cq) : Plane := { d with cqs := SMap.put {} d.cqs c v }
def Plane.onCq (d : Plane) (c : Nat) (f : Cq → Cq) : Plane := d.setCq c (f (d.cq c))
def Plane.event (d : Plane) (p : Nat) : Events := SMap.find {} d.events p
def Plane.setEvent (d : Plane) (p : Nat) (v : Events) : Plane := { d with events := SMap.put {} d.events p v }
def Plane.qp (d : Plane) (q : Nat) : Qp := SMap.find {} d.qps q
def Plane.setQp (d : Plane) (q : Nat) (v : Qp) : Plane := { d with qps := SMap.put {} d.qps q v }
def Plane.onQp (d : Plane) (q : Nat) (f : Qp → Qp) : Plane := d.setQp q (f (d.qp q))
def Plane.queue (d : Plane) (k : Nat) : Stg := SMap.find {} d.stg k
def Plane.setQueue (d : Plane) (k : Nat) (v : Stg) : Plane := { d with stg := SMap.put {} d.stg k v }
def Plane.vein (d : Plane) (v : Nat) : Vein := SMap.find {} d.veins v
def Plane.setVein (d : Plane) (v : Nat) (x : Vein) : Plane := { d with veins := SMap.put {} d.veins v x }
def Plane.onVein (d : Plane) (v : Nat) (f : Vein → Vein) : Plane := d.setVein v (f (d.vein v))
def Plane.key (d : Plane) (k : Nat) : KeySlot := SMap.find {} d.keys k
def Plane.setKey (d : Plane) (k : Nat) (v : KeySlot) : Plane := { d with keys := SMap.put {} d.keys k v }

/-- The next free value (log 6): its bits, and the state in which the next one has its own index. -/
def Plane.draw (d : Plane) : DWord × Plane := (Config.freeValue d.seq, { d with seq := d.seq + 1 })

/-- `n` free bytes. -/
def Plane.drawBytes (d : Plane) : Nat → List Byte × Plane
  | 0 => ([], d)
  | n + 1 =>
    let r := d.draw
    let rest := Plane.drawBytes r.2 n
    (r.1.setWidth 8 :: rest.1, rest.2)

/-- Ask the control side to record a fault of a source (R517). -/
def Plane.raise (d : Plane) (source cause : Nat) (part : Option Nat := none) : Plane :=
  { d with effects := d.effects ++ [Effect.fault source cause part] }

end Sys2Proof.Machine
end

