-- ==== Sys2Proof/Machine/Queues.lean ====
section
/-! DEFINITION. Staging queues (R258 to R261): the four indices, credits, and the operations of R259. -/
namespace Sys2Proof.Machine

/-- The queue of stage `s` of vein `v` and inputs of engine `q` (R258). -/
def veinQueue (v s : Nat) : Nat := 12 * v + s
def engineQueue (q j : Nat) : Nat := 768 + 64 * q + j

/-- Entries of a queue, its producers, and the bytes of an entry (R258, R448); collective queues are shaped by slot
(R414). -/
def queueCells (k : Nat) : Nat := if k < 768 then 64 else if (k - 768) % 64 < 8 then 64 else 256
def queueProducers (k : Nat) : Nat := if k < 768 then 1 else if (k - 768) % 64 < 8 then 2 else 1
def cellBytes (k : Nat) : Nat := if k < 768 then 8192 else 4096

/-- Credits that each producer starts with (R260). -/
def queueCredits (k : Nat) : Nat := queueCells k / queueProducers k

/-- Entries that an item of `n` bytes takes (R448). -/
def cellsOf (k n : Nat) : Nat := max 1 (ceilDiv n (cellBytes k))

/-- READY, HELD (R261). -/
def Stg.ready (q : Stg) : Nat := (q.wr - q.rd).toNat
def Stg.heldCells (q : Stg) : Nat := (q.rd - q.rl).toNat

/-- Credits that a producer holds now (R260). -/
def creditOf (k : Nat) (q : Stg) (producer : Nat) : Nat := queueCredits k - SMap.find 0 q.used producer

/-- Write an item, taking its producer's credits; `none` without them (R259, R260). -/
def stgWrite (k : Nat) (q : Stg) (x : Item) : Option Stg :=
  if creditOf k q x.producer < x.cells then none
  else some { q with
    wr := q.wr + BitVec.ofNat 16 x.cells, items := q.items ++ [x]
    used := SMap.put 0 q.used x.producer (SMap.find 0 q.used x.producer + x.cells) }

/-- The items of a list after its first `n` entries. -/
def afterCells : Nat → List Item → List Item
  | _, [] => []
  | n, x :: xs => if n = 0 then x :: xs else afterCells (n - x.cells) xs

/-- Read the next item (R259). -/
def stgRead (q : Stg) : Option (Item × Stg) :=
  if q.rd = q.wr then none
  else match afterCells q.heldCells q.items with
    | [] => none
    | x :: _ => some (x, { q with rd := q.rd + BitVec.ofNat 16 x.cells })

/-- The next item, without reading it. -/
def stgPeek (q : Stg) : Option Item := (stgRead q).map (·.1)

/-- Mark and rewind (R259). -/
def stgMark (q : Stg) : Stg := { q with mark := q.rd }
def stgRewind (q : Stg) : Stg := { q with rd := q.mark }

/-- Release the oldest item, returning its credits; at most what has been read (R259). -/
def stgRelease (q : Stg) : Stg :=
  match q.items with
  | [] => q
  | x :: xs =>
    if q.heldCells < x.cells then q
    else
      let rl := q.rl + BitVec.ofNat 16 x.cells
      { q with
        rl := rl, items := xs
        mark := if (q.mark - q.rl).toNat < x.cells then rl else q.mark
        used := SMap.put 0 q.used x.producer (SMap.find 0 q.used x.producer - x.cells) }

/-- An emptied queue: everything read and released, its indices running on. -/
def stgDrain (q : Stg) : Stg := { q with rd := q.wr, mark := q.wr, rl := q.wr, items := [], used := [] }

/-- VEN_STG_q_COUNT (R261). -/
def stgCount (q : Stg) : Word := field q.ready 16 0 ||| field q.heldCells 16 16

end Sys2Proof.Machine
end

