-- ==== Sys2Proof/Machine/Crypto.lean ====
section
/-! DEFINITION. The published algorithms the spec names: CRC-8 (R161), CRC-32C (R428), SHA-256 and SHA-384 (FIPS 180-4),
HMAC-SHA-256 (FIPS 198-1, R113), AES-256 and GCM (FIPS 197, SP 800-38D, R480) and ECDSA over P-384 (FIPS 186-5, R60). The
spec names them and gives no constants: the constants are the standards' (PRESUMED, log 12). -/
namespace Sys2Proof.Machine

/-! ### CRC -/

/-- One byte of the CRC-8 with polynomial 0x07 (R161). -/
def crc8Step (crc : Byte) (b : Byte) : Byte :=
  (List.range 8).foldl (fun v _ => if v.getLsbD 7 then (v <<< 1) ^^^ 0x07 else v <<< 1) (crc ^^^ b)

/-- CRC-8 with polynomial 0x07 and initial value 0 (R161). -/
def crc8 (bs : List Byte) : Byte := bs.foldl crc8Step 0

/-- One byte of CRC-32C, reflected polynomial 0x82F63B78. -/
def crc32cStep (crc : Word) (b : Byte) : Word :=
  (List.range 8).foldl (fun v _ => if v.getLsbD 0 then (v >>> 1) ^^^ 0x82F63B78 else v >>> 1) (crc ^^^ b.setWidth 32)

/-- CRC-32C (Castagnoli). -/
def crc32c (bs : List Byte) : Word := ~~~ bs.foldl crc32cStep 0xFFFFFFFF

/-! ### SHA-2 -/

/-- The whole part of the `k`-th root of `n`, from bit `b - 1` down, over the part `r` already found. -/
def rootDown (k n : Nat) : Nat → Nat → Nat
  | 0, r => r
  | b + 1, r => rootDown k n b (if (r + 2 ^ b) ^ k ≤ n then r + 2 ^ b else r)

/-- The first 64 bits of the fractional part of the `k`-th root of `p` (FIPS 180-4 draws its constants so). -/
def rootFraction (k p : Nat) : DWord := BitVec.ofNat 64 (rootDown k (p * 2 ^ (64 * k)) 69 0)

/-- The primes up to 409: the first eighty. -/
def firstPrimes : List Nat :=
  (List.range 410).filter fun n => 2 ≤ n && (List.range 19).all fun d => n ≤ d + 2 || n % (d + 2) != 0

/-- Initial hash value of SHA-256: the square roots of the first eight primes, 32 bits of each. -/
def sha256Init : List Word := (firstPrimes.take 8).map fun p => (rootFraction 2 p).extractLsb' 32 32

/-- Initial hash value of SHA-384: the square roots of the ninth to sixteenth primes. -/
def sha384Init : List DWord := ((firstPrimes.drop 8).take 8).map (rootFraction 2)

/-- Round constants of SHA-384: the cube roots of the first eighty primes. -/
def sha384K : List DWord := firstPrimes.map (rootFraction 3)

/-- Round constants of SHA-256: the cube roots of the first 64 primes, 32 bits of each. -/
def sha256K : List Word := (firstPrimes.take 64).map fun p => (rootFraction 3 p).extractLsb' 32 32

/-- What differs between the two widths of SHA-2: rotations and shifts of the four sigma functions, and rounds. -/
structure Sha (w : Nat) where
  s0 : Nat × Nat × Nat
  s1 : Nat × Nat × Nat
  e0 : Nat × Nat × Nat
  e1 : Nat × Nat × Nat
  k : List (BitVec w)

def sha32 : Sha 32 := ⟨(7, 18, 3), (17, 19, 10), (2, 13, 22), (6, 11, 25), sha256K⟩
def sha64 : Sha 64 := ⟨(1, 8, 7), (19, 61, 6), (28, 34, 39), (14, 18, 41), sha384K⟩

/-- Small sigma: two rotations and a shift. -/
def smallSigma {w : Nat} (r : Nat × Nat × Nat) (x : BitVec w) : BitVec w :=
  x.rotateRight r.1 ^^^ x.rotateRight r.2.1 ^^^ (x >>> r.2.2)

/-- Big sigma: three rotations. -/
def bigSigma {w : Nat} (r : Nat × Nat × Nat) (x : BitVec w) : BitVec w :=
  x.rotateRight r.1 ^^^ x.rotateRight r.2.1 ^^^ x.rotateRight r.2.2

/-- The message schedule: the last 16 words, newest first, extended by one word a round. -/
def schedule {w : Nat} (p : Sha w) : Nat → List (BitVec w) → List (BitVec w)
  | 0, ws => ws
  | n + 1, ws =>
    let at' (i : Nat) := ws.getD i 0
    schedule p n ((smallSigma p.s1 (at' 1) + at' 6 + smallSigma p.s0 (at' 14) + at' 15) :: ws)

/-- One round on the eight working variables. -/
def shaRound {w : Nat} (p : Sha w) (v : List (BitVec w)) (kw : BitVec w × BitVec w) : List (BitVec w) :=
  match v with
  | [a, b, c, d, e, f, g, h] =>
    let t1 := h + bigSigma p.e1 e + ((e &&& f) ^^^ (~~~ e &&& g)) + kw.1 + kw.2
    let t2 := bigSigma p.e0 a + ((a &&& b) ^^^ (a &&& c) ^^^ (b &&& c))
    [t1 + t2, a, b, c, d + t1, e, f, g]
  | _ => v

/-- One block of bytes added to the hash value. -/
def shaBlock {w : Nat} (p : Sha w) (h : List (BitVec w)) (block : List Byte) : List (BitVec w) :=
  let ws := (chunksOf (w / 8) 16 block).map fun b => BitVec.ofNat w (beNat b)
  let sched := (schedule p (p.k.length - 16) ws.reverse).reverse
  let v := (p.k.zip sched).foldl (shaRound p) h
  List.zipWith (· + ·) h v

/-- Padding: a one bit, zeros, and the length in bits in the last `2w / 8` bytes. -/
def shaPad (block len : Nat) (bs : List Byte) : List Byte :=
  let z := (block - (bs.length + 1 + len) % block) % block
  bs ++ [0x80] ++ List.replicate z 0 ++ beBytes len (bs.length * 8)

def sha256 (bs : List Byte) : BitVec 256 :=
  let m := shaPad 64 8 bs
  let h := (chunksOf 64 (m.length / 64) m).foldl (shaBlock sha32) sha256Init
  BitVec.ofNat 256 (h.foldl (fun n x => n * 2 ^ 32 + x.toNat) 0)

def sha384 (bs : List Byte) : BitVec 384 :=
  let m := shaPad 128 16 bs
  let h := (chunksOf 128 (m.length / 128) m).foldl (shaBlock sha64) sha384Init
  BitVec.ofNat 384 ((h.take 6).foldl (fun n x => n * 2 ^ 64 + x.toNat) 0)

/-- HMAC-SHA-256 of a message under a 32-byte key. -/
def hmacSha256 (key : List Byte) (msg : List Byte) : BitVec 256 :=
  let k := fitTo 64 key
  let inner := sha256 (k.map (· ^^^ 0x36) ++ msg)
  sha256 (k.map (· ^^^ 0x5C) ++ beBytes 32 inner.toNat)

/-! ### AES-256 and GCM -/

/-- Multiply by x in GF(2^8). -/
def xtime (b : Byte) : Byte := if b.getLsbD 7 then (b <<< 1) ^^^ 0x1B else b <<< 1

/-- Product in GF(2^8). -/
def gmul (a b : Byte) : Byte :=
  ((List.range 8).foldl (fun (s : Byte × Byte) i => (if b.getLsbD i then s.1 ^^^ s.2 else s.1, xtime s.2)) (0, a)).1

/-- Inverse in GF(2^8) as the 254th power; 0 for 0. -/
def ginv (a : Byte) : Byte :=
  let a2 := gmul a a
  let a3 := gmul a2 a
  let a6 := gmul a3 a3
  let a12 := gmul a6 a6
  let a15 := gmul a12 a3
  let a30 := gmul a15 a15
  let a60 := gmul a30 a30
  let a120 := gmul a60 a60
  let a126 := gmul a120 a6
  let a127 := gmul a126 a
  gmul a127 a127

/-- The AES S-box. -/
def sbox (a : Byte) : Byte :=
  let i := ginv a
  i ^^^ i.rotateLeft 1 ^^^ i.rotateLeft 2 ^^^ i.rotateLeft 3 ^^^ i.rotateLeft 4 ^^^ 0x63

/-- The round keys of AES-256 as 60 four-byte words, newest first. -/
def expandKey : Nat → Byte → List (List Byte) → List (List Byte)
  | 0, _, ws => ws
  | n + 1, rcon, ws =>
    let i := ws.length
    let t := ws.headD []
    let old := ws.getD 7 []
    let t' :=
      if i % 8 = 0 then
        match (t.drop 1 ++ t.take 1).map sbox with
        | a :: r => (a ^^^ rcon) :: r
        | [] => []
      else if i % 8 = 4 then t.map sbox else t
    expandKey n (if i % 8 = 0 then xtime rcon else rcon) (List.zipWith (· ^^^ ·) old t' :: ws)

def roundKeys (key : BitVec 256) : List (List Byte) :=
  let ws := chunksOf 4 8 (beBytes 32 key.toNat)
  chunksOf 16 15 ((expandKey 52 1 ws.reverse).reverse.flatten)

/-- Row `r` of the state moves left by `r` columns. -/
def shiftRows (s : List Byte) : List Byte :=
  (List.range 16).map fun i => s.getD ((i + 4 * (i % 4)) % 16) 0

def mixColumn (c : List Byte) : List Byte :=
  (List.range 4).map fun i =>
    let at' (j : Nat) := c.getD ((i + j) % 4) 0
    xtime (at' 0) ^^^ (xtime (at' 1) ^^^ at' 1) ^^^ at' 2 ^^^ at' 3

def mixColumns (s : List Byte) : List Byte := ((chunksOf 4 4 s).map mixColumn).flatten

def xorBytes (a b : List Byte) : List Byte := List.zipWith (· ^^^ ·) a b

/-- AES-256 of one 16-byte block. -/
def aesBlock (keys : List (List Byte)) (block : List Byte) : List Byte :=
  let s := xorBytes block (keys.getD 0 [])
  let s := ((keys.drop 1).take 13).foldl (fun s k => xorBytes (mixColumns (shiftRows (s.map sbox))) k) s
  xorBytes (shiftRows (s.map sbox)) (keys.getD 14 [])

/-- Product in the field of GCM, bit 127 first. -/
def ghashMul (x y : BitVec 128) : BitVec 128 :=
  ((List.range 128).foldl (fun (s : BitVec 128 × BitVec 128) i =>
    (if x.getLsbD (127 - i) then s.1 ^^^ s.2 else s.1,
     if s.2.getLsbD 0 then (s.2 >>> 1) ^^^ (0xE1#128 <<< 120) else s.2 >>> 1)) (0, y)).1

/-- A byte list in 16-byte blocks, the last filled with zeros. -/
def blocks16 (bs : List Byte) : List (BitVec 128) :=
  (chunksOf 16 (bs.length / 16 + 1) bs).map fun b => BitVec.ofNat 128 (beNat (fitTo 16 b))

def ghash (h : BitVec 128) (aad text : List Byte) : BitVec 128 :=
  let len := BitVec.ofNat 128 (aad.length * 8 * 2 ^ 64 + text.length * 8)
  (blocks16 aad ++ blocks16 text ++ [len]).foldl (fun y b => ghashMul (y ^^^ b) h) 0

/-- The counter blocks of GCM: the 12-byte nonce and a 32-bit count. -/
def gcmBlock (nonce : List Byte) (n : Nat) : List Byte := nonce ++ beBytes 4 n

/-- Bytes under the key stream that starts at count 2. -/
def gcmStream (keys : List (List Byte)) (nonce text : List Byte) : List Byte :=
  ((chunksOf 16 (text.length / 16 + 1) text).zipIdx.map fun b =>
    xorBytes b.1 (aesBlock keys (gcmBlock nonce (b.2 + 2)))).flatten

/-- The 16-byte tag of a ciphertext. -/
def gcmTag (keys : List (List Byte)) (nonce aad text : List Byte) : List Byte :=
  let h := BitVec.ofNat 128 (beNat (aesBlock keys (List.replicate 16 0)))
  xorBytes (beBytes 16 (ghash h aad text).toNat) (aesBlock keys (gcmBlock nonce 1))

/-- AES-256-GCM encryption: ciphertext and tag. -/
def gcmSeal (key : BitVec 256) (nonce aad text : List Byte) : List Byte × List Byte :=
  let ks := roundKeys key
  let ct := gcmStream ks nonce text
  (ct, gcmTag ks nonce aad ct)

/-- AES-256-GCM decryption: the text, when the tag verifies. -/
def gcmOpen (key : BitVec 256) (nonce aad text tag : List Byte) : Option (List Byte) :=
  let ks := roundKeys key
  if gcmTag ks nonce aad text = tag then some (gcmStream ks nonce text) else none

/-! ### ECDSA over P-384 -/

def p384p : Nat := 2 ^ 384 - 2 ^ 128 - 2 ^ 96 + 2 ^ 32 - 1
def p384n : Nat := 0xffffffffffffffffffffffffffffffffffffffffffffffffc7634d81f4372ddf581a0db248b0a77aecec196accc52973
def p384b : Nat := 0xb3312fa7e23ee7e4988e056be3f82d19181d9c6efe8141120314088f5013875ac656398d8a2ed19d2a85c8edd3ec2aef
def p384g : Nat × Nat :=
  (0xaa87ca22be8b05378eb1c71ef320ad746e1d3b628ba79b9859f741e082542a385502f25dbf55296c3a545e3872760ab7,
   0x3617de4a96262c6f5d9e98bf9292dc29f8f41dbd289a147ce9da3113b5f0b8c00a60b1ce1d7e819d7a431d7c90ea0e5f)

/-- Power modulo `m`, over the bits of the exponent; `fuel` bounds their number. -/
def powMod (m : Nat) : Nat → Nat → Nat → Nat
  | 0, _, _ => 1 % m
  | fuel + 1, b, e =>
    let r := powMod m fuel (b * b % m) (e / 2)
    if e % 2 = 1 then r * b % m else r

/-- Inverse modulo a prime of at most 384 bits. -/
def invMod (m a : Nat) : Nat := powMod m 384 (a % m) (m - 2)

/-- Sum of two points of P-384; `none` is the point at infinity. -/
def ecAdd (p q : Option (Nat × Nat)) : Option (Nat × Nat) :=
  match p, q with
  | none, q => q
  | p, none => p
  | some (x1, y1), some (x2, y2) =>
    let m := p384p
    if x1 = x2 ∧ (y1 + y2) % m = 0 then none
    else
      let l := if x1 = x2 then (3 * (x1 * x1) + (m - 3)) * invMod m (2 * y1) % m
        else (y2 + (m - y1)) * invMod m (x2 + (m - x1)) % m
      let x3 := (l * l + (m - x1) + (m - x2)) % m
      some (x3, (l * (x1 + (m - x3)) + (m - y1)) % m)

/-- Multiple of a point, over the bits of the factor. -/
def ecMul : Nat → Nat → Option (Nat × Nat) → Option (Nat × Nat)
  | 0, _, _ => none
  | fuel + 1, k, p =>
    let r := ecMul fuel (k / 2) (ecAdd p p)
    if k % 2 = 1 then ecAdd r p else r

/-- Whether a point lies on the curve. -/
def ecOn (x y : Nat) : Bool :=
  decide (x < p384p) && decide (y < p384p) &&
    decide (y * y % p384p = (x * x % p384p * x + (p384p - 3) * x + p384b) % p384p)

/-- Whether (r, s) is a signature of a SHA-384 digest under the public key (x, y). -/
def ecdsaVerify (x y : Nat) (digest : BitVec 384) (r s : Nat) : Bool :=
  let n := p384n
  if r = 0 ∨ n ≤ r ∨ s = 0 ∨ n ≤ s ∨ !ecOn x y then false
  else
    let w := invMod n s
    let u1 := digest.toNat * w % n
    let u2 := r * w % n
    match ecAdd (ecMul 384 u1 (some p384g)) (ecMul 384 u2 (some (x, y))) with
    | none => false
    | some (px, _) => decide (px % n = r)

end Sys2Proof.Machine
end

