-- ==== Sys2Proof/Machine/Regs.lean ====
section
/-! DEFINITION. The register map of BAR0 (R43): the address of every register that a meaning names, and the table of the
registers that are storage: RW, W1C and RC registers and the words that a snapshot command fills, with their access code
(R12), the bits that are not reserved (R5), their reset value (R13) and the ranges to which written fields are clamped. -/
namespace Sys2Proof.Machine

/-! ### Addresses -/

def Reg.clkUnlock : Nat := 0x30104
def Reg.hbmUnlock : Nat := 0x3010C
def Reg.latSrcLo : Nat := 0x20008
def Reg.latLen : Nat := 0x20010
def Reg.latSwitchTick : Nat := 0x20018
def Reg.pwrEvents : Nat := 0x30004
def Reg.pwrLimit : Nat := 0x30014
/-- Register at offset `o` of port `n`'s block (R43, R177). -/
def Reg.prt (n o : Nat) : Nat := 0x1000000 + n * 0x10000 + o
def Reg.hostBase : Nat := 0x200000
def Reg.bar4Base : Nat := 0x200004
def Reg.faultTimeout : Nat := 0x200008
def Reg.faultFull : Nat := 0x200010
def Reg.root (p : Nat) : Nat := 0x201000 + p * 0x10
def Reg.winEntry (i : Nat) : Nat := 0x300010 + 4 * i
def Reg.winCoalesce : Nat := 0x300030
/-- Register at offset `o` of the context of work ring `k`, and of completion ring `c` (R43, R228). -/
def Reg.wrg (k o : Nat) : Nat := 0x2000000 + k * 0x40 + o
def Reg.cmp (c o : Nat) : Nat := 0x2080000 + c * 0x40 + o
def Reg.connRetry : Nat := 0x40001C
def Reg.busyHint : Nat := 0x400020
def Reg.dscpLo : Nat := 0x400024
def Reg.dscpHi : Nat := 0x400028
def Reg.rxSticky : Nat := 0x40002C
def Reg.relTiming : Nat := 0x400040
def Reg.busyLimit : Nat := 0x400044
def Reg.relSticky : Nat := 0x400048
def Reg.fenceEntry (i : Nat) : Nat := 0x400060 + 4 * i
def Reg.region (r : Nat) : Nat := 0x400100 + 8 * r
def Reg.qpcDrop (q : Nat) : Nat := 0x401008 + q * 0x10
def Reg.paceCfg : Nat := 0x500000
def Reg.paceAi : Nat := 0x500004
def Reg.paceMd : Nat := 0x500008
def Reg.paceLimits : Nat := 0x50000C
def Reg.fwdWeight : Nat := 0x500010
def Reg.schSnap (i : Nat) : Nat := 0x500030 + 4 * i
def Reg.partWeight (p : Nat) : Nat := 0x500200 + 4 * p
/-- Register at offset `o` of port `n`'s scheduling block (R365). -/
def Reg.sch (n o : Nat) : Nat := 0x501000 + n * 0x100 + o
def Reg.quantum (n c : Nat) : Nat := Reg.sch n (4 * c)
def Reg.shapeRate (n c : Nat) : Nat := Reg.sch n (0x20 + 8 * c)
def Reg.shapeBurst (n c : Nat) : Nat := Reg.sch n (0x24 + 8 * c)
def Reg.schSticky (n : Nat) : Nat := Reg.sch n 0x64
def Reg.lodCfg : Nat := 0x40020
def Reg.lodSticky : Nat := 0x40024
def Reg.lateCount : Nat := 0x40028
def Reg.missCount : Nat := 0x4002C
def Reg.ptpCtrl : Nat := 0x40100
def Reg.ptpMaster : Nat := 0x40104
def Reg.ptpMasterPort : Nat := 0x4010C
def Reg.ptpIp : Nat := 0x40110
def Reg.ptpOffset : Nat := 0x40120
def Reg.timeAsym (n : Nat) : Nat := Reg.prt n 0x44
def Reg.colCfg : Nat := 0x700000
def Reg.colTimeout : Nat := 0x700004
def Reg.colMqCfg : Nat := 0x700008
def Reg.colSticky : Nat := 0x70000C
def Reg.colEngine (p : Nat) : Nat := 0x700100 + 4 * p
def Reg.venSticky : Nat := 0x800000
def Reg.venErrcnt (v : Nat) : Nat := 0x80100C + v * 0x10
def Reg.cipCfg : Nat := 0x600010
def Reg.cipSticky : Nat := 0x600014
def Reg.slotInfo (i : Nat) : Nat := 0x600024 + 4 * i
def Reg.keyBuf : Nat := 0x600008
def Reg.qpBuf : Nat := 0x400008
/-- Range register at offset `o` of partition `p` (R511). -/
def Reg.par (p o : Nat) : Nat := 0x101000 + p * 0x20 + o
def Reg.vfCfg (v : Nat) : Nat := 0x108000 + v * 0x10
def Reg.vfRings (v : Nat) : Nat := 0x108004 + v * 0x10
def Reg.histSnap (i : Nat) : Nat := 0x80010 + 4 * i
def Reg.hbmUe (s : Nat) : Nat := 0x1400008 + s * 0x10000
def Reg.traceCfg : Nat := 0xC0004
def Reg.traceParts : Nat := 0xC0008
def Reg.traceLost : Nat := 0xC000C
def Reg.smpCfg : Nat := 0xC0020
def Reg.smpBuf : Nat := 0xC0024
def Reg.smpSize : Nat := 0xC002C
def Reg.smpSets (k : Nat) : Nat := 0xC0040 + 4 * k
/-- Register at offset `o` of partition `p`'s counter block (R559). -/
def Reg.pc (p o : Nat) : Nat := 0xC8000 + p * 0x100 + o
def Reg.pcCqErr (p : Nat) : Nat := Reg.pc p 0x20
/-- Where the model keeps a register of virtual function `v` that is not an alias of a BAR0 register (R508). -/
def Reg.vf (v o : Nat) : Nat := 0x10000000 + v * 0x100000 + o

/-! ### The table of storage registers -/

/-- Access codes of R12 for storage; `snap` is a read-only word that a snapshot command or the device fills. -/
inductive RegAcc where
  | rw | w1c | rc | snap
  deriving DecidableEq, Repr

/-- A register, or an array of registers: instance `i < n` at `base + i * stride`, and within it `j < m` at `+ j * step`. -/
structure RegRow where
  base : Nat
  n : Nat := 1
  stride : Nat := 4
  m : Nat := 1
  step : Nat := 4
  acc : RegAcc := .rw
  /-- The bits that are not reserved. -/
  mask : Word := 0xFFFFFFFF
  reset : Word := 0
  /-- Fields clamped when written: high bit, low bit, least and greatest value. -/
  clamps : List (Nat × Nat × Nat × Nat) := []
  deriving DecidableEq, Repr

/-- Whether a row holds the register at an address. -/
def RegRow.covers (r : RegRow) (a : Nat) : Bool :=
  decide (r.base ≤ a) &&
    (let o := a - r.base
     let i := if r.n = 1 then 0 else o / r.stride
     let k := o - i * r.stride
     decide (i < r.n) && decide (k % r.step = 0) && decide (k / r.step < r.m))

/-- IDN, LAT, PWR and clock status (R38, R72, R141). -/
def regRowsBase : List RegRow :=
  [ { base := Reg.clkUnlock, acc := .w1c, mask := 0x1F },
    { base := Reg.hbmUnlock, acc := .w1c, mask := 0xFFFFF },
    { base := Reg.latSrcLo, m := 2 },
    { base := Reg.latLen },
    { base := Reg.latSwitchTick, m := 2 },
    { base := Reg.pwrEvents, acc := .w1c, mask := 0x7F },
    { base := Reg.pwrLimit, reset := 0xA8C, clamps := [(31, 0, 1000, 2700)] } ]

/-- PRT, with the time-exchange asymmetry (R177, R398). -/
def regRowsPrt : List RegRow :=
  [ { base := Reg.prt 0 0x08, n := 48, stride := 0x10000, acc := .w1c, mask := 0xFFFF },
    { base := Reg.prt 0 0x0C, n := 48, stride := 0x10000, reset := 0x88B688B5 },
    { base := Reg.prt 0 0x10, n := 48, stride := 0x10000, mask := 0xFFFF, reset := 0xC57B },
    { base := Reg.prt 0 0x1C, n := 48, stride := 0x10000, reset := 0xFFFFFFFF },
    { base := Reg.prt 0 0x20, n := 48, stride := 0x10000, mask := 0xFFFF, reset := 0xFFFF },
    { base := Reg.prt 0 0x24, n := 48, stride := 0x10000, mask := 0x1FFF },
    { base := Reg.prt 0 0x44, n := 48, stride := 0x10000, mask := 0xFFFF },
    { base := Reg.prt 0 0x100, n := 48, stride := 0x10000, m := 32, step := 0x10, mask := 0x8001FFFF },
    { base := Reg.prt 0 0x104, n := 48, stride := 0x10000, m := 32, step := 0x10, mask := 0x1FFFF },
    { base := Reg.prt 0 0x108, n := 48, stride := 0x10000, m := 32, step := 0x10, mask := 0x1FFFF },
    { base := Reg.prt 0 0x10C, n := 48, stride := 0x10000, m := 32, step := 0x10, mask := 0x3FFF } ]

/-- XLT and WIN (R221). -/
def regRowsXlt : List RegRow :=
  [ { base := Reg.hostBase, mask := 0x1FFFFF },
    { base := Reg.bar4Base, mask := 0x3FF },
    { base := Reg.faultTimeout, mask := 0x3FFF, reset := 0x64 },
    { base := Reg.faultFull, acc := .w1c },
    { base := Reg.root 0, n := 32, stride := 0x10, mask := 0xFFFFE001 },
    { base := Reg.root 0 + 4, n := 32, stride := 0x10 },
    { base := Reg.winEntry 0, m := 6, acc := .snap },
    { base := Reg.winCoalesce, mask := 0x3FF, reset := 0xA } ]

/-- Ring contexts (R228, R229). -/
def regRowsRing : List RegRow :=
  [ { base := Reg.wrg 0 0, n := 8192, stride := 0x40, mask := 0xFFFFF001 },
    { base := Reg.wrg 0 4, n := 8192, stride := 0x40 },
    { base := Reg.wrg 0 8, n := 8192, stride := 0x40, mask := 0x07FFFFFF },
    { base := Reg.wrg 0 0xC, n := 8192, stride := 0x40, mask := 0xFFFF0FFF },
    { base := Reg.cmp 0 0, n := 8192, stride := 0x40, mask := 0xFFFFF001 },
    { base := Reg.cmp 0 4, n := 8192, stride := 0x40 },
    { base := Reg.cmp 0 8, n := 8192, stride := 0x40, mask := 0x0007FFEF } ]

/-- XPT (R304, R344, R345). -/
def regRowsXpt : List RegRow :=
  [ { base := Reg.qpBuf, mask := 0xFFFFFFC1 },
    { base := Reg.qpBuf + 4 },
    { base := Reg.connRetry, mask := 0xFFFF, reset := 0x3E8 },
    { base := Reg.busyHint, mask := 0xFFFF, reset := 0xA04 },
    { base := Reg.dscpLo, mask := 0x3FFFFFFF },
    { base := Reg.dscpHi, mask := 0x3FFFF },
    { base := Reg.rxSticky, acc := .w1c, mask := 0xFF },
    { base := Reg.relTiming, reset := 0x07D01014,
      clamps := [(7, 0, 1, 255), (15, 8, 1, 64), (31, 16, 100, 60000)] },
    { base := Reg.busyLimit, mask := 0x3FFF, reset := 0xFA, clamps := [(13, 0, 1, 10000)] },
    { base := Reg.relSticky, acc := .w1c, mask := 0x7F },
    { base := Reg.fenceEntry 0, m := 3, acc := .snap },
    { base := Reg.region 0, n := 16, stride := 8, mask := 0xFC000003 },
    { base := Reg.region 0 + 4, n := 16, stride := 8 },
    { base := Reg.qpcDrop 0, n := 4, stride := 0x10, acc := .rc } ]

/-- SCH (R365, R366). -/
def regRowsSch : List RegRow :=
  [ { base := Reg.paceCfg, mask := 0x3FFFF, reset := 0x30FA0, clamps := [(15, 0, 500, 60000)] },
    { base := Reg.paceAi, reset := 0x320032, clamps := [(15, 0, 1, 16000), (31, 16, 1, 16000)] },
    { base := Reg.paceMd, mask := 0xFFFFFF, reset := 0x1080CD,
      clamps := [(7, 0, 1, 255), (15, 8, 1, 255), (23, 16, 1, 255)] },
    { base := Reg.paceLimits, reset := 0x37000A, clamps := [(15, 0, 1, 16000), (31, 16, 1, 1000)] },
    { base := Reg.fwdWeight, mask := 0xFF, reset := 0x10, clamps := [(7, 0, 1, 255)] },
    { base := Reg.schSnap 0, m := 4, acc := .snap },
    { base := Reg.partWeight 0, n := 32, mask := 0xFF, reset := 0x10, clamps := [(7, 0, 1, 255)] },
    { base := Reg.quantum 0 0, n := 48, stride := 0x100, m := 7, mask := 0xFFF, reset := 0x24,
      clamps := [(11, 0, 36, 4095)] },
    { base := Reg.shapeRate 0 0, n := 48, stride := 0x100, m := 7, step := 8, mask := 0x7FFF,
      clamps := [(14, 0, 0, 16000)] },
    { base := Reg.shapeBurst 0 0, n := 48, stride := 0x100, m := 7, step := 8, mask := 0xFFFF, reset := 0x40,
      clamps := [(15, 0, 1, 65535)] },
    { base := Reg.schSticky 0, n := 48, stride := 0x100, acc := .w1c, mask := 0xF } ]

/-- LOD (R396, R397). -/
def regRowsLod : List RegRow :=
  [ { base := Reg.lodCfg, reset := 0x3E803E8, clamps := [(15, 0, 10, 60000), (31, 16, 1, 60000)] },
    { base := Reg.lodSticky, acc := .w1c, mask := 0x1FF },
    { base := Reg.lateCount, acc := .rc },
    { base := Reg.missCount, acc := .rc },
    { base := Reg.ptpCtrl, mask := 0xFF01FF },
    { base := Reg.ptpMaster, m := 2 },
    { base := Reg.ptpMasterPort, mask := 0xFFFF },
    { base := Reg.ptpIp, m := 4 },
    { base := Reg.ptpOffset, m := 2 } ]

/-- COL and VEN (R439, R440, R477). -/
def regRowsCol : List RegRow :=
  [ { base := Reg.colCfg, mask := 0xFF07, reset := 0x1004, clamps := [(2, 0, 0, 6), (15, 8, 1, 255)] },
    { base := Reg.colTimeout, mask := 0xFFFFFF, reset := 0x400032, clamps := [(15, 0, 5, 10000), (23, 16, 1, 255)] },
    { base := Reg.colMqCfg, mask := 0x3FF, reset := 0x14, clamps := [(9, 0, 1, 1000)] },
    { base := Reg.colSticky, acc := .w1c, mask := 0x1FF },
    { base := Reg.colEngine 0, n := 32, mask := 3 },
    { base := Reg.venSticky, acc := .w1c, mask := 0x1FF },
    { base := Reg.venErrcnt 0, n := 64, stride := 0x10, acc := .rc } ]

/-- CIP, PAR and their virtual-function copies (R496, R508, R511). -/
def regRowsPar : List RegRow :=
  [ { base := Reg.keyBuf, mask := 0xFFFFFFC1 },
    { base := Reg.keyBuf + 4 },
    { base := Reg.cipCfg, mask := 0x3F, reset := 4, clamps := [(5, 0, 0, 16)] },
    { base := Reg.cipSticky, acc := .w1c, mask := 7 },
    { base := Reg.slotInfo 0, m := 3, acc := .snap },
    { base := Reg.par 0 0, n := 32, stride := 0x20, mask := 0xFF7F },
    { base := Reg.par 0 4, n := 32, stride := 0x20, mask := 0x1FFFFF },
    { base := Reg.par 0 8, n := 32, stride := 0x20, mask := 0x1FFFFF },
    { base := Reg.par 0 0xC, n := 32, stride := 0x20, mask := 0x1FFFF },
    { base := Reg.par 0 0x10, n := 32, stride := 0x20, mask := 0xFF, reset := 0x10 },
    { base := Reg.vfCfg 0, n := 1024, stride := 0x10, mask := 0x1FFF001F },
    { base := Reg.vfRings 0, n := 1024, stride := 0x10, mask := 0x7FF },
    { base := Reg.vf 0 0x30008, n := 1024, stride := 0x100000, mask := 0xFFFFFFC1 },
    { base := Reg.vf 0 0x3000C, n := 1024, stride := 0x100000 },
    { base := Reg.vf 0 0x40008, n := 1024, stride := 0x100000, mask := 0xFFFFFFC1 },
    { base := Reg.vf 0 0x4000C, n := 1024, stride := 0x100000 },
    { base := Reg.vf 0 0x40024, n := 1024, stride := 0x100000, m := 3, acc := .snap } ]

/-- FLT, HBM and OBS (R541, R543, R558, R559), and the MSI-X tables (R508). -/
def regRowsObs : List RegRow :=
  [ { base := Reg.histSnap 0, m := 5, acc := .snap },
    { base := Reg.hbmUe 0, n := 20, stride := 0x10000, acc := .rc },
    { base := Reg.traceCfg, mask := 0x800F01FE },
    { base := Reg.traceParts },
    { base := Reg.traceLost, acc := .rc },
    { base := Reg.smpCfg, mask := 0x800FFFFF, clamps := [(19, 0, 10, 1000000)] },
    { base := Reg.smpBuf, mask := 0xFFFFFFC1 },
    { base := Reg.smpBuf + 4 },
    { base := Reg.smpSize, mask := 0x1F, reset := 6, clamps := [(4, 0, 6, 20)] },
    { base := Reg.smpSets 0, n := 11 },
    { base := Reg.smpSets 11, mask := 1 },
    { base := Reg.pcCqErr 0, n := 32, stride := 0x100, acc := .rc },
    { base := Reg.pc 0 0x40, n := 32, stride := 0x100, mask := 0x800FFFFF, clamps := [(19, 0, 10, 1000000)] },
    { base := Reg.pc 0 0x44, n := 32, stride := 0x100, mask := 0xFFFFFFC1 },
    { base := Reg.pc 0 0x48, n := 32, stride := 0x100 },
    { base := Reg.pc 0 0x4C, n := 32, stride := 0x100, mask := 0x1F, reset := 6, clamps := [(4, 0, 6, 20)] },
    { base := Reg.vf 0 0x80000, n := 1024, stride := 0x100000, m := 256 } ]

/-- Every storage register. -/
def regRows : List RegRow :=
  regRowsBase ++ regRowsPrt ++ regRowsXlt ++ regRowsRing ++ regRowsXpt ++ regRowsSch ++ regRowsLod ++ regRowsCol
    ++ regRowsPar ++ regRowsObs

/-- The row of the storage register at an address. -/
def regRow (a : Nat) : Option RegRow := regRows.find? (·.covers a)

/-- What a storage register reads after reset. -/
def regReset (a : Nat) : Word := match regRow a with | some r => r.reset | none => 0

/-- A storage register. -/
def Plane.reg (d : Plane) (a : Nat) : Word := SMap.find (regReset a) d.regs a

/-- A storage register set as it stands, without its access code: what the device itself does. -/
def Plane.setReg (d : Plane) (a : Nat) (v : Word) : Plane := { d with regs := SMap.put (regReset a) d.regs a v }

/-- The value of an RW register after a write: reserved bits 0 (R5), clamped fields within their range. -/
def RegRow.written (r : RegRow) (v : Word) : Word :=
  r.clamps.foldl (fun w c =>
    let f := bits w c.1 c.2.1
    let g := clampNat c.2.2.1 c.2.2.2 f
    w - field f (c.1 + 1 - c.2.1) c.2.1 + field g (c.1 + 1 - c.2.1) c.2.1) (v &&& r.mask)

/-- A write to a storage register by the code of R12: RW takes it, W1C clears the bits written 1, the others ignore it. -/
def Plane.writeReg (d : Plane) (a : Nat) (v : Word) : Plane :=
  match regRow a with
  | none => d
  | some r =>
    match r.acc with
    | .rw => d.setReg a (r.written v)
    | .w1c => d.setReg a (d.reg a &&& ~~~v)
    | .rc | .snap => d

/-- What reading a storage register leaves: RC registers are cleared (R12). -/
def Plane.afterRead (d : Plane) (a : Nat) : Plane :=
  match regRow a with
  | some r => if r.acc = .rc then d.setReg a 0 else d
  | none => d

/-- A 64-bit storage quantity, or any pair of neighbours (R10). -/
def Plane.reg64 (d : Plane) (a : Nat) : DWord := d.reg (a + 4) ++ d.reg a

/-- The pairs of R561: the address of the _LO register of the 64-bit quantity that holds the register at `a`. -/
def quantityOf (a : Nat) : Option Nat :=
  let b := a - a % 8
  let arr (base n stride : Nat) : Bool := decide (base ≤ b) && decide ((b - base) % stride = 0) &&
    decide ((b - base) / stride < n)
  let isPair : Bool :=
    [0x8, Reg.latSrcLo, Reg.latSwitchTick, 0x40000, 0x40010, Reg.ptpOffset, Reg.qpBuf, 0xC0010, Reg.keyBuf].contains b
      || arr (Reg.region 0) 16 8 || arr (Reg.root 0) 32 0x10 || arr (Reg.wrg 0 0) 8192 0x40
      || arr (Reg.cmp 0 0) 8192 0x40 || arr (Reg.pc 0 0) 32 0x100 || arr (Reg.pc 0 8) 32 0x100
      || arr (Reg.pc 0 0x10) 32 0x100 || arr (Reg.pc 0 0x18) 32 0x100
      || arr (Reg.vf 0 0x30008) 1024 0x100000 || arr (Reg.vf 0 0x40008) 1024 0x100000
  -- XPT_CAPS, LOD_PTP_MASTER, OBS_SMP_BUF and PC_SMP_BUF do not start on a multiple of 8.
  let c := a - 4 - (a - 4) % 8 + 4
  let odd : Bool := decide (4 ≤ a) &&
    ([0x400014, Reg.ptpMaster, Reg.smpBuf].contains c || (decide (Reg.pc 0 0x44 ≤ c) &&
      decide ((c - Reg.pc 0 0x44) % 0x100 = 0) && decide ((c - Reg.pc 0 0x44) / 0x100 < 32)))
  if isPair then some b else if odd then some c else none

/-- Count up a saturating 32-bit counter register. -/
def Plane.countUp (d : Plane) (a : Nat) : Plane :=
  if d.reg a = 0xFFFFFFFF then d else d.setReg a (d.reg a + 1)

/-- Instance of an array of registers that an address names. -/
def inArr (base n stride a : Nat) : Option Nat :=
  if base ≤ a ∧ (a - base) % stride = 0 ∧ (a - base) / stride < n then some ((a - base) / stride) else none

end Sys2Proof.Machine
end

