-- ==== Sys2Proof/Machine/Flags.lean ====
section
/-! DEFINITION. Sticky bits: setting a bit of a W1C register when its event happens, one function per register with the
events by name, so that no meaning holds a bit number. -/
namespace Sys2Proof.Machine

/-- Set bits of a storage register. -/
def Plane.stick (d : Plane) (a : Nat) (b : Word) : Plane := d.setReg a (d.reg a ||| b)

/-- Sticky bits of a port (R177, PRT_n_STICKY). -/
inductive PrtBit where
  | los | alignLoss | fcsErr | runtOversize | pauseDrop | tagDrop | filterMiss | queueFull | hopReplay | hopStall
  | hopLimit | noRoute | wrongPeer | groupMismatch | laneSpared | ipErr
  deriving DecidableEq, Repr

/-- Bit number of a port event in PRT_n_STICKY. -/
def PrtBit.num : PrtBit → Nat
  | .los => 0 | .alignLoss => 1 | .fcsErr => 2 | .runtOversize => 3 | .pauseDrop => 4 | .tagDrop => 5
  | .filterMiss => 6 | .queueFull => 7 | .hopReplay => 8 | .hopStall => 9 | .hopLimit => 10 | .noRoute => 11
  | .wrongPeer => 12 | .groupMismatch => 13 | .laneSpared => 14 | .ipErr => 15

def Plane.prtStick (d : Plane) (n : Nat) (b : PrtBit) : Plane := d.stick (Reg.prt n 8) (bitIf true b.num)

/-- Bits of XPT_RX_STICKY (R304). -/
inductive RxBit where
  | badLength | badVersion | badPtype | openFail | noQp | staleInc | missFull | fetchFail
  deriving DecidableEq, Repr

def RxBit.num : RxBit → Nat
  | .badLength => 0 | .badVersion => 1 | .badPtype => 2 | .openFail => 3 | .noQp => 4 | .staleInc => 5
  | .missFull => 6 | .fetchFail => 7

def Plane.rxStick (d : Plane) (b : RxBit) : Plane := d.stick Reg.rxSticky (bitIf true b.num)

/-- Bits of XPT_REL_STICKY (R345). -/
inductive RelBit where
  | beyondWindow | earlyDrop | timeout | exhausted | busyTimeout | fenceRx | fencedTx
  deriving DecidableEq, Repr

def RelBit.num : RelBit → Nat
  | .beyondWindow => 0 | .earlyDrop => 1 | .timeout => 2 | .exhausted => 3 | .busyTimeout => 4 | .fenceRx => 5
  | .fencedTx => 6

def Plane.relStick (d : Plane) (b : RelBit) : Plane := d.stick Reg.relSticky (bitIf true b.num)

/-- Bits of SCH_PORT_n_STICKY (R366). -/
inductive SchBit where
  | gateWait | neverFits | class7InWindow | shaperHold
  deriving DecidableEq, Repr

def SchBit.num : SchBit → Nat
  | .gateWait => 0 | .neverFits => 1 | .class7InWindow => 2 | .shaperHold => 3

def Plane.schStick (d : Plane) (n : Nat) (b : SchBit) : Plane := d.stick (Reg.schSticky n) (bitIf true b.num)

/-- Bits of LOD_STICKY (R397). -/
inductive LodBit where
  | holdoverEntered | parentChange | lodeChange | stepped | offsetHigh | holdoverLimit | ptpDiscard | ptpLost | delayReject
  deriving DecidableEq, Repr

def LodBit.num : LodBit → Nat
  | .holdoverEntered => 0 | .parentChange => 1 | .lodeChange => 2 | .stepped => 3 | .offsetHigh => 4
  | .holdoverLimit => 5 | .ptpDiscard => 6 | .ptpLost => 7 | .delayReject => 8

def Plane.lodStick (d : Plane) (b : LodBit) : Plane := d.stick Reg.lodSticky (bitIf true b.num)

/-- Bits of COL_STICKY (R440). -/
inductive ColBit where
  | addendCrc | resultCrc | duplicate | resendTimeout | paramMismatch | poison | closing | mqRefused | badPacket
  deriving DecidableEq, Repr

def ColBit.num : ColBit → Nat
  | .addendCrc => 0 | .resultCrc => 1 | .duplicate => 2 | .resendTimeout => 3 | .paramMismatch => 4 | .poison => 5
  | .closing => 6 | .mqRefused => 7 | .badPacket => 8

def Plane.colStick (d : Plane) (b : ColBit) : Plane := d.stick Reg.colSticky (bitIf true b.num)

/-- Bits of VEN_STICKY (R477). -/
inductive VenBit where
  | dstFull | tagFail | key | index | descriptor | translation | parity | notReady | steerWait
  deriving DecidableEq, Repr

def VenBit.num : VenBit → Nat
  | .dstFull => 0 | .tagFail => 1 | .key => 2 | .index => 3 | .descriptor => 4 | .translation => 5 | .parity => 6
  | .notReady => 7 | .steerWait => 8

def Plane.venStick (d : Plane) (b : VenBit) : Plane := d.stick Reg.venSticky (bitIf true b.num)

/-- Bits of CIP_STICKY (R496). -/
inductive CipBit where
  | coreParity | exhausted | soft
  deriving DecidableEq, Repr

def CipBit.num : CipBit → Nat
  | .coreParity => 0 | .exhausted => 1 | .soft => 2

def Plane.cipStick (d : Plane) (b : CipBit) : Plane := d.stick Reg.cipSticky (bitIf true b.num)

/-- Bits of PWR_EVENTS and PWR_STATUS (R142). -/
inductive PwrBit where
  | vinWarn | throttleTemp | throttlePower | coolantWarn | refclkLoss | pcieRefclkLoss | thermTrip
  deriving DecidableEq, Repr

def PwrBit.num : PwrBit → Nat
  | .vinWarn => 0 | .throttleTemp => 1 | .throttlePower => 2 | .coolantWarn => 3 | .refclkLoss => 4
  | .pcieRefclkLoss => 5 | .thermTrip => 6

def Plane.pwrStick (d : Plane) (b : PwrBit) : Plane := d.stick Reg.pwrEvents (bitIf true b.num)

end Sys2Proof.Machine
end

