-- ==== Sys2Proof/Machine/Memory.lean ====
section
/-! DEFINITION. The address spaces of the K920: what the running image and the spare assignments say, the local space
(R183 to R188), page tables and the walk (R189 to R194). -/
namespace Sys2Proof.Machine

/-! ### What the running image says -/

def Ctl.static (c : Ctl) : Static := match c.image with | some i => i.static | none => {}
def Ctl.job (c : Ctl) : Job := match c.image with | some i => i.job | none => {}
def Ctl.group (c : Ctl) : GroupRec := c.static.group
def Ctl.selfNode (c : Ctl) : Nat := c.group.selfNode
def Ctl.partRec (c : Ctl) (p : Nat) : Option PartRec := c.static.parts.find? (·.part == p)
def Ctl.now (c : Ctl) : Nat := c.lod.tick.toNat

/-- Whether the device fetches work entries (R85). -/
def Ctl.serving (c : Ctl) : Bool :=
  (c.dev.state == .service || c.dev.state == .degraded) && !c.dev.joinPending

/-- The physical tile that serves a logical tile (R16, R560); `none` while it is unserved (R533). -/
def Ctl.tileOf (c : Ctl) (t : Nat) : Option Nat := SMap.find (some (68 * (t / 64) + t % 64)) c.flash.tileOf t

/-- STATE of physical tile `t` as TIL_n_ID encodes it (R18, R560). -/
def Ctl.tileState (c : Ctl) (t : Nat) : BitVec 2 := SMap.find (if t % 68 < 64 then 0 else 1) c.flash.tileState t

/-! ### The local space (R183 to R187) -/

def stackedEnd : Nat := 900 * 2 ^ 30
def nearBase : Nat := 0x10000000000
def hostBase : Nat := 0x80000000000
def localMask : Nat := 2 ^ 44

/-- Where a local address lies (R184). -/
inductive Region where
  | stacked | near (tile : Nat) | host | registers | reserved
  deriving DecidableEq, Repr

/-- The region of a local address. -/
def regionOf (a : Nat) : Region :=
  if a < stackedEnd then .stacked
  else if nearBase ≤ a ∧ a < nearBase + 2 ^ 30 then .near ((a - nearBase) / 2 ^ 22)
  else if 0x20000000000 ≤ a ∧ a < 0x20004000000 then .registers
  else if hostBase ≤ a ∧ a < 2 ^ 44 then .host
  else .reserved

/-- Bus address of a local address in the host aperture (R186). -/
def busAddr (d : Plane) (a : Nat) : Nat := (bits (d.reg Reg.hostBase) 20 0) * 2 ^ 43 + (a - hostBase)

/-- The stack that holds a stacked-memory address (R185). -/
def stackOf (a : Nat) : Nat :=
  let q := a / (225 * 2 ^ 30)
  5 * q + ((a - q * (225 * 2 ^ 30)) / 4096) % 5

/-- Whether a partition's own resources hold the bytes `a` to `a + n - 1` (R193). -/
def Ctl.owns (c : Ctl) (p a n : Nat) : Bool :=
  match c.partRec p with
  | none => false
  | some r =>
    let last := a + n - 1
    match regionOf a, regionOf last with
    | .stacked, .stacked =>
      decide (r.hbmFirst * 2 ^ 30 ≤ a) && decide (last < (r.hbmFirst + r.hbmUnits) * 2 ^ 30)
    | .near t, .near u => (List.range (u + 1 - t)).all fun i =>
        r.tileGroups.getLsbD ((t + i) / 4) && (c.tileOf (t + i)).isSome
    | .host, .host => true
    | _, _ => false

/-- Whether a ring or buffer with LOC 1 lies wholly inside a partition's stacked units (R229, R231). -/
def Ctl.ownsStacked (c : Ctl) (p a n : Nat) : Bool :=
  match c.partRec p with
  | none => false
  | some r => decide (r.hbmFirst * 2 ^ 30 ≤ a) && decide (a + n ≤ (r.hbmFirst + r.hbmUnits) * 2 ^ 30)

/-- The 64-byte lines that hold the bytes `a` to `a + n - 1`. -/
def linesOf (a n : Nat) : List Nat := if n = 0 then [] else (List.range ((a + n - 1) / 64 + 1 - a / 64)).map (· + a / 64)

/-- An access that touches an uncorrectable line counts a MEM_UE of its stack and reports it (R514, R543). -/
def Plane.memUe (d : Plane) (a : Nat) : Plane :=
  (d.countUp (Reg.hbmUe (stackOf a))).raise (0x140 + stackOf a) 0x03

/-- The function whose requester ID the host accesses of a partition carry (R186): the virtual function bound to it, or the
physical function. -/
def ownerFn (d : Plane) (part : Nat) : Nat :=
  match d.vfs.find? fun x => x.2.bound && x.2.part == part with
  | some x => 1 + x.1
  | none => 0

/-- A host access of `n` bytes at bus address `a` meets a range of the host. -/
def HostDeny.meets (x : HostDeny) (a n : Nat) : Bool := decide (x.addr < a + n) && decide (a < x.addr + x.len)

/-- Read host memory at a bus address under the requester ID of function `fn` (R186, R187, R233): nothing while the PCIe
link is down, where the host answers with an error, or where it does not grant the page to that function. -/
def readBus (c : Ctl) (d : Plane) (fn a n : Nat) : Option (List Byte) :=
  if c.dev.pcieUp && !(d.hostBad.any fun x => x.meets a n && (x.fn.isNone || x.fn == some fn)) then some (Mem.readN d.host a n)
  else none

/-- Write host memory at a bus address under the requester ID of function `fn`: lost while the PCIe link is down (R108), and
where the host does not grant the page to that function. -/
def writeBus (c : Ctl) (d : Plane) (fn a : Nat) (bs : List Byte) : Plane :=
  if c.dev.pcieUp && !(d.hostBad.any fun x => x.meets a bs.length && x.fn == some fn) then { d with host := Mem.writeN d.host a bs }
  else d

/-- Read bytes of the local space for function `fn`: host aperture through PCIe, stacked memory and near store directly. `none` when the
access fails: an uncorrectable line, the near store of an unserved tile (R19, R533), or host memory that does not
answer. -/
def readLocal (c : Ctl) (d : Plane) (fn a n : Nat) : Option (List Byte) × Plane :=
  match regionOf a with
  | .host => (readBus c d fn (busAddr d a) n, d)
  | .stacked =>
    match (linesOf a n).find? (d.poison.contains ·) with
    | some l => (none, d.memUe (l * 64))
    | none => (some (Mem.readN d.mem a n), d)
  | .near t => if (c.tileOf t).isSome then (some (Mem.readN d.mem a n), d) else (none, d)
  | .registers | .reserved => (none, d)

/-- Write bytes to the local space for function `fn`. A line written whole is correctable again. -/
def writeLocal (c : Ctl) (d : Plane) (fn a : Nat) (bs : List Byte) : Plane :=
  match regionOf a with
  | .host => writeBus c d fn (busAddr d a) bs
  | .stacked => { d with
      mem := Mem.writeN d.mem a bs
      poison := d.poison.filter fun l => !(decide (a ≤ l * 64) && decide (l * 64 + 64 ≤ a + bs.length)) }
  | .near t => if (c.tileOf t).isSome then { d with mem := Mem.writeN d.mem a bs } else d
  | .registers | .reserved => d

/-- Read `n` bytes at a base with its LOC bit: a bus address, or a local stacked-memory address (R229, R304). -/
def readLoc (c : Ctl) (d : Plane) (fn : Nat) (loc : Bool) (a n : Nat) : Option (List Byte) × Plane :=
  if loc then readLocal c d fn a n else (readBus c d fn a n, d)

/-- Write bytes at a base with its LOC bit. -/
def writeLoc (c : Ctl) (d : Plane) (fn : Nat) (loc : Bool) (a : Nat) (bs : List Byte) : Plane :=
  if loc then writeLocal c d fn a bs else writeBus c d fn a bs

/-! ### Page tables and the walk (R189 to R194) -/

/-- Fault causes of R192. -/
inductive Cause where
  | notPresent | writeDenied | badEntry | protection | remoteMismatch | walkError | moving
  deriving DecidableEq, Repr

def Cause.num : Cause → Nat
  | .notPresent => 0 | .writeDenied => 1 | .badEntry => 2 | .protection => 3 | .remoteMismatch => 4 | .walkError => 5
  | .moving => 6

/-- One level of the tree (R190): lowest virtual bit, entries, bytes of its table, page size of a leaf if it may hold one. -/
structure Level where
  shift : Nat
  entries : Nat
  table : Nat
  page : Option Nat
  deriving DecidableEq, Repr

def levels : List Level :=
  [⟨48, 512, 8192, none⟩, ⟨39, 512, 8192, none⟩, ⟨30, 512, 8192, some (2 ^ 30)⟩, ⟨21, 512, 8192, some (2 ^ 21)⟩,
   ⟨16, 32, 512, some (2 ^ 16)⟩]

/-- A page-table entry split into its fields (R191). -/
structure Pte where
  valid : Bool
  leaf : Bool
  kind : Nat
  write : Bool
  relaxed : Bool
  moving : Bool
  rsv : Nat
  node : Nat
  off : Nat
  handle : Word
  qp : Nat
  rsvHi : Nat
  deriving DecidableEq, Repr

def pteOf (lo hi : DWord) : Pte :=
  let l := lo.toNat
  let h := hi.toNat
  { valid := nbit l 0, leaf := nbit l 1, kind := nbits l 3 2, write := nbit l 4, relaxed := nbit l 5, moving := nbit l 6,
    rsv := nbits l 8 7, node := l / 2 ^ 44, off := (l % 2 ^ 44) / 512 * 512, handle := BitVec.ofNat 32 h,
    qp := nbits h 55 32, rsvHi := nbits h 63 56 }

def Pte.here (c : Ctl) (e : Pte) : Bool := e.node == 0xFFFFF || e.node == c.selfNode

/-- Whether a queue pair number lies in a partition's quota (R498). -/
def Plane.qpInPart (d : Plane) (p q : Nat) : Bool :=
  let r := (d.part p).qps
  decide (r.base * 1024 ≤ q) && decide (q < (r.base + r.count) * 1024)

/-- A cached or walked leaf: the page's first virtual address, its size and the two halves of its entry. -/
structure Leaf where
  va : Nat
  size : Nat
  pte : Pte
  lo : DWord
  hi : DWord
  deriving DecidableEq, Repr

/-- The causes of R192 at a pointer entry, in the order of the rule; `next` is the size of the table it names. -/
def pointerCause (c : Ctl) (p : Nat) (e : Pte) (next : Nat) : Option Cause :=
  if !e.valid then some .notPresent
  else if e.leaf || e.rsv != 0 || e.rsvHi != 0 || e.kind != 0 || e.write || e.relaxed || e.moving || e.handle != 0 || e.qp != 0
      || !e.here c || decide (e.off % next ≠ 0) then some .badEntry
  else if !c.owns p e.off next then some .protection
  else none

/-- The causes of R192 at a leaf entry that hold for every access, in the order of the rule. -/
def leafCause (c : Ctl) (d : Plane) (p : Nat) (e : Pte) (size : Nat) : Option Cause :=
  if !e.valid then some .notPresent
  else if e.rsv != 0 || e.rsvHi != 0 || decide (1 < e.kind) || decide (e.off % size ≠ 0) then some .badEntry
  else if e.kind = 1 then
    if e.here c || e.relaxed then some .badEntry
    else if !d.qpInPart p e.qp || (d.qp e.qp).state == .free || decide ((d.qp e.qp).peerNode ≠ e.node) then
      some .remoteMismatch
    else none
  else if !e.here c || e.handle != 0 || e.qp != 0 || (e.relaxed && decide (regionOf e.off ≠ .host)) then some .badEntry
  else if !c.owns p e.off size then some .protection
  else none

/-- WRITE_DENIED and MOVING, which depend on the access (R192, R211). -/
def accessCause (e : Pte) (write : Bool) : Option Cause :=
  if write && !e.write then some .writeDenied else if write && e.moving then some .moving else none

/-- The result of a walk. -/
inductive Walk where
  | leaf (l : Leaf)
  | fault (k : Cause)
  deriving DecidableEq, Repr

/-- The walk from the table at local address `table` through the remaining levels. -/
def walkFrom (c : Ctl) (d : Plane) (p va : Nat) : List Level → Nat → Walk
  | [], _ => .fault .badEntry
  | v :: vs, table =>
    let i := (va / 2 ^ v.shift) % v.entries
    match (readLocal c d (ownerFn d p) (table + 16 * i) 16).1 with
    | none => .fault .walkError
    | some bs =>
      let lo := BitVec.ofNat 64 (getLe bs 0 8)
      let hi := BitVec.ofNat 64 (getLe bs 8 8)
      let e := pteOf lo hi
      if e.valid && e.leaf && v.page.isSome then
        let size := v.page.getD 0
        match leafCause c d p e size with
        | some k => .fault k
        | none => .leaf ⟨va / size * size, size, e, lo, hi⟩
      else if vs.isEmpty then
        .fault (if e.valid then .badEntry else .notPresent)
      else
        match pointerCause c p e (match vs with | w :: _ => w.table | [] => 0) with
        | some k => .fault k
        | none => walkFrom c d p va vs e.off

/-- A page-table entry in memory, by its local address. -/
def readEntry (c : Ctl) (d : Plane) (p a : Nat) : Option (DWord × DWord) :=
  (readLocal c d (ownerFn d p) a 16).1.map fun bs => (BitVec.ofNat 64 (getLe bs 0 8), BitVec.ofNat 64 (getLe bs 8 8))

/-- The pointer entries that the walk from a table passes, from the root downward. -/
def pointersFrom (c : Ctl) (d : Plane) (p va : Nat) : List Level → Nat → List CacheEnt
  | v :: w :: vs, table =>
    match readEntry c d p (table + 16 * ((va / 2 ^ v.shift) % v.entries)) with
    | none => []
    | some (lo, hi) =>
      let e := pteOf lo hi
      if (e.leaf && v.page.isSome) || (pointerCause c p e w.table).isSome then []
      else ⟨p, va / 2 ^ v.shift * 2 ^ v.shift, 2 ^ v.shift, lo, hi⟩ :: pointersFrom c d p va (w :: vs) e.off
  | _, _ => []

/-- The first table of a partition, by its root (R190). -/
def rootTable (d : Plane) (p : Nat) : Nat :=
  (bits (d.reg (Reg.root p + 4)) 11 0) * 2 ^ 32 + (bits (d.reg (Reg.root p)) 31 13) * 2 ^ 13

/-- The walk of partition `p` for a virtual address (R190, R192): the root is checked as a pointer first. -/
def walk (c : Ctl) (d : Plane) (p va : Nat) : Walk :=
  let lo := d.reg (Reg.root p)
  let hi := d.reg (Reg.root p + 4)
  if !flag lo 0 then .fault .notPresent
  else
    let a := rootTable d p
    if bits hi 31 12 ≠ 0xFFFFF then .fault .badEntry
    else if !c.owns p a 8192 then .fault .protection
    else walkFrom c d p va levels a

end Sys2Proof.Machine
end

