-- ==== Sys2Proof/Machine/Wire.lean ====
section
/-! DEFINITION. Frames and packets: Ethernet framing (R146 to R150, R161, R262 to R266) and the Giloxo transport header with
its extensions (R267 to R287). -/
namespace Sys2Proof.Machine

/-! ### The packet -/

/-- A Giloxo packet (R267): `ext` holds the extensions but SEAL; the payload is in clear. -/
structure Pkt where
  ptype : Nat
  flags : Nat := 6
  tc : Nat := 7
  dst : Nat
  src : Nat
  dstQp : Nat := 0
  srcQp : Nat := 0
  inc : BitVec 16 := 0
  psn : BitVec 32 := 0
  msgLen : Nat := 0
  offset : Nat := 0
  ext : List Byte := []
  payload : List Byte := []
  deriving DecidableEq, Repr

/-- Packet types by name (R270, R428). -/
def ptWrite : Nat := 0x01
def ptWriteNotify : Nat := 0x02
def ptReadReq : Nat := 0x03
def ptReadResp : Nat := 0x04
def ptSend : Nat := 0x05
def ptAtomicReq : Nat := 0x06
def ptAtomicResp : Nat := 0x07
def ptAck : Nat := 0x08
def ptConnectReq : Nat := 0x10
def ptConnectAccept : Nat := 0x11
def ptConnectReject : Nat := 0x12
def ptDisconnect : Nat := 0x13
def ptMgmtReq : Nat := 0x14
def ptMgmtResp : Nat := 0x15
def ptFence : Nat := 0x18
def ptCollData : Nat := 0x30
def ptCollAck : Nat := 0x31
def ptCollResend : Nat := 0x32
def ptMqData : Nat := 0x34
def ptMqLate : Nat := 0x35
def ptMqClose : Nat := 0x36
def ptMqReady : Nat := 0x37
def ptMqAbort : Nat := 0x38

/-- A packet of the Melquin path (R428). -/
def melquinType (ptype : Nat) : Bool := decide (ptMqData ≤ ptype ∧ ptype ≤ ptMqAbort)

/-- Bytes of the extensions of a packet type, SEAL aside (R270, R428); `none` for an unassigned or reserved type. -/
def extLen (ptype : Nat) : Option Nat :=
  if ptype = 0x01 ∨ ptype = 0x02 ∨ ptype = 0x03 then some 16
  else if ptype = 0x04 ∨ ptype = 0x13 then some 0
  else if ptype = 0x05 ∨ ptype = 0x07 ∨ ptype = 0x12 then some 8
  else if ptype = 0x06 ∨ ptype = 0x10 ∨ ptype = 0x11 then some 32
  else if ptype = 0x08 then some 48
  else if ptype = 0x14 ∨ ptype = 0x15 ∨ ptype = 0x18 then some 16
  else if 0x30 ≤ ptype ∧ ptype ≤ 0x32 then some 32
  else if 0x34 ≤ ptype ∧ ptype ≤ 0x38 then some 24
  else none

/-- Packet types that carry a payload (R270, R428). -/
def hasPayload (ptype : Nat) : Bool :=
  [0x01, 0x02, 0x04, 0x05, 0x14, 0x15, 0x30, 0x34, 0x35, 0x36, 0x37, 0x38].contains ptype

/-- Packet types that are never sealed (R270, R428). -/
def neverSealed (ptype : Nat) : Bool :=
  [0x10, 0x11, 0x12, 0x14, 0x15, 0x18].contains ptype || decide (0x30 ≤ ptype ∧ ptype ≤ 0x38)

/-- The 32 bytes of the base header (R267); `units` counts the extensions in 8-byte units, SEAL included. -/
def Pkt.header (p : Pkt) (units flags : Nat) : List Byte :=
  beBytes 1 (0x10 + units) ++ beBytes 1 p.ptype ++ beBytes 1 flags ++ beBytes 1 p.tc ++ beBytes 4 (p.dst * 4096)
    ++ beBytes 4 (p.src * 4096) ++ beBytes 3 p.dstQp ++ beBytes 3 p.srcQp ++ beBytes 2 p.inc.toNat
    ++ beBytes 4 p.psn.toNat ++ beBytes 4 p.msgLen ++ beBytes 4 p.offset

/-- An unsealed packet as bytes. -/
def Pkt.bytes (p : Pkt) : List Byte := p.header (p.ext.length / 8) (p.flags / 2 * 2) ++ p.ext ++ p.payload

/-- The SEAL extension (R281). -/
def sealExt (counter : DWord) (keySlot : Nat) : List Byte :=
  beBytes 8 counter.toNat ++ beBytes 2 keySlot ++ List.replicate 6 0

/-- The authenticated data of a sealed packet: the base header and every extension, as sent (R281). -/
def Pkt.aad (p : Pkt) (counter : DWord) (keySlot : Nat) : List Byte :=
  p.header (p.ext.length / 8 + 2) (p.flags / 2 * 2 + 1) ++ p.ext ++ sealExt counter keySlot

/-- The header fields of received bytes, `payload` as they stand after the extensions. -/
def parsePkt (raw : List Byte) : Pkt :=
  let units := getByte raw 0 % 16
  let isSealed := getByte raw 2 % 2 = 1
  let extEnd := 32 + 8 * units
  { ptype := getByte raw 1, flags := getByte raw 2, tc := getByte raw 3 % 8, dst := getBe raw 4 4 / 4096,
    src := getBe raw 8 4 / 4096, dstQp := getBe raw 12 3, srcQp := getBe raw 15 3, inc := BitVec.ofNat 16 (getBe raw 18 2),
    psn := BitVec.ofNat 32 (getBe raw 20 4), msgLen := getBe raw 24 4, offset := getBe raw 28 4,
    ext := slice raw 32 (8 * units - if isSealed then 16 else 0), payload := raw.drop extEnd }

def rawVersion (raw : List Byte) : Nat := getByte raw 0 / 16
def rawUnits (raw : List Byte) : Nat := getByte raw 0 % 16
def rawSealed (raw : List Byte) : Bool := getByte raw 2 % 2 == 1

/-- COUNTER and KEY_SLOT of a sealed packet. -/
def rawCounter (raw : List Byte) : DWord := BitVec.ofNat 64 (getBe raw (32 + 8 * rawUnits raw - 16) 8)
def rawKeySlot (raw : List Byte) : Nat := getBe raw (32 + 8 * rawUnits raw - 8) 2

/-- Payload length from the bytes at hand (R287), without the GCM tag; `cap` on group links removes the padding. -/
def payloadLen (raw : List Byte) (group : Bool) : Option Nat :=
  let p := parsePkt raw
  let fixed := 32 + 8 * rawUnits raw + if rawSealed raw then 16 else 0
  if !hasPayload p.ptype then (if raw.length < fixed then none else some 0)
  else if raw.length < fixed then none
  else
    let n := raw.length - fixed
    some (if group && !rawSealed raw then min n (p.msgLen - p.offset) else n)

/-! ### Ethernet -/

/-- Bytes of a frame from destination address through FCS. -/
def frameLen (f : Frame) : Nat := 14 + 4 * f.tags.length + f.body.length + 4

/-- Wire bytes of a frame (R347). -/
def wireLen (f : Frame) : Nat := frameLen f + 20

/-- The body padded with zeros so that the frame has 64 bytes. -/
def padFrame (f : Frame) : Frame := { f with body := f.body ++ List.replicate (64 - frameLen f) 0 }

/-- Hop fields, bytes 1 to 5 of the preamble (R161). -/
def hopBytes (h : Hop) : List Byte :=
  beBytes 2 h.seq.toNat ++ beBytes 2 h.ack.toNat ++ beBytes 1 (h.hopsLeft.toNat * 16 + h.flags.toNat)

/-- HOP_PCHK of hop fields (R161). -/
def hopCheck (h : Hop) : Byte := crc8 (hopBytes h)

def hopSeqValid (h : Hop) : Bool := h.flags.getLsbD 0
def hopAckValid (h : Hop) : Bool := h.flags.getLsbD 1
def hopNak (h : Hop) : Bool := h.flags.getLsbD 2

/-- The value in effect of a held port register (R178). -/
def Ctl.inUse (c : Ctl) (a : Nat) : Word := SMap.find (regReset a) c.inEffect a

def Ctl.etypeGxt (c : Ctl) (n : Nat) : BitVec 16 := (c.inUse (Reg.prt n 0xC)).setWidth 16
def Ctl.etypeLink (c : Ctl) (n : Nat) : BitVec 16 := ((c.inUse (Reg.prt n 0xC)) >>> 16).setWidth 16
def Ctl.udpPort (c : Ctl) (n : Nat) : Nat := bits (c.inUse (Reg.prt n 0x10)) 15 0

/-- The address of a port: PRT_n_MAC (R177), from flash. -/
def Ctl.mac (c : Ctl) (n : Nat) : BitVec 48 := SMap.find 0 c.flash.macs n

/-- The tag of R150 for a traffic class. -/
def Ctl.tagFor (c : Ctl) (n tc : Nat) : List (BitVec 16 × BitVec 16) :=
  let v := c.inUse (Reg.prt n 0x24)
  if flag v 12 then [(0x8100, BitVec.ofNat 16 (tc * 8192 + bits v 11 0))] else []

/-- A frame for a group link: destination PRT_n_DA, the given EtherType and body (R262). -/
def groupFrame (c : Ctl) (n tc hops : Nat) (etype : BitVec 16) (body : List Byte) : Frame :=
  padFrame
    { hop := { hopsLeft := BitVec.ofNat 4 hops }
      da := (c.inUse (Reg.prt n 0x20)).setWidth 16 ++ c.inUse (Reg.prt n 0x1C)
      sa := c.mac n, tags := c.tagFor n tc, etype := etype, body := body }

/-- One's-complement sum of the 16-bit words of a byte list, folded; `fuel` is its length. -/
def sum16 : Nat → List Byte → Nat
  | 0, _ => 0
  | fuel + 1, a :: b :: r => a.toNat * 256 + b.toNat + sum16 fuel r
  | _ + 1, [a] => a.toNat * 256
  | _ + 1, [] => 0

def checksum (bs : List Byte) : Nat :=
  let s := sum16 bs.length bs
  let s := s % 65536 + s / 65536
  let s := s % 65536 + s / 65536
  65535 - s

/-- The IP and UDP headers of a fabric frame before `gxt` (R263 to R265). -/
def ipHeaders (v6 : Bool) (dscp entropy port : Nat) (local_ peer : List Byte) (gxt : List Byte) : List Byte :=
  let udpLen := 8 + gxt.length
  let tos := dscp * 4 + 2
  if v6 then
    let pseudo := local_ ++ peer ++ beBytes 4 udpLen ++ [0, 0, 0, 17]
    let udp0 := beBytes 2 entropy ++ beBytes 2 port ++ beBytes 2 udpLen ++ [0, 0]
    let ck := checksum (pseudo ++ udp0 ++ gxt)
    beBytes 4 (6 * 2 ^ 28 + tos * 2 ^ 20 + entropy) ++ beBytes 2 udpLen ++ [17, 64] ++ local_ ++ peer
      ++ udp0.take 6 ++ beBytes 2 (if ck = 0 then 65535 else ck)
  else
    let h (ck : Nat) := beBytes 1 0x45 ++ beBytes 1 tos ++ beBytes 2 (20 + udpLen) ++ [0, 0, 0x40, 0] ++ [64, 17]
      ++ beBytes 2 ck ++ local_.drop 12 ++ peer.drop 12
    h (checksum (h 0)) ++ beBytes 2 entropy ++ beBytes 2 port ++ beBytes 2 udpLen ++ [0, 0]

/-- A GXT frame with other GXT bytes under the same headers, lengths and checksums following (R262 to R265). -/
def withGxt (f : Frame) (group : Bool) (raw : List Byte) : Frame :=
  let v6 := f.etype == 0x86DD
  let udp := if v6 then 40 else 20
  let addr (o : Nat) : List Byte := if v6 then slice f.body (8 + 16 * o) 16 else List.replicate 12 0 ++ slice f.body (12 + 4 * o) 4
  let dscp := if v6 then getBe f.body 0 2 / 64 % 64 else getByte f.body 1 / 4
  let body := if group then raw
    else ipHeaders v6 dscp (getBe f.body udp 2) (getBe f.body (udp + 2) 2) (addr 0) (addr 1) raw ++ raw
  padFrame { f with body := body }

/-- Where the GXT bytes of a frame that the device sends begin in its body. -/
def gxtAt (f : Frame) (group : Bool) : Nat := if group then 0 else if f.etype = 0x86DD then 48 else 28

/-- What a fabric frame's IP and UDP headers say: the GXT bytes and the CE mark, or why the frame is discarded. -/
inductive IpIn where
  | gxt (raw : List Byte) (ce : Bool) (port : Nat)
  | notUdp
  | ipErr
  | badLength
  deriving DecidableEq, Repr

/-- Where the UDP header of an IPv6 packet lies, past extension headers from offset `o` on; `fuel` bounds their number. -/
def udpAt6 (body : List Byte) : Nat → Nat → Nat → Option Nat
  | 0, _, _ => none
  | fuel + 1, next, o =>
    if next = 17 then some o
    else if [0, 43, 60, 135].contains next then udpAt6 body fuel (getByte body o) (o + 8 * (getByte body (o + 1) + 1))
    else if next = 51 then udpAt6 body fuel (getByte body o) (o + 4 * (getByte body (o + 1) + 2))
    else if next = 44 ∧ getBe body (o + 2) 2 / 8 = 0 then udpAt6 body fuel (getByte body o) (o + 8)
    else none

/-- Where the UDP header of a frame lies that is IPv4 or IPv6 and UDP, as a receive filter, the built-in rule or the time
block looks for it (R167, R168, R384): whatever its options, checksum and lengths, which GXT parsing checks (R171). -/
def udpAt (etype : BitVec 16) (body : List Byte) : Option Nat :=
  (if etype = 0x0800 then
      if getByte body 0 / 16 = 4 ∧ getByte body 9 = 17 ∧ getBe body 6 2 % 8192 = 0 then some (4 * (getByte body 0 % 16)) else none
    else if etype = 0x86DD then (if getByte body 0 / 16 = 6 then udpAt6 body 16 (getByte body 6) 40 else none)
    else none).filter fun o => decide (o + 8 ≤ body.length)

/-- The UDP destination port of such a frame. -/
def udpOf (etype : BitVec 16) (body : List Byte) : Option Nat := (udpAt etype body).map fun o => getBe body (o + 2) 2

/-- Parse IPv4 or IPv6 and UDP (R167, R171, R266). Padding of a short frame is no disagreement of lengths (R147). -/
def parseIp (etype : BitVec 16) (body : List Byte) : IpIn :=
  if etype = 0x0800 then
    if getByte body 0 / 16 ≠ 4 ∨ getByte body 9 ≠ 17 then
      (if getByte body 0 / 16 = 4 ∧ getByte body 0 % 16 ≠ 5 then .ipErr else .notUdp)
    else if getByte body 0 % 16 ≠ 5 ∨ checksum (body.take 20) ≠ 0 then .ipErr
    else
      let total := getBe body 2 2
      let udp := body.drop 20
      let ulen := getBe udp 4 2
      if body.length < total ∨ (46 < body.length ∧ body.length ≠ total) ∨ total ≠ 20 + ulen ∨ ulen < 8 then .badLength
      else .gxt ((udp.drop 8).take (ulen - 8)) (getByte body 1 % 4 == 3) (getBe udp 2 2)
  else if etype = 0x86DD then
    if getByte body 0 / 16 ≠ 6 then .notUdp
    else if [0, 43, 44, 50, 51, 60, 135].contains (getByte body 6) then .ipErr
    else if getByte body 6 ≠ 17 then .notUdp
    else
      let plen := getBe body 4 2
      let udp := body.drop 40
      let ulen := getBe udp 4 2
      if body.length < 40 + plen ∨ (46 < body.length ∧ body.length ≠ 40 + plen) ∨ plen ≠ ulen ∨ ulen < 8 then .badLength
      else .gxt ((udp.drop 8).take (ulen - 8)) ((getBe body 0 2 / 16) % 4 == 3) (getBe udp 2 2)
  else .notUdp

end Sys2Proof.Machine
end

