-- ==== Sys2Proof/Machine/Operands.lean ====
section
/-! DEFINITION. The operand forms of the K920: the fields that every fetched work entry carries (R239 to R242). The
fields of one opcode stand with its meaning. -/
namespace Sys2Proof.Machine

/-- OPCODE, byte 0 (R239). -/
def Fetched.opcode (e : Fetched) : Nat := getByte e.raw 0
/-- FLAGS, byte 1 (R239). -/
def Fetched.flags (e : Fetched) : Nat := getByte e.raw 1
/-- TIMED (R240). -/
def Fetched.timed (e : Fetched) : Bool := nbit e.flags 3
/-- FENCE_BEFORE (R240). -/
def Fetched.fenceBefore (e : Fetched) : Bool := nbit e.flags 4
/-- SOLICIT (R240). -/
def Fetched.solicit (e : Fetched) : Bool := nbit e.flags 5
/-- INLINE (R240). -/
def Fetched.inline (e : Fetched) : Bool := nbit e.flags 6
/-- NOCOMP (R240). -/
def Fetched.nocomp (e : Fetched) : Bool := nbit e.flags 7
/-- TAG, bytes 2 to 3 (R239). -/
def Fetched.tag (e : Fetched) : Nat := getLe e.raw 2 2
/-- LAYER, bytes 4 to 7 (R239). -/
def Fetched.layer (e : Fetched) : Word := BitVec.ofNat 32 (getLe e.raw 4 4)
/-- LAUNCH_TICK of a timed entry, the 8 bytes before the last 8 (R240). -/
def Fetched.launch (e : Fetched) : Nat := getLe e.raw (e.raw.length - 16) 8
/-- DEADLINE_TICK of a timed entry, the last 8 bytes (R240). -/
def Fetched.deadline (e : Fetched) : Nat := getLe e.raw (e.raw.length - 8) 8
/-- A deadline is set (R387, R392). -/
def Fetched.hasDeadline (e : Fetched) : Bool := e.timed && e.deadline != 2 ^ 64 - 1

/-- The opcodes whose byte 8 field is a queue pair (R242). -/
def Fetched.qp (e : Fetched) : Nat := if 1 ≤ e.opcode ∧ e.opcode ≤ 6 then getLe e.raw 8 4 % 2 ^ 24 else 0

end Sys2Proof.Machine
end

