-- ==== Sys2Proof/Machine/Trace.lean ====
section
/-! DEFINITION. Trace records and the counters of a partition (R553 to R556, R559). -/
namespace Sys2Proof.Machine

/-- Records that the 256 KiB trace buffer holds (R556). -/
def traceRoom : Nat := 8192

/-- Tracing is on: an observation session is open and TRACE_EN is set (R116, R558). -/
def tracing (c : Ctl) (d : Plane) : Bool := c.own.session.isOpen && flag (d.reg Reg.traceCfg) 31

/-- The 32 bytes of a record (R553). -/
def traceImage (d : Plane) (kind part : Nat) (layer : Word) (body : List Byte) : List Byte :=
  leBytes 1 kind ++ leBytes 1 (part % 32) ++ leBytes 4 layer.toNat ++ [0, 0] ++ leBytes 6 d.obs.cycle.toNat ++ [0, 0]
    ++ fitTo 16 body

/-- Put a record in the buffer, or count it as dropped (R556). -/
def traceStore (d : Plane) (bs : List Byte) : Plane :=
  if d.obs.trace.length < traceRoom then { d with obs := { d.obs with trace := d.obs.trace ++ [bs] } }
  else ({ d with obs := { d.obs with lostSince := d.obs.lostSince + 1 } }).countUp Reg.traceLost

/-- The LOST record, as soon as there is space, where its KIND is traced (R545, R556, R558). -/
def traceLoss (c : Ctl) (d : Plane) : Plane :=
  if d.obs.lostSince = 0 ∨ traceRoom ≤ d.obs.trace.length ∨ !(tracing c d && flag (d.reg Reg.traceCfg) 7) then d
  else traceStore { d with obs := { d.obs with lostSince := 0 } } (traceImage d 7 0 0 (leBytes 4 d.obs.lostSince))

/-- Form a record of a kind for a partition when the masks of R558 admit it. -/
def traceRec (c : Ctl) (d : Plane) (kind part : Nat) (layer : Word) (body : List Byte) : Plane :=
  if tracing c d && flag (d.reg Reg.traceCfg) kind && flag (d.reg Reg.traceParts) part then
    traceStore (traceLoss c d) (traceImage d kind part layer body)
  else d

/-! ### Partition counters (R559) -/

def Plane.count (d : Plane) (p : Nat) : PcCount := SMap.find {} d.obs.counts p

def Plane.onCount (d : Plane) (p : Nat) (f : PcCount → PcCount) : Plane :=
  { d with obs := { d.obs with counts := SMap.put {} d.obs.counts p (f (d.count p)) } }

/-- A packet originated for a partition: its wire bytes (R559). -/
def countTx (d : Plane) (p wire : Nat) : Plane :=
  d.onCount p fun x => { x with txPkts := x.txPkts + 1, txBytes := x.txBytes + BitVec.ofNat 64 wire }

/-- Wire bytes received for a partition. -/
def countRxBytes (d : Plane) (p wire : Nat) : Plane :=
  d.onCount p fun x => { x with rxBytes := x.rxBytes + BitVec.ofNat 64 wire }

/-- A packet placed. -/
def countPlaced (d : Plane) (p : Nat) : Plane := d.onCount p fun x => { x with rxPkts := x.rxPkts + 1 }

end Sys2Proof.Machine
end

