-- ==== Sys2Proof/Machine/Rings.lean ====
section
/-! DEFINITION. Work rings, completion rings and event rings (R224 to R257): index arithmetic, contexts, doorbells,
completions, events, interrupts, ring errors and receive descriptors. -/
namespace Sys2Proof.Machine

/-! ### Contexts (R228, R229) -/

def Plane.wrgCfg (d : Plane) (k : Nat) : Word := d.reg (Reg.wrg k 8)
def Plane.wrgCfg2 (d : Plane) (k : Nat) : Word := d.reg (Reg.wrg k 0xC)
def Plane.cmpCfg (d : Plane) (x : Nat) : Word := d.reg (Reg.cmp x 8)

def Plane.wrgLog (d : Plane) (k : Nat) : Nat := bits (d.wrgCfg k) 3 0
def Plane.wrgSize (d : Plane) (k : Nat) : Nat := 2 ^ d.wrgLog k
def Plane.wrgKind (d : Plane) (k : Nat) : Bool := flag (d.wrgCfg k) 4
def Plane.wrgPart (d : Plane) (k : Nat) : Nat := bits (d.wrgCfg k) 9 5
def Plane.wrgCq (d : Plane) (k : Nat) : Nat := bits (d.wrgCfg k) 22 10
def Plane.wrgWeight (d : Plane) (k : Nat) : Nat := bits (d.wrgCfg k) 26 23
def Plane.wrgSrq (d : Plane) (k : Nat) : Nat := bits (d.wrgCfg2 k) 11 0
def Plane.wrgLow (d : Plane) (k : Nat) : Nat := bits (d.wrgCfg2 k) 31 16
def Plane.cmpLog (d : Plane) (x : Nat) : Nat := bits (d.cmpCfg x) 3 0
def Plane.cmpSize (d : Plane) (x : Nat) : Nat := 2 ^ d.cmpLog x
def Plane.cmpKind (d : Plane) (x : Nat) : Bool := flag (d.cmpCfg x) 5
def Plane.cmpPart (d : Plane) (x : Nat) : Nat := bits (d.cmpCfg x) 10 6
def Plane.cmpVector (d : Plane) (x : Nat) : Nat := bits (d.cmpCfg x) 16 11
def Plane.cmpIrq (d : Plane) (x : Nat) : Nat := bits (d.cmpCfg x) 18 17

/-- LOC and base of a ring context at register address `a`. -/
def Plane.ringLoc (d : Plane) (a : Nat) : Bool := flag (d.reg a) 0
def Plane.ringBase (d : Plane) (a : Nat) : Nat := (d.reg (a + 4)).toNat * 2 ^ 32 + bits (d.reg a) 31 12 * 2 ^ 12

/-- Units between two free-running indices (R225). -/
def span (producer consumer : BitVec 16) : Nat := (producer - consumer).toNat

/-- The lap of an index (R225). -/
def lapOf (i : BitVec 16) (n : Nat) : Nat := 1 - (i.toNat / n) % 2

/-- The function that holds ring `k`: 0 the physical function, 1 + v a virtual function (R506). -/
def Plane.holder (d : Plane) (k : Nat) : Nat :=
  match d.vfs.find? fun x => x.2.bound && decide (x.2.first ≤ k) && decide (k < x.2.first + x.2.count) with
  | some x => 1 + x.1
  | none => 0

/-- Whether a ring lies in a partition's ring range (R498, R509). -/
def Plane.ringInPart (d : Plane) (p k : Nat) : Bool :=
  let r := (d.part p).rings
  decide (r.base * 64 ≤ k) && decide (k < (r.base + r.count) * 64)

/-- Queue `q` holds `c` more units free of its `n`: free completion slots of R249. -/
def Plane.cqFree (d : Plane) (x : Nat) : Nat :=
  d.cmpSize x - span (d.cq x).write (d.cq x).consumer - (d.cq x).pending

/-- Give a reserved slot back unused (R249). -/
def Plane.releaseSlot (d : Plane) (x : Nat) : Plane := d.onCq x fun q => { q with pending := q.pending - 1 }

/-- Completions and events can be written to a ring: it lies in stacked memory, or the PCIe link is up (R108). -/
def Plane.reaches (c : Ctl) (d : Plane) (x : Nat) : Bool := c.dev.pcieUp || d.ringLoc (Reg.cmp x 0)

/-! ### Interrupts (R251) -/

/-- Send a completion ring's MSI-X message and disarm it. -/
def sendIrq (c : Ctl) (d : Plane) (x : Nat) : Plane :=
  let d := d.onCq x fun q => { q with armed := false }
  if c.dev.pcieUp then { d with msix := (d.holder x, d.cmpVector x) :: d.msix } else d

/-- The interrupt of an entry just written (R251). -/
def irqOnWrite (c : Ctl) (d : Plane) (x : Nat) (solicited : Bool) : Plane :=
  if (d.cq x).armed && (d.cmpIrq x == 1 || (d.cmpIrq x == 2 && solicited)) then sendIrq c d x else d

/-! ### Events (R254 to R257) -/

/-- The event ring of a partition (R254). -/
def Plane.eventRing (d : Plane) (p : Nat) : Option Nat :=
  (d.cqs.find? fun x => x.2.enabled && d.cmpKind x.1 && d.cmpPart x.1 == p).map (·.1)

/-- Write one 32-byte event at index WRITE of its ring, with its LAP (R247, R254). -/
def putEvent (c : Ctl) (d : Plane) (x : Nat) (bs : List Byte) : Plane :=
  let q := d.cq x
  let n := d.cmpSize x
  let bs := bs.take 3 ++ [BitVec.ofNat 8 (lapOf q.write n)] ++ bs.drop 4
  let a := Reg.cmp x 0
  let d := writeLoc c d (d.holder x) (d.ringLoc a) (d.ringBase a + (q.write.toNat % n) * 32) bs
  irqOnWrite c (d.onCq x fun q => { q with write := q.write + 1 }) x false

/-- Write held events while their ring has room; `fuel` bounds their number. -/
def drainEvents (c : Ctl) (x p : Nat) : Nat → Plane → Plane
  | 0, d => d
  | n + 1, d =>
    match (d.event p).held with
    | [] => d
    | e :: es =>
      if d.cqFree x = 0 then d
      else drainEvents c x p n (putEvent c (d.setEvent p { d.event p with held := es }) x e)

/-- An event of partition `p`: code and bytes 8 to 31. Without an event ring, or one that cannot be reached, it is discarded
(R108, R254, log 142); with a full ring it is held, up to 64, and after that dropped with OVERFLOW, its SEQ number used (R257). -/
def pushEvent (c : Ctl) (d : Plane) (p code : Nat) (body : List Byte) : Plane :=
  match d.eventRing p with
  | none => d
  | some x =>
    let ev := d.event p
    let bs := leBytes 2 code ++ [0, 0] ++ leBytes 4 ev.seq.toNat ++ fitTo 24 body
    let d := d.setEvent p { ev with seq := ev.seq + 1 }
    if !d.reaches c x then d
    else if ev.held.isEmpty && decide (0 < d.cqFree x) then putEvent c d x bs
    else if ev.held.length < 64 then
      d.setEvent p { d.event p with held := (d.event p).held ++ [bs] }
    else d.onCq x fun q => { q with overflow := true }

/-! ### Completions (R245 to R249) -/

/-- A completion entry (R245). -/
structure Comp where
  tag : Nat := 0
  status : Nat := 0
  recv : Bool := false
  solicited : Bool := false
  opcode : Nat := 0
  ring : Nat := 0xFFFF
  result : DWord := 0
  bytes : Nat := 0
  qp : Nat := 0
  detail : Word := 0
  index : BitVec 16 := 0
  deriving DecidableEq, Repr

/-- The 32 bytes of a completion, with its LAP (R245). -/
def Comp.image (x : Comp) (lap : Nat) : List Byte :=
  leBytes 2 x.tag ++ leBytes 1 x.status ++ leBytes 1 (lap + 2 * b2n x.recv + 4 * b2n x.solicited)
    ++ leBytes 1 x.opcode ++ [0] ++ leBytes 2 x.ring ++ leBytes 8 x.result.toNat ++ leBytes 4 x.bytes
    ++ leBytes 4 (x.qp % 2 ^ 24) ++ leBytes 4 x.detail.toNat ++ leBytes 2 x.index.toNat ++ [0, 0]


/-- Write a completion into a reserved slot of ring `x` (R247, R249); PC_CQ_ERR counts a status other than OK (R559). One that
cannot be written is lost (R108). -/
def writeComp (c : Ctl) (d : Plane) (x : Nat) (e : Comp) : Plane :=
  let q := d.cq x
  if !q.enabled then d
  else if !d.reaches c x then d.releaseSlot x
  else
    let n := d.cmpSize x
    let a := Reg.cmp x 0
    let d := writeLoc c d (d.holder x) (d.ringLoc a) (d.ringBase a + (q.write.toNat % n) * 32) (e.image (lapOf q.write n))
    let d := d.onCq x fun q => { q with
      write := q.write + 1
      pending := q.pending - 1
      solicited := if e.solicited then q.solicited ++ [q.write] else q.solicited }
    let d := if e.status = 0 then d else d.countUp (Reg.pcCqErr (d.cmpPart x))
    irqOnWrite c d x e.solicited

/-! ### Fetched entries -/

/-- An ENTRY_START or ENTRY_DONE record (R554). -/
def traceEntry (c : Ctl) (d : Plane) (done : Bool) (k : Nat) (e : Fetched) (status bytes : Nat) : Plane :=
  traceRec c d (if done then 4 else 3) (d.wrgPart k) e.layer
    (leBytes 2 k ++ leBytes 2 e.index.toNat ++ leBytes 2 e.tag ++ leBytes 1 e.opcode ++ leBytes 1 status
      ++ leBytes 4 e.qp ++ leBytes 4 bytes)

/-- A fetched entry of a ring by its index. -/
def Plane.entry (d : Plane) (k : Nat) (i : BitVec 16) : Option Fetched := (d.ring k).fetched.find? (·.index == i)

/-- Change a fetched entry. -/
def Plane.onEntry (d : Plane) (k : Nat) (i : BitVec 16) (f : Fetched → Fetched) : Plane :=
  d.onRing k fun r => { r with fetched := modFirst (·.index == i) f r.fetched }

/-- Whether a fetched entry may start: earlier entries of its ring done when it has FENCE_BEFORE or is a FENCE, and no
earlier FENCE open (R240, R241). -/
def canStart (r : Ring) (e : Fetched) : Bool :=
  let earlier := r.fetched.takeWhile (·.index != e.index)
  (!(e.fenceBefore || e.opcode == 0x30) || earlier.isEmpty) && !earlier.any (·.opcode == 0x30)

/-- Messages being received into a descriptor of a ring. -/
def heldDescs (d : Plane) (k : Nat) : Nat :=
  (d.qps.map fun q => (q.2.rxMsgs.filter fun m => m.desc.isSome && m.ring == k).length).sum

/-- A STOPPING ring with nothing outstanding and nothing left to fetch is DISABLED (R238). -/
def settleStop (r : Ring) : Ring :=
  if r.state == .stopping && r.fetched.isEmpty && r.consumer == r.producer then { r with state := .disabled } else r

/-- As `settleStop`; the descriptors in use count as outstanding too (R229, R238). -/
def Plane.settleRing (d : Plane) (k : Nat) : Plane := if heldDescs d k = 0 then d.onRing k settleStop else d

/-- The event, fault and count of a missed deadline (R392, R394). -/
def missDeadline (c : Ctl) (d : Plane) (k : Nat) (e : Fetched) : Plane :=
  let p := d.wrgPart k
  let d := pushEvent c d p 6 (leBytes 2 k ++ leBytes 2 e.index.toNat ++ leBytes 2 e.tag ++ leBytes 1 e.opcode ++ [0]
    ++ leBytes 8 e.deadline ++ leBytes 4 e.layer.toNat ++ leBytes 4 e.qp)
  (d.countUp Reg.missCount).raise 0x281 0x07 (some p)

/-- How an entry ends: status, RESULT, BYTES and DETAIL. -/
structure Ending where
  status : Nat := 0
  result : DWord := 0
  bytes : Nat := 0
  detail : Word := 0
  deriving DecidableEq, Repr

/-- Statuses of R246. -/
def stOk : Nat := 0
def stAborted : Nat := 1
def stRemoteAccess : Nat := 2
def stLocalAccess : Nat := 3
def stLate : Nat := 4
def stDeadlineMiss : Nat := 5
def stFencedPeer : Nat := 6
def stMemberFenced : Nat := 7
def stPoisoned : Nat := 8
def stRetryExhausted : Nat := 9
def stMalformed : Nat := 10
def stTranslationFault : Nat := 11
def stKeyExhausted : Nat := 12
def stVersionMismatch : Nat := 13
def stBusyTimeout : Nat := 14

/-- RESULT of an entry's completion: COLLECTIVE_ID in the low half for a COLLECTIVE, whatever its status (R245, R407). -/
def Fetched.resultWith (e : Fetched) (x : DWord) : DWord := if e.opcode = 0x20 then x ||| BitVec.ofNat 64 (getLe e.raw 40 4) else x

/-- Complete a fetched entry: the deadline rules of R392 and R393, ABORTED for an entry of a ring being shut down (R238),
its completion or the release of its slot (R240, R249; R108 for a lost entry, log 142), and the end of a shutdown. -/
def finishEntry (c : Ctl) (d : Plane) (k : Nat) (i : BitVec 16) (x : Ending) : Plane :=
  match d.entry k i with
  | none => d
  | some e =>
    let missed := e.hasDeadline && decide (e.deadline ≤ c.now)
    let d := if missed && !e.missed then missDeadline c d k e else d
    let x := if e.phase == .aborting then { status := stAborted, bytes := x.bytes } else x
    let x := if x.status = stOk ∧ missed then
        { x with status := stDeadlineMiss, detail := BitVec.ofNat 32 (min (c.now - e.deadline) 0xFFFFFFFF) }
      else x
    let cq := d.wrgCq k
    let d := if e.lost ∨ (x.status = stOk ∧ e.nocomp) then d.releaseSlot cq
      else
        writeComp c d cq
          { tag := e.tag, status := x.status, solicited := e.solicit, opcode := e.opcode, ring := k
            result := e.resultWith x.result, bytes := x.bytes, qp := e.qp, detail := x.detail, index := i }
    let d := traceEntry c d true k e x.status x.bytes
    let d := if x.status = stLate ∧ bits x.detail 7 0 ≤ 1 then d.countUp Reg.lateCount else d
    (d.onRing k fun r => { r with fetched := r.fetched.filter (·.index != i) }).settleRing k

/-- Complete an entry with a status and DETAIL 0. -/
def failEntry (c : Ctl) (d : Plane) (k : Nat) (i : BitVec 16) (status : Nat) (detail : Word := 0) : Plane :=
  finishEntry c d k i { status := status, detail := detail }

/-- A ring enters ERROR: its fetch waits for nothing more, the latched error and the RING_ERROR event (R237, R244, R256). -/
def ringError (c : Ctl) (d : Plane) (k cause : Nat) (i : BitVec 16) (off opcode : Nat) : Plane :=
  let d := d.onRing k fun r => { r with state := .error, stall := false, errIndex := i, errCause := cause, errOffset := off }
  pushEvent c d (d.wrgPart k) 3
    (leBytes 2 k ++ leBytes 2 i.toNat ++ leBytes 1 cause ++ leBytes 1 opcode ++ leBytes 1 off ++ [0])

/-! ### ENABLE and DISABLE (R230 to R232, R509) -/

/-- The base checks of R231 that both ring kinds share, and the range check of R509 for the physical function. -/
def ringBaseOk (c : Ctl) (d : Plane) (a p log : Nat) : Bool :=
  decide (6 ≤ log) && decide (log ≤ 15) &&
    (!d.ringLoc a || c.ownsStacked p (d.ringBase a) (2 ^ log * 32))

/-- Whether ENABLE of work ring `k` is accepted (R231, R509). -/
def wrgEnableOk (c : Ctl) (d : Plane) (k : Nat) : Bool :=
  let x := d.wrgCq k
  let p := d.wrgPart k
  ringBaseOk c d (Reg.wrg k 0) p (d.wrgLog k) && d.wrgWeight k != 0 && d.ringInPart p k
    && (d.cq x).enabled && !d.cmpKind x && d.cmpPart x == p
    && !(d.wrgKind k && d.rings.any fun r => r.1 != k && r.2.state == .enabled && d.wrgKind r.1
          && d.wrgSrq r.1 == d.wrgSrq k)

/-- ENABLE of a work ring (R231, R237): ignored unless DISABLED. -/
def wrgEnable (c : Ctl) (d : Plane) (k : Nat) : Plane :=
  if (d.ring k).state != .disabled then d
  else if wrgEnableOk c d k then d.setRing k { state := .enabled }
  else d.onRing k fun r => { r with cfgErr := true }

/-- Whether ENABLE of completion or event ring `x` is accepted (R231, R509). -/
def cmpEnableOk (c : Ctl) (d : Plane) (x : Nat) : Bool :=
  let p := d.cmpPart x
  ringBaseOk c d (Reg.cmp x 0) p (d.cmpLog x) && d.ringInPart p x
    && !(d.cmpKind x && (d.eventRing p).isSome)

/-- ENABLE of a completion or event ring. -/
def cmpEnable (c : Ctl) (d : Plane) (x : Nat) : Plane :=
  if (d.cq x).enabled then d
  else if cmpEnableOk c d x then d.setCq x { enabled := true }
  else d.onCq x fun q => { q with cfgErr := true }

/-- DISABLE of a completion ring: refused while a bound work ring is not DISABLED; an event ring's held events are gone with it
(R232, R254). -/
def cmpDisable (d : Plane) (x : Nat) : Plane :=
  if !(d.cq x).enabled then d
  else if d.rings.any fun r => r.2.state != .disabled && d.wrgCq r.1 == x then
    d.onCq x fun q => { q with refused := true }
  else
    let d := d.onCq x fun q => { q with enabled := false, armed := false, pending := 0 }
    if d.cmpKind x then d.setEvent (d.cmpPart x) { d.event (d.cmpPart x) with held := [] } else d

/-! ### Receive descriptors (R252, R256) -/

/-- Posted buffers: fetched descriptors not yet used and unfetched units. -/
def Ring.posted (r : Ring) : Nat := r.descs.length + span r.producer r.consumer

/-- Arm or write RECEIVE_LOW after the posted count changed (R256). -/
def checkLow (c : Ctl) (d : Plane) (k : Nat) : Plane :=
  let r := d.ring k
  let low := d.wrgLow k
  if low = 0 ∨ !d.wrgKind k then d
  else if low ≤ r.posted then d.setRing k { r with lowArmed := true }
  else if r.lowArmed then
    pushEvent c (d.setRing k { r with lowArmed := false }) (d.wrgPart k) 4
      (leBytes 2 k ++ leBytes 2 (d.wrgSrq k) ++ leBytes 2 r.posted)
  else d

/-- The ring that serves shared receive queue `srq`: the enabled one, else one in ERROR, whose descriptors fetched before serve
on (R237). -/
def Plane.srqRing (d : Plane) (srq : Nat) : Option Nat :=
  let serves (t : RingState) : Option Nat := (d.rings.find? fun r => r.2.state == t && d.wrgKind r.1 && d.wrgSrq r.1 == srq).map (·.1)
  (serves .enabled).or (serves .error)

/-- Take the next descriptor of a receive ring (R253). -/
def takeDesc (c : Ctl) (d : Plane) (k : Nat) : Option (Desc × Plane) :=
  match (d.ring k).descs with
  | [] => none
  | x :: xs => some (x, checkLow c (d.onRing k fun r => { r with descs := xs }) k)

/-- A descriptor read from its unit is legal (R252). -/
def descOk (bs : List Byte) : Bool :=
  allZero (slice bs 2 6) && decide (getLe bs 8 8 < 2 ^ 57) && decide (1 ≤ getLe bs 16 4) && allZero (slice bs 20 12)

/-- The offset of the field at fault of a malformed descriptor. -/
def descBadAt (bs : List Byte) : Nat :=
  if !allZero (slice bs 2 6) then 2 else if 2 ^ 57 ≤ getLe bs 8 8 then 8 else if getLe bs 16 4 = 0 then 16 else 20

/-! ### Fetching (R85, R227, R237, R238, R249, R252) -/

/-- The bytes of `n` units of a ring from an index, read at its base; `none` when the read fails. -/
def readUnits (c : Ctl) (d : Plane) (k : Nat) (i : BitVec 16) (n : Nat) : Option (List Byte) × Plane :=
  let a := Reg.wrg k 0
  readLoc c d (d.holder k) (d.ringLoc a) (d.ringBase a + (i.toNat % d.wrgSize k) * 32) (n * 32)

/-- Entries of a ring may be fetched (R79, R85, R237, R238). -/
def mayFetch (c : Ctl) (r : Ring) : Bool :=
  (r.state == .enabled || r.state == .stopping) && c.serving && !c.lat.quiescing && r.consumer != r.producer

/-- Reserve a completion slot for a fetch, or note the stall (R249). -/
def reserveSlot (d : Plane) (k : Nat) : Bool × Plane :=
  let x := d.wrgCq k
  if d.cqFree x = 0 then (false, d.onRing k fun r => { r with stall := true })
  else (true, (d.onRing k fun r => { r with stall := false }).onCq x fun q => { q with pending := q.pending + 1 })

/-- A fetch whose read of the ring fails: FETCH_ERROR, or the rest of a ring being shut down is given up (log 44). -/
def fetchFails (c : Ctl) (d : Plane) (k : Nat) : Plane :=
  let r := d.ring k
  if r.state = .stopping then (d.setRing k { r with consumer := r.producer }).settleRing k
  else ringError c d k 0x0A r.consumer 0xFF 0

/-- Descriptors that a receive ring fetches ahead of need (R252). -/
def descAhead : Nat := 64

/-- A descriptor that took no message completes with a status into its slot. -/
def endDesc (c : Ctl) (d : Plane) (k : Nat) (x : Desc) (status : Nat) : Plane :=
  writeComp c d (d.wrgCq k) { tag := x.tag.toNat, status := status, recv := true, ring := k, index := x.index }

/-- Fetch the next descriptor of a receive ring, its slot reserved first (R238, R249, R252). -/
def fetchDesc (c : Ctl) (d : Plane) (k : Nat) (ok : Bool) : Plane :=
  let r := d.ring k
  if !d.wrgKind k || !mayFetch c r || (decide (descAhead ≤ r.descs.length) && r.state != .stopping) then d
  else
    let s := reserveSlot d k
    if !s.1 then s.2
    else
      let x := readUnits c s.2 k r.consumer 1
      let d := x.2
      match (if ok then x.1 else none) with
      | none => fetchFails c (d.releaseSlot (d.wrgCq k)) k
      | some bs =>
        let y : Desc := { index := r.consumer, tag := BitVec.ofNat 16 (getLe bs 0 2), va := getLe bs 8 8, len := getLe bs 16 4 }
        let past (d : Plane) : Plane := d.onRing k fun r => { r with consumer := r.consumer + 1 }
        if r.state = .stopping then (past (endDesc c d k y stAborted)).settleRing k
        else if !descOk bs then
          ringError c (checkLow c (past (endDesc c d k y stMalformed)) k) k 0x0B y.index (descBadAt bs) 0
        else (past d).onRing k fun r => { r with descs := r.descs ++ [y] }

/-- The ring with its next buffer fetched, when one is posted and none is at hand (R170, R252, R253). -/
def withDesc (c : Ctl) (d : Plane) (k : Nat) : Plane := if (d.ring k).descs.isEmpty then fetchDesc c d k true else d

/-- Every entry outstanding when the PCIe link goes down is lost: fetched entries and descriptors in use complete no more, and
the unused descriptors are given up (R108, log 142). -/
def loseEntries (d : Plane) : Plane :=
  let drop (d : Plane) (r : Nat × Ring) : Plane :=
    (r.2.descs.foldl (fun d _ => d.releaseSlot (d.wrgCq r.1)) d).onRing r.1 fun r =>
      { r with fetched := r.fetched.map fun e => { e with lost := true }, descs := [] }
  let d := d.rings.foldl drop d
  let loseMsg (m : RxMsg) : RxMsg := { m with desc := m.desc.map fun x => { x with lost := true } }
  d.qps.foldl (fun d x => d.onQp x.1 fun q => { q with rxMsgs := q.rxMsgs.map loseMsg }) d

/-! ### Doorbells (R234 to R236) -/

/-- A new PRODUCER for work ring `k` (R235). -/
def ringDoorbell (c : Ctl) (d : Plane) (k : Nat) (v : BitVec 16) : Plane :=
  let r := d.ring k
  match r.state with
  | .disabled => d
  | .error | .stopping => (d.setRing k { r with producer := v }).settleRing k
  | .enabled =>
    if v = r.producer then d
    else if d.wrgSize k < span v r.consumer then
      ringError c d k 0x09 v 0xFF 0
    else checkLow c (d.setRing k { r with producer := v }) k

/-- A new CONSUMER for completion ring `x` (R236, R251, R257). -/
def cmpDoorbell (c : Ctl) (d : Plane) (x : Nat) (v : Word) : Plane :=
  let q := d.cq x
  let cons : BitVec 16 := v.setWidth 16
  if !q.enabled then d
  else if d.cmpSize x < span q.write cons then d.setCq x { q with badConsumer := true }
  else
    let q := { q with consumer := cons, solicited := q.solicited.filter fun i => decide (span i cons < span q.write cons) }
    let d := d.setCq x q
    let d := if d.cmpKind x then drainEvents c x (d.cmpPart x) 64 d else d
    if flag v 16 then
      let q := d.cq x
      let fresh := if d.cmpIrq x = 1 then q.write != q.consumer else if d.cmpIrq x = 2 then !q.solicited.isEmpty else false
      let d := d.setCq x { q with armed := true }
      if fresh then sendIrq c d x else d
    else d

/-- A function reset or device reset abandons a ring: DISABLED, nothing completed (R89, R237). -/
def abandonRing (d : Plane) (k : Nat) : Plane := d.setRing k {}

def abandonCq (d : Plane) (x : Nat) : Plane := d.setCq x {}

end Sys2Proof.Machine
end

