-- ==== Sys2Proof/Machine/Xlat.lean ====
section
/-! DEFINITION. Translation caches, accesses by virtual address, and pending-fault slots (R189, R195 to R211). -/
namespace Sys2Proof.Machine

/-! ### Caches (R195 to R197) -/

def CacheEnt.covers (e : CacheEnt) (p va : Nat) : Bool :=
  e.part == p && decide (e.va ≤ va) && decide (va < e.va + e.size)

/-- A cached translation of a partition overlaps a range. -/
def CacheEnt.meets (e : CacheEnt) (p va n : Nat) : Bool := e.part == p && decide (e.va < va + n) && decide (va < e.va + e.size)

/-- What a cached leaf translates to. -/
def CacheEnt.leaf (e : CacheEnt) : Leaf := ⟨e.va, e.size, pteOf e.lo e.hi, e.lo, e.hi⟩

/-- The translation cache of a tile DMA engine; those of the slices and collective engines are 0 to 3 (R195). -/
def tileCache (tile : Nat) : Nat := 4 + tile

/-- Entries of a translation cache, and of a slice's cache of pointer entries (R195). -/
def cacheRoom (u : Nat) : Nat := if u < 4 then 8192 else 128
def pointerRoom : Nat := 512

/-- The leaves that a translation cache holds, and the pointer entries of its slice. -/
def Plane.leaves (d : Plane) (u : Nat) : List CacheEnt := SMap.find [] d.cache u
def Plane.pointed (d : Plane) (u : Nat) : List CacheEnt := SMap.find [] d.pointers u

/-- A new entry goes into a cache of `room` entries; when it is full a free choice says which one it replaces (log 140). -/
def cacheIn (room choice : Nat) (l : List CacheEnt) (e : CacheEnt) : List CacheEnt :=
  if l.contains e then l else e :: (if room ≤ l.length then l.eraseIdx (choice % l.length) else l)

/-- Keep some entries of every cache. -/
def cacheKeep (keep : CacheEnt → Bool) (m : SMap (List CacheEnt)) : SMap (List CacheEnt) :=
  (m.map fun x => (x.1, x.2.filter keep)).filter fun x => !x.2.isEmpty

/-- Drop every cached leaf of a partition that overlaps a range, from every cache (R203, R209). -/
def Plane.dropLeaves (d : Plane) (p va n : Nat) : Plane := { d with cache := cacheKeep (fun e => !e.meets p va n) d.cache }

/-- Drop every cached leaf and pointer entry of a partition that overlaps a range, from every cache (R206). -/
def Plane.dropRange (d : Plane) (p va n : Nat) : Plane :=
  { d.dropLeaves p va n with pointers := cacheKeep (fun e => !e.meets p va n) d.pointers }

/-- Drop every cached leaf and pointer entry of a partition. -/
def Plane.dropPart (d : Plane) (p : Nat) : Plane :=
  { d with cache := cacheKeep (·.part != p) d.cache, pointers := cacheKeep (·.part != p) d.pointers }

/-- Remember a leaf in a translation cache, and in a slice's the pointer entries that the walk passed; the caches hold no entry
for a walk that faulted (R196). -/
def Plane.remember (d : Plane) (u p : Nat) (l : Leaf) (path : List CacheEnt) : Plane :=
  let r := d.draw
  let n := r.1.toNat
  { r.2 with
    cache := SMap.put [] d.cache u (cacheIn (cacheRoom u) n (d.leaves u) ⟨p, l.va, l.size, l.lo, l.hi⟩)
    pointers := if u < 4 then SMap.put [] d.pointers u (path.foldl (cacheIn pointerRoom n) (d.pointed u)) else d.pointers }

/-- A walk with the causes that depend on the access (R192). -/
def Walk.forAccess (w : Walk) (write : Bool) : Walk :=
  match w with
  | .leaf l => (match accessCause l.pte write with | some k => .fault k | none => w)
  | .fault _ => w

/-- The walk that goes on below a held pointer entry. -/
def walkBelow (c : Ctl) (d : Plane) (p va : Nat) (e : CacheEnt) : Walk :=
  walkFrom c d p va (levels.filter fun v => decide (2 ^ v.shift < e.size)) (pteOf e.lo e.hi).off

/-- What translation cache `u` may still answer from entries that software has changed since: its leaves, and what the walk
below a pointer entry that it holds finds (R197). -/
def heldWalks (c : Ctl) (d : Plane) (u p va : Nat) (write : Bool) : List Walk :=
  (((d.leaves u).filter (·.covers p va)).map fun e => (Walk.leaf e.leaf).forAccess write)
    ++ if u < 4 then ((d.pointed u).filter (·.covers p va)).map fun e => (walkBelow c d p va e).forAccess write else []

/-- The leaf or fault that an access through cache `u` gets: the walk of the tables as they stand or, by a free choice until
an INVALIDATE has completed, one by entries still held that differs from it (R197). -/
def lookup (c : Ctl) (d : Plane) (u p va : Nat) (write : Bool) : Walk × Plane :=
  let w := (walk c d p va).forAccess write
  let olds := (heldWalks c d u p va write).filter (· != w)
  let r := if olds.isEmpty then (w, d) else
    let r := d.draw
    ((w :: olds).getD (r.1.toNat % (olds.length + 1)) w, r.2)
  match r.1 with
  | .leaf l => (r.1, r.2.remember u p l (if r.1 = w then pointersFrom c d p va levels (rootTable d p) else []))
  | .fault _ => r

/-! ### Accesses by virtual address -/

/-- Why an access by virtual address fails. -/
inductive Xfail where
  /-- Beyond the 57-bit space: LOCAL_ACCESS (R189). -/
  | range
  /-- A translation fault at a virtual address. -/
  | fault (va : Nat) (k : Cause)
  /-- An uncorrectable line, or host memory that cannot be reached. -/
  | memory
  /-- A remote leaf, where the access may not use one. -/
  | remote (l : Leaf)
  deriving DecidableEq, Repr

/-- A range cut at 64 KiB boundaries, so that each piece lies in one page; `fuel` bounds the pieces. -/
def pieces : Nat → Nat → Nat → List (Nat × Nat)
  | 0, _, _ => []
  | fuel + 1, va, n =>
    if n = 0 then []
    else
      let k := min n (65536 - va % 65536)
      (va, k) :: pieces fuel (va + k) (n - k)

def piecesOf (va n : Nat) : List (Nat × Nat) := pieces (n / 65536 + 2) va n

/-- Translate one piece to a local address, through translation cache `u`. -/
def translate (c : Ctl) (d : Plane) (u p va : Nat) (write : Bool) : Except Xfail Nat × Plane :=
  let r := lookup c d u p va write
  match r.1 with
  | .fault k => (.error (.fault va k), r.2)
  | .leaf l => if l.pte.kind = 1 then (.error (.remote l), r.2) else (.ok (l.pte.off + (va - l.va)), r.2)

/-- Translate every piece of a range, page by page (R194), before any byte moves. -/
def translateAll (c : Ctl) (u p : Nat) (write : Bool) : List (Nat × Nat) → Plane → Except Xfail (List (Nat × Nat)) × Plane
  | [], d => (.ok [], d)
  | (va, n) :: ps, d =>
    let r := translate c d u p va write
    match r.1 with
    | .error e => (.error e, r.2)
    | .ok a =>
      let rest := translateAll c u p write ps r.2
      match rest.1 with
      | .error e => (.error e, rest.2)
      | .ok as => (.ok ((a, n) :: as), rest.2)

/-- Translate the range `va` to `va + n - 1`; an address beyond the 57-bit space is LOCAL_ACCESS (R189). -/
def translateRange (c : Ctl) (d : Plane) (u p va n : Nat) (write : Bool) : Except Xfail (List (Nat × Nat)) × Plane :=
  if 2 ^ 57 < va + n then (.error .range, d) else translateAll c u p write (piecesOf va n) d

/-- Read pieces of the local space for a function. -/
def readPieces (c : Ctl) (fn : Nat) : List (Nat × Nat) → Plane → Option (List Byte) × Plane
  | [], d => (some [], d)
  | (a, n) :: ps, d =>
    let r := readLocal c d fn a n
    match r.1 with
    | none => (none, r.2)
    | some bs =>
      let rest := readPieces c fn ps r.2
      (rest.1.map (bs ++ ·), rest.2)

/-- Write bytes to pieces of the local space for a function. -/
def writePieces (c : Ctl) (fn : Nat) : List (Nat × Nat) → List Byte → Plane → Plane
  | [], _, d => d
  | (a, n) :: ps, bs, d => writePieces c fn ps (bs.drop n) (writeLocal c d fn a (bs.take n))

/-- Read `n` bytes of a partition's virtual space. -/
def readVa (c : Ctl) (d : Plane) (u p va n : Nat) : Except Xfail (List Byte) × Plane :=
  let r := translateRange c d u p va n false
  match r.1 with
  | .error e => (.error e, r.2)
  | .ok ps =>
    let b := readPieces c (ownerFn r.2 p) ps r.2
    match b.1 with
    | none => (.error .memory, b.2)
    | some bs => (.ok bs, b.2)

/-- Write bytes to a partition's virtual space. -/
def writeVa (c : Ctl) (d : Plane) (u p va : Nat) (bs : List Byte) : Except Xfail Unit × Plane :=
  let r := translateRange c d u p va bs.length true
  match r.1 with
  | .error e => (.error e, r.2)
  | .ok ps => (.ok (), writePieces c (ownerFn r.2 p) ps bs r.2)

/-! ### Pending-fault slots (R198 to R205) -/

def engineNum : Engine → Nat
  | .dma => 0 | .collective => 1 | .send => 2 | .receive => 3 | .mover => 4

/-- ACCESS bits of one access (R205). An atomic is a write too, and a placement sets RX beside the kind of its access
(log 141). -/
def accessMask (x : Access) : Nat := b2n x.write + 2 * b2n x.atomic + 4 * b2n (x.engine == .receive)

def slotKey (va : Nat) : Nat := va / 65536 * 65536

/-- The slots of a partition (R198). -/
def slotsOf (p : Nat) : List Nat := (List.range 16).map (16 * p + ·)

/-- Join the open slot with the same key, or open a free slot of the partition; `none` when there is neither (R199).
A placement is no waiter (R202). -/
def takeSlot (c : Ctl) (d : Plane) (x : Access) (cause : Nat) (w : Waiter) : Option Plane :=
  let p := x.part.val
  let va := slotKey x.va.toNat
  let ws := if x.engine == .receive then [] else [w]
  match (slotsOf p).find? fun k => (d.slot k).isOpen && decide ((d.slot k).va = va) with
  | some k =>
    let s := d.slot k
    some (d.setSlot k { s with access := s.access ||| accessMask x, waiters := s.waiters ++ ws })
  | none =>
    match (slotsOf p).find? fun k => !(d.slot k).isOpen with
    | some k => some (d.setSlot k
        { isOpen := true, part := p, cause := cause, access := accessMask x, waiters := ws, va := va, openedAt := c.ns
          engine := engineNum x.engine, qp := if x.engine == .send || x.engine == .receive then x.qp else 0 })
    | none => none

/-- An access faults. A WALK_ERROR takes no slot and is reported to the collector (R204); a placement or an access that
finds no slot sets the partition's bit of XLT_FAULT_FULL, and an engine then waits without one (R199, R202). -/
def faultAccess (c : Ctl) (d : Plane) (x : Access) (k : Cause) (w : Waiter) : Plane :=
  if k = .walkError then d.raise 0x280 0x03 (some x.part.val)
  else
    match takeSlot c d x k.num w with
    | some d => d
    | none =>
      let d := d.stick Reg.faultFull (bitIf true x.part.val)
      if x.engine == .receive then d else { d with slotless := d.slotless ++ [⟨x, k.num, w⟩] }

/-- While a slot of partition `p` is free, the accesses that wait without one take it or join a slot of their page, oldest
first (R199); `fuel` bounds them. -/
def seatSlotless (c : Ctl) (p : Nat) : Nat → Plane → Plane
  | 0, d => d
  | fuel + 1, d =>
    if (slotsOf p).all fun k => (d.slot k).isOpen then d
    else match takeFirst (fun x => decide (x.access.part.val = p)) d.slotless with
      | none => d
      | some (x, rest) => match takeSlot c { d with slotless := rest } x.access x.cause x.waiter with
        | some d => seatSlotless c p fuel d
        | none => d

/-- The TRANSLATION_FAULT event of a slot (R205). -/
def slotEvent (c : Ctl) (d : Plane) (k : Nat) : Plane :=
  let s := d.slot k
  pushEvent c (d.setSlot k { s with reported := true }) s.part 1
    (leBytes 8 s.va ++ leBytes 2 k ++ leBytes 1 s.cause ++ leBytes 1 s.access
      ++ leBytes 2 (min s.waiters.length 65535) ++ leBytes 1 s.engine ++ [0] ++ leBytes 4 s.qp ++ [0, 0, 0, 0])

/-- Age of a slot in milliseconds (R222 AGE_MS). -/
def slotAge (c : Ctl) (s : FaultSlot) : Nat := (c.ns - s.openedAt) / 1000000

/-- A number as a partition. -/
def partId (p : Nat) : PartId := ⟨p % 32, Nat.mod_lt _ (by decide)⟩

/-- The access of an engine in a partition. -/
def accessOf (e : Engine) (p va : Nat) (write : Bool) (qp : Nat := 0) (atomic : Bool := false) : Access :=
  { engine := e, part := partId p, va := BitVec.ofNat 64 va, write := write, atomic := atomic, qp := qp }

end Sys2Proof.Machine
end

