-- ==== Sys2Proof/Machine/Ports.lean ====
section
/-! DEFINITION. Optical ports (R143 to R182): link states, heartbeats, the parity lane, hop fields and link-level retry,
receive filters, routing and forwarding. -/
namespace Sys2Proof.Machine

/-! ### Usable states (R157) and sending permission (R109, R110) -/

def Port.group (p : Port) : Bool := p.mode == 2
def Port.fabric (p : Port) : Bool := p.mode == 1
def Port.inUse (p : Port) : Bool := p.group || p.fabric

/-- PEER_OK as PRT_n_STATUS shows it; a fabric port counts as having it while UP. -/
def Port.showPeerOk (p : Port) : Bool := if p.fabric then p.link == .up else p.peerOk

/-- DATA_OK as PRT_n_STATUS shows it (R179). -/
def Port.showDataOk (p : Port) : Bool := if p.fabric then p.link == .up else p.dataOk

/-- Recompute DATA_OK after PEER_OK or the last heartbeat changed (R157). -/
def Port.refresh (p : Port) : Port :=
  { p with dataOk := p.peerOk && (p.hbState == 6 || p.hbState == 7) && !p.hbJoin }

/-- The device sends Melquin-path packets and time exchanges (R109). -/
def Ctl.maySpeak (c : Ctl) : Bool :=
  c.dev.state == .training || c.dev.state == .service || c.dev.state == .degraded

/-- The device sends everything else: not in QUARANTINE and not while JOIN_PENDING is set (R109, R110). -/
def Ctl.maySend (c : Ctl) : Bool := c.maySpeak && !c.dev.joinPending

/-- The device sends heartbeats (R105). -/
def Ctl.beats (c : Ctl) : Bool := c.maySpeak || c.dev.state == .quarantine

def DevState.num : DevState → Nat
  | .off => 0 | .standby => 1 | .boot => 2 | .awaitHost => 3 | .configured => 4 | .training => 5 | .service => 6
  | .degraded => 7 | .quarantine => 8

/-! ### Queueing and starting frames (R161 to R166) -/

/-- Append a frame to a port's class-7 queue (R348). -/
def Plane.queue7 (d : Plane) (n : Nat) (f : Frame) : Plane := d.onPort n fun p => { p with queue7 := p.queue7 ++ [f] }

/-- Append an acknowledgement to a port's class-7 queue, with the arrival of the packet it answers and what seals it (R275). -/
def queueAck (d : Plane) (n : Nat) (f : Frame) (since : Nat) (sealing : Option (List Byte × BitVec 256)) : Plane :=
  (d.queue7 n f).onPort n fun p => { p with ackHolds := p.ackHolds ++ [{ frame := f, since := since, sealing := sealing }] }

/-- An acknowledgement departs: its HOLD_NS is the time since the packet it answers arrived, sealed with the rest where the queue
pair is sealed (R275, R281, log 143). -/
def departAck (c : Ctl) (d : Plane) (n : Nat) (f : Frame) : Frame × Plane :=
  let p := d.port n
  match takeFirst (fun h => h.frame == f) p.ackHolds with
  | none => (f, d)
  | some (h, rest) =>
    let raw := f.body.drop (gxtAt f p.group)
    let raw := raw.take 44 ++ beBytes 2 (min (c.ns - h.since) 65535) ++ raw.drop 46
    let raw := match h.sealing with
      | none => raw
      | some (nonce, key) =>
        let aad := raw.take (raw.length - 16)
        let x := gcmSeal key nonce aad []
        aad ++ x.1 ++ x.2
    (withGxt f p.group raw, d.setPort n { p with ackHolds := rest })

/-- Whether a frame is a data frame of a group link: everything but heartbeats and time exchanges (R162). -/
def isData (c : Ctl) (n : Nat) (f : Frame) : Bool := f.etype != c.etypeLink n

/-- The frame with the hop fields it leaves with on a group link (R161, R164). -/
def fillHop (p : Port) (f : Frame) (data replay : Bool) (seq : BitVec 16) : Frame :=
  let h : Hop := { f.hop with
    seq := if data then seq else 0
    ack := p.hopExpect
    flags := BitVec.ofNat 4 (b2n data + 2 + 4 * b2n p.nakDue + 8 * b2n replay) }
  { f with hop := { h with pchk := hopCheck h } }

/-! ### Stamps (R370, R373) -/

/-- A stamp of the present moment: the counter within 2 ticks of its true value, a free error (R370, log 6). -/
def stampNow (c : Ctl) (d : Plane) : DWord × Plane :=
  let r := d.draw
  (BitVec.ofInt 64 ((c.lod.tick.toNat : Int) + (r.1.toNat % 5 : Nat) - 2), r.2)

/-- What the departure of a time-exchange frame does: a REQ's stamp is its t1; a RESP carries the stamp and SEQ of the
RESP before it, and its own stamp is kept for the next one (R372, R373). -/
def departTime (c : Ctl) (d : Plane) (n : Nat) (f : Frame) : Frame × Plane :=
  if f.etype != c.etypeLink n || getByte f.body 0 != 2 then (f, d)
  else
    let r := stampNow c d
    let p := r.2.port n
    let seq := BitVec.ofNat 16 (getBe f.body 14 2)
    if getByte f.body 13 = 0 then
      (f, r.2.setPort n { p with exch := p.exch ++ [{ seq := seq, t1 := r.1 }] })
    else
      let body := f.body.take 24 ++ beBytes 8 p.prevT3.toNat ++ beBytes 2 p.prevSeq.toNat ++ f.body.drop 34
      ({ f with body := body }, r.2.setPort n { p with prevT3 := r.1, prevSeq := seq })

/-- The sequenceId of a Delay_Req of the device's PTP clock, by Ethernet or UDP (R384). -/
def delayReqOf (f : Frame) : Option (BitVec 16) :=
  let msg := if f.etype = 0x88F7 then f.body
    else match parseIp f.etype f.body with | .gxt raw _ port => if port = 319 then raw else [] | _ => []
  if getByte msg 0 % 16 = 1 ∧ getByte msg 1 % 16 = 2 then some (BitVec.ofNat 16 (getBe msg 30 2)) else none

/-- The departure stamp of a Delay_Req is its t3 (R384). -/
def departPtp (c : Ctl) (d : Plane) (f : Frame) : Plane :=
  match delayReqOf f with
  | none => d
  | some seq =>
    let t := stampNow c d
    { t.2 with effects := t.2.effects ++ [.delayReq seq t.1] }

/-- Data frames that a replay buffer holds (R165). -/
def replayRoom : Nat := 256

/-- A frame starts on a port: its hop fields, the replay buffer, and the time it occupies the port (R161 to R165, R347). -/
def startFrame (c : Ctl) (d : Plane) (n : Nat) (f : Frame) : Plane :=
  let t := if (d.port n).group then departTime c d n f else (f, d)
  let f := t.1
  let d := t.2
  let p := d.port n
  let busy := c.ns + ceilDiv (wireLen f) 200
  if p.group then
    let data := isData c n f
    let out := fillHop p f data false p.hopNext
    let p := { p with nakDue := false, ackDue := false, accepted := 0, ackAt := c.ns, busyTill := busy }
    let p := if data then
        { p with
          hopNext := p.hopNext + 1
          replay := p.replay ++ [{ seq := p.hopNext, frame := f, sentAt := c.ns }] }
      else p
    let d := d.setPort n p
    let d := if replayRoom ≤ p.replay.length then d.prtStick n .hopStall else d
    { d with wire := (n, out) :: d.wire }
  else
    let d := departPtp c d f
    { (d.setPort n { p with busyTill := busy }) with wire := (n, f) :: d.wire }

/-- A frame of the replay buffer is sent again, with REPLAY set (R165). -/
def startReplay (c : Ctl) (d : Plane) (n : Nat) (seq : BitVec 16) (f : Frame) : Plane :=
  let p := d.port n
  let out := fillHop p f true true seq
  let p := { p with
    nakDue := false, ackDue := false, accepted := 0, ackAt := c.ns, busyTill := c.ns + ceilDiv (wireLen f) 200
    replay := modFirst (·.seq == seq) (fun x => { x with sentAt := c.ns }) p.replay }
  { (d.setPort n p) with wire := (n, out) :: d.wire }

/-! ### Heartbeats (R154, R155) -/

def heartbeatBody (c : Ctl) (n : Nat) (p : Port) : List Byte :=
  beBytes 1 1 ++ beBytes 1 1 ++ beBytes 2 c.dev.incarnation.toNat ++ beBytes 4 c.selfNode
    ++ beBytes 4 c.group.groupId ++ beBytes 1 n ++ beBytes 1 c.dev.state.num
    ++ beBytes 1 (b2n c.dev.joinPending + 2 * b2n p.spared.isSome)
    ++ beBytes 1 (match p.spared with | some l => l | none => 0xFF) ++ List.replicate 30 0

def heartbeatFrame (c : Ctl) (n : Nat) (p : Port) : Frame :=
  groupFrame c n 7 0 (c.etypeLink n) (heartbeatBody c n p)

/-- Queue a heartbeat on a group-link port in UP or PAUSED (R155). -/
def sendHeartbeat (c : Ctl) (d : Plane) (n : Nat) : Plane :=
  let p := d.port n
  if p.group && (p.link == .up || p.link == .paused) && c.beats then d.queue7 n (heartbeatFrame c n p) else d

/-! ### Link states (R152) -/

/-- The port becomes unusable and its replay buffer is discarded. -/
def Port.drop (p : Port) (link : LinkState) (now : Nat) : Port :=
  { p with
    link := link, since := now, peerOk := false, dataOk := false, replay := [], toReplay := [], replays := 0
    nakOut := false, nakDue := false, rxLock := 0, parityOk := false, spared := none, rebuildNoted := false
    exch := [] }

/-- Back to TRAINING (R152). -/
def retrainPort (c : Ctl) (d : Plane) (n : Nat) : Plane := d.onPort n fun p => p.drop .training c.ns

/-- Every port goes dark (R106, R524). -/
def darkPort (c : Ctl) (d : Plane) (n : Nat) : Plane :=
  d.onPort n fun p => if p.link == .disabled then p else { p.drop .dark c.ns with txPll := false, txLit := 0 }

/-- The transmit lanes that a port lights: the eight data lanes, and the spare one in group-link mode only (R133, R134, R143). -/
def Port.lanesLit (p : Port) : BitVec 9 := if p.group then 0x1FF else if p.fabric then 0xFF else 0

/-- A dark port in use is lit and trains (R152). -/
def lightPort (c : Ctl) (d : Plane) (n : Nat) : Plane :=
  d.onPort n fun p =>
    if p.inUse && p.link == .dark then
      { p with link := .training, since := c.ns, failed := false, txPll := true, txLit := p.lanesLit }
    else p

/-- The data lanes among nine that are not locked. -/
def lanesMissing (lanes : BitVec 9) : List Nat := (List.range 8).filter fun i => !lanes.getLsbD i

/-- Every lane in use aligned: UP with an empty replay buffer and HOP_SEQ 0 (R152). `lanes` are the receive lanes locked: a
fabric port needs the eight data lanes, a group link all of them but one that it rebuilds from a locked parity lane (R158). -/
def alignPort (c : Ctl) (d : Plane) (n : Nat) (lanes : BitVec 9) : Plane :=
  let p := d.port n
  let lost := lanesMissing lanes
  let parity := p.group && lanes.getLsbD 8
  if p.link ≠ .training ∨ !p.inUse ∨ (if parity then 1 else 0) < lost.length then d
  else
    let d := d.setPort n { p with
      link := .up, since := c.ns, failed := false, hopNext := 0, hopExpect := 0, replay := []
      toReplay := [], replays := 0, nakOut := false, nakDue := false, accepted := 0, ackAt := c.ns
      rxLock := if p.group then lanes else 0xFF, parityOk := parity, spared := lost.head?, sparedAt := c.ns, rebuildNoted := false }
    if lost.isEmpty then d else d.prtStick n .laneSpared

/-! ### Hop acknowledgements (R163 to R165) -/

/-- HOP_ACK has not passed a HOP_SEQ. -/
def ahead (ack seq : BitVec 16) : Bool := decide ((seq - ack).toNat < 32768)

/-- Begin a replay from a HOP_SEQ onward; after 16 replays of one HOP_SEQ without progress the port trains again in place
of a 17th (R152, R165). -/
def beginReplay (c : Ctl) (d : Plane) (n : Nat) : Plane :=
  let p := d.port n
  if p.replay.isEmpty ∨ p.link ≠ .up then d
  else if 16 ≤ p.replays then (retrainPort c d n).prtStick n .alignLoss
  else
    (d.setPort n { p with
      toReplay := p.replay.map fun x => (x.seq, x.frame), replays := p.replays + 1
      replay := p.replay.map fun x => { x with sentAt := c.ns } }).prtStick n .hopReplay

/-- The hop acknowledgement and NAK that a received frame carries. -/
def takeHopAck (c : Ctl) (d : Plane) (n : Nat) (h : Hop) : Plane :=
  if !hopAckValid h then d
  else
    let p := d.port n
    let left := p.replay.filter fun x => ahead h.ack x.seq
    let moved := decide (left.length < p.replay.length)
    let p := if moved then
        { p with replay := left, replays := 0, toReplay := p.toReplay.filter fun x => ahead h.ack x.1 }
      else p
    let d := d.setPort n p
    if hopNak h then beginReplay c d n else d

/-- A data frame is lost or out of order: the first discard for an expected value sends a NAK (R163). -/
def hopDiscard (c : Ctl) (d : Plane) (n : Nat) : Plane :=
  let p := d.port n
  if p.nakOut then d
  else sendHeartbeat c (d.setPort n { p with nakOut := true, nakAt := c.ns, nakDue := true }) n

/-- A data frame in good order is taken and acknowledged; 32 of them since the last acknowledgement send a heartbeat at
once (R163, R164, R166). -/
def hopAccept (c : Ctl) (d : Plane) (n : Nat) : Plane :=
  let p := d.port n
  let p := { p with
    hopExpect := p.hopExpect + 1, nakOut := false, accepted := p.accepted + 1, ackDue := true }
  let d := d.setPort n p
  if 32 ≤ p.accepted then sendHeartbeat c d n else d

/-! ### The receive MAC (R147 to R151, R162) -/

/-- What the MAC hands on: the frame, or nothing when it is discarded. -/
def macIn (c : Ctl) (d : Plane) (f : RxFrame) : Option Frame × Plane :=
  let n := f.port.val
  let p := d.port n
  let fr := f.frame
  if p.link != .up || !p.inUse then (none, d)
  else if !f.fcsOk || (p.group && hopCheck fr.hop != fr.hop.pchk) then
    (none, if p.group then hopDiscard c (d.prtStick n .fcsErr) n else d.prtStick n .fcsErr)
  else
    let d := if p.group then takeHopAck c d n fr.hop else d
    let data := p.group && hopSeqValid fr.hop
    if data && fr.hop.seq != (d.port n).hopExpect then (none, hopDiscard c d n)
    else if data && !f.room then (none, hopDiscard c (d.prtStick n .queueFull) n)
    else
      let d := if data then hopAccept c d n else d
      if frameLen fr < 64 ∨ 9216 < frameLen fr then (none, d.prtStick n .runtOversize)
      else if fr.etype = 0x8808 then (none, d.prtStick n .pauseDrop)
      else if 1 < fr.tags.length ∨ fr.tags.any (·.1 != 0x8100) then (none, d.prtStick n .tagDrop)
      else (some fr, d)

/-! ### Filters (R167 to R169, R181) -/

/-- A word of filter `f` of a port, in effect. -/
def Ctl.filt (c : Ctl) (n f w : Nat) : Word := c.inUse (Reg.prt n (0x100 + 0x10 * f + 4 * w))


/-- Whether a filter matches (R168). An untagged frame has VID 0 (R149) and no PCP (R168). -/
def filtMatch (c : Ctl) (n i : Nat) (f : Frame) : Bool :=
  let w0 := c.filt n i 0
  let w1 := c.filt n i 1
  let w2 := c.filt n i 2
  let tci := f.tags.head?.map (·.2.toNat)
  flag w0 31
    && (!flag w0 12 || decide ((match tci with | some t => t % 4096 | none => 0) = bits w0 11 0))
    && (!flag w0 16 || decide (tci.map (· / 8192) = some (bits w0 15 13)))
    && (!flag w1 16 || decide (f.etype.toNat = bits w1 15 0))
    && (!flag w2 16 || decide (udpOf f.etype f.body = some (bits w2 15 0)))

/-- Where R167 steers a frame. -/
inductive Steer where
  | link
  | gxt (raw : List Byte) (ce : Bool)
  | time
  | host (queue : Nat)
  | drop
  | miss
  | ipErr
  | badLength
  deriving DecidableEq, Repr

/-- The GXT bytes of a frame given to GXT parsing. -/
def toGxt (p : Port) (f : Frame) : Steer :=
  if p.group then .gxt f.body false
  else match parseIp f.etype f.body with
    | .gxt raw ce _ => .gxt raw ce
    | .badLength => .badLength
    | .notUdp | .ipErr => .ipErr

/-- The built-in rule (R151, R167). -/
def builtIn (c : Ctl) (n : Nat) (p : Port) (f : Frame) : Steer :=
  if p.group then (if f.etype = c.etypeGxt n then .gxt f.body false else .miss)
  else if f.da ≠ c.mac n ∨ udpOf f.etype f.body ≠ some (c.udpPort n) then .miss
  else toGxt p f

/-- The order of R167. -/
def steer (c : Ctl) (n : Nat) (p : Port) (f : Frame) : Steer :=
  if p.group && f.etype == c.etypeLink n then .link
  else match (List.range 32).find? fun i => filtMatch c n i f with
    | none => builtIn c n p f
    | some i =>
      let w3 := c.filt n i 3
      match bits w3 1 0 with
      | 0 => .drop
      | 1 => toGxt p f
      | 2 => .time
      | _ => .host (bits w3 13 2)

/-- A frame as bytes from the destination address through the payload. -/
def frameBytes (f : Frame) : List Byte :=
  beBytes 6 f.da.toNat ++ beBytes 6 f.sa.toNat ++ (f.tags.map fun t => beBytes 2 t.1.toNat ++ beBytes 2 t.2.toNat).flatten
    ++ beBytes 2 f.etype.toNat ++ f.body

/-- A partition may own the traffic of a port: it is the one named for the port, or none is named (R182, log 137). -/
def portServes (d : Plane) (n p : Nat) : Bool :=
  match SMap.find none d.portPart n with
  | some owner => owner == p
  | none => true

/-- The slice of a port. -/
def sliceOfPort (n : Nat) : Nat := n / 12

/-- The HOST action (R169, R170, R182): the next buffer of the shared receive queue, completed as a received SEND. -/
def hostFrame (c : Ctl) (d : Plane) (n queue : Nat) (f : Frame) : Plane :=
  match d.srqRing queue with
  | none => d
  | some k =>
    if !portServes d n (d.wrgPart k) then d
    else
    let bs := frameBytes f
    let d := withDesc c d k
    match (d.ring k).descs with
    | [] => d.prtStick n .queueFull
    | x :: _ =>
      if x.len < bs.length then d.prtStick n .queueFull
      else
        let w := writeVa c d (sliceOfPort n) (d.wrgPart k) x.va bs
        match w.1 with
        | .error (.fault va cause) => faultAccess c w.2 (accessOf .receive (d.wrgPart k) va true) cause .other
        | .error _ => w.2.prtStick n .queueFull
        | .ok () =>
          let d := match takeDesc c w.2 k with | some r => r.2 | none => w.2
          writeComp c d (d.wrgCq k)
            { tag := x.tag.toNat, recv := true, opcode := 0x04, ring := k, bytes := bs.length, index := x.index }

/-! ### Fence records (R336, R337) -/

/-- Position of a node in the GROUP section. -/
def Ctl.memberIndex (c : Ctl) (node : Nat) : Option Nat := c.group.members.findIdx? (·.node == node)

/-- The valid fence record of a node. -/
def fenceOf (c : Ctl) (d : Plane) (node : Nat) : Option FenceRec :=
  match c.memberIndex node with
  | none => none
  | some i => let r := SMap.find {} d.xpt.fences i; if r.valid then some r else none

/-- Incarnation `a` is newer than `b` (R336). -/
def newer (a b : BitVec 16) : Bool := a != b && decide ((a - b).toNat < 32768)

/-! ### Routing (R172 to R175, R363) -/

def Ctl.route (c : Ctl) (node : Nat) : Option Route := c.job.routes.find? (·.dest == node)

def Ctl.gate (c : Ctl) (n : Nat) : Option Gate := c.job.gates.find? (·.port == n)

/-- Some window of the port's schedule admits the class, or the port is ungated (R363). -/
def Ctl.classAdmitted (c : Ctl) (n cls : Nat) : Bool :=
  match c.gate n with
  | none => true
  | some g => g.wins.any fun w => nbit w.mask cls

/-- The usable next hops of a route for a class, in PORTS order (R157, R363); Melquin-path traffic needs PEER_OK only. -/
def usableHops (c : Ctl) (d : Plane) (r : Route) (cls : Nat) (melquin : Bool) : List Nat :=
  r.ports.filter fun n =>
    let p := d.port n
    (if melquin then p.showPeerOk else p.showDataOk) && (cls == 7 || c.classAdmitted n cls)

/-- The forwarding flow of a receiving port and class (R346). -/
def fwdKey (n cls : Nat) : Nat := 2 ^ 23 + 8 * n + cls

/-- Wire bytes queued on a port in a class: heads and queued forwarded frames (R175, R347). -/
def bytesQueued (d : Plane) (n cls : Nat) : Nat :=
  (((d.port n).heads.filter (·.cls == cls)).map (·.wire)).sum
    + ((List.range 48).map fun m =>
        (((d.flow (fwdKey m cls)).queue.filter (·.1 == n)).map fun x => wireLen x.2).sum).sum

/-- The hop with the fewest bytes queued, ties to the earlier (R175). -/
def leastQueued (d : Plane) (cls : Nat) : List Nat → Option Nat
  | [] => none
  | n :: ns => match leastQueued d cls ns with
    | none => some n
    | some m => if bytesQueued d m cls < bytesQueued d n cls then some m else some n

/-- The next hop of a packet (R175). -/
def chooseHop (d : Plane) (r : Route) (hops : List Nat) (cls src dstQp : Nat) : Option Nat :=
  if cls = 7 then hops.head?
  else if r.adaptive then leastQueued d cls hops
  else if hops.isEmpty then none else hops[(src ^^^ dstQp) % hops.length]?

/-- The HOPS_LEFT of frames the device originates (R174). -/
def originHops : Nat := 15

/-- A GXT frame for a group-link port in a class. -/
def gxtFrame (c : Ctl) (n tc hops : Nat) (raw : List Byte) : Frame := groupFrame c n tc hops (c.etypeGxt n) raw

/-- DSCP of a traffic class (R264, R304). -/
def dscpOf (d : Plane) (tc : Nat) : Nat :=
  if tc < 5 then bits (d.reg Reg.dscpLo) (6 * tc + 5) (6 * tc) else bits (d.reg Reg.dscpHi) (6 * (tc - 5) + 5) (6 * (tc - 5))

/-- A class-7 reply to the sender of an IP frame received on port `n`, the addresses of that frame exchanged (log 40). -/
def replyFrame (c : Ctl) (d : Plane) (n : Nat) (f : Frame) (gxt : List Byte) : Frame :=
  let v6 := f.etype == 0x86DD
  let addr (o : Nat) : List Byte := if v6 then slice f.body (8 + 16 * o) 16 else List.replicate 12 0 ++ slice f.body (12 + 4 * o) 4
  padFrame
    { da := f.sa, sa := c.mac n, tags := c.tagFor n 7, etype := f.etype
      body := ipHeaders v6 (dscpOf d 7) (getBe f.body (if v6 then 42 else 22) 2) (c.udpPort n) (addr 1) (addr 0) gxt ++ gxt }

/-- The port and frame of a class-7 reply that has no queue-pair context: back over the fabric port its packet came by, or over
the route's first usable group-link hop (log 40). -/
def replyVia (c : Ctl) (d : Plane) (p : Pkt) (back : Option (Nat × Frame)) : Option (Nat × Frame) :=
  if !c.maySend then none
  else match back with
    | some (n, f) => if (d.port n).showDataOk then some (n, replyFrame c d n f p.bytes) else none
    | none =>
      ((c.route p.dst).bind fun r => if r.fabric then none else (usableHops c d r 7 false).head?).map fun n =>
        (n, gxtFrame c n 7 originHops p.bytes)

/-- Send a class-7 packet that has no queue-pair context over the route's first usable group-link hop. -/
def sendControl (c : Ctl) (d : Plane) (p : Pkt) (melquin : Bool) : Plane :=
  if !(if melquin then c.maySpeak else c.maySend) then d
  else match c.route p.dst with
    | none => d
    | some r =>
      if r.fabric then d
      else match (usableHops c d r 7 melquin).head? with
        | none => d
        | some n => d.queue7 n (gxtFrame c n 7 originHops p.bytes)

/-- Queue a frame on a forwarding flow (R172, R346, R356). -/
def enqueueForward (d : Plane) (key n : Nat) (f : Frame) : Plane :=
  let w := d.flow key
  d.setFlow key { w with queue := w.queue ++ [(n, f)] }

/-- Forward a GXT frame for another node, or discard it (R172, R173). -/
def forward (c : Ctl) (d : Plane) (n : Nat) (f : Frame) (raw : List Byte) : Plane :=
  let p := parsePkt raw
  if !(d.port n).group then d.prtStick n .noRoute
  else if f.hop.hopsLeft = 0 then d.prtStick n .hopLimit
  else match c.route p.dst with
    | none => d.prtStick n .noRoute
    | some r =>
      let melquin := melquinType p.ptype
      if r.fabric ∨ !(if melquin then c.maySpeak else c.maySend) then d.prtStick n .noRoute
      else match chooseHop d r (usableHops c d r p.tc melquin) p.tc p.src p.dstQp with
        | none => d.prtStick n .noRoute
        | some m =>
          let out := gxtFrame c m p.tc (f.hop.hopsLeft.toNat - 1) raw
          if p.tc = 7 then d.queue7 m out else enqueueForward d (fwdKey n p.tc) m out

end Sys2Proof.Machine
end

