-- ==== Sys2Proof/Machine/Sched.lean ====
section
/-! DEFINITION. Pacing and port scheduling (R346 to R366): flows, the timing wheel, finish tags, shapers, gates and the
choice of the next frame of a port. -/
namespace Sys2Proof.Machine

/-- A PKT_TX or PKT_RX record (R554, R555). -/
def tracePkt (c : Ctl) (d : Plane) (rx : Bool) (port qp peerQp peer part : Nat) (p : Pkt) (isSealed : Bool)
    (discarded duplicate : Bool) (layer : Word) : Plane :=
  if p.psn.toNat % 2 ^ bits (d.reg Reg.traceCfg) 19 16 ≠ 0 then d
  else
    traceRec c d (if rx then 2 else 1) part layer
      (leBytes 4 (peer % 2 ^ 20 + p.ptype * 2 ^ 24) ++ leBytes 3 qp ++ leBytes 3 peerQp ++ leBytes 4 p.psn.toNat
        ++ leBytes 1 port
        ++ leBytes 1 (b2n (nbit p.flags 5) + 2 * b2n isSealed + 4 * b2n discarded + 8 * b2n duplicate))

/-! ### Flows (R346, R350, R356) -/

/-- The flow of collective engine `e` to node `n` (R423). -/
def collKey (e n : Nat) : Nat := 2 ^ 20 * (1 + e) + n

def lineRate : Nat := 1600000

/-- MIN of R350 in Mb/s. -/
def minRate (d : Plane) : Nat := bits (d.reg Reg.paceLimits) 15 0 * 100

/-- The pacing rate of a queue pair in Mb/s (R350). -/
def qpRate (d : Plane) (q : Qp) : Nat :=
  min (if flag (d.reg Reg.paceCfg) 16 then q.rateD else lineRate) (if flag (d.reg Reg.paceCfg) 17 then q.rateE else lineRate)

/-- The pacing rate of a flow; every flow but a queue pair's is sent at LINE (R346, R423). -/
def flowRate (d : Plane) (key : Nat) : Nat := if key < 2 ^ 20 then max 1 (qpRate d (d.qp key)) else lineRate

/-- The weight of a flow (R356, R423). -/
def flowWeight (d : Plane) (key : Nat) : Nat :=
  max 1 (if key < 2 ^ 20 then bits (d.reg (Reg.partWeight (d.qp key).part)) 7 0
    else if key < 2 ^ 23 then bits (d.reg Reg.colCfg) 15 8 else bits (d.reg Reg.fwdWeight) 7 0)

/-! ### The timing wheel (R352 to R354) -/

def wheelSlots : Nat := 4096
def wheelSpan : Nat := 131072

/-- Place a flow on a slice's wheel or its overflow list by its next-send time (R352). -/
def placeFlow (c : Ctl) (d : Plane) (slice key : Nat) : Plane :=
  let f := d.flow key
  let w := d.wheel slice
  let t := max f.next (c.ns + 1)
  if t - c.ns < wheelSpan then
    let slot := ((t + 31) / 32) % wheelSlots
    (d.setFlow key { f with place := .slot slot }).setWheel slice { w with waiting := w.waiting ++ [(slot, key)] }
  else (d.setFlow key { f with place := .overflow }).setWheel slice { w with overflow := w.overflow ++ [key] }

/-- Take a flow off a slice's wheel. -/
def unplaceFlow (d : Plane) (slice key : Nat) : Plane :=
  let w := d.wheel slice
  (d.setFlow key { d.flow key with place := .idle }).setWheel slice
    { w with waiting := w.waiting.filter (·.2 != key), overflow := w.overflow.filter (· != key) }

/-- Move the overflow flows that are due within one revolution into their slots (R352). -/
def wrapWheel (c : Ctl) (d : Plane) (slice : Nat) : Plane :=
  let due := (d.wheel slice).overflow.filter fun k => decide ((d.flow k).next - c.ns < wheelSpan)
  let w := d.wheel slice
  due.foldl (fun d k => placeFlow c d slice k) (d.setWheel slice { w with overflow := w.overflow.filter fun k => !due.contains k })

/-- The next-send time after `w` wire bytes leave at a rate (R353). -/
def nextTime (c : Ctl) (next w rate : Nat) : Nat := max next (c.ns - 32) + ceilDiv (w * 8000) rate

/-! ### Finish tags (R355) -/

/-- Tag `a` is earlier than tag `b`. -/
def earlierTag (a b : BitVec 32) : Bool := decide ((b - a).toNat < 2 ^ 31)

def Port.cls (p : Port) (c : Nat) : ClassState := SMap.find {} p.classes c
def Port.onCls (p : Port) (c : Nat) (f : ClassState → ClassState) : Port :=
  { p with classes := SMap.put {} p.classes c (f (p.cls c)) }

/-- A flow presents a packet at a port (R355). -/
def present (d : Plane) (n : Nat) (h : Head) : Plane :=
  let k := (d.port n).cls h.cls
  let last := SMap.find 0 k.tags h.flow
  let start := if earlierTag k.virt last then last else k.virt
  let fin := start + BitVec.ofNat 32 (ceilDiv (h.wire * 256) (flowWeight d h.flow))
  (d.setFlow h.flow { d.flow h.flow with place := .port n }).onPort n fun p =>
    { p.onCls h.cls fun s => { s with tags := SMap.put 0 s.tags h.flow fin } with heads := p.heads ++ [{ h with finish := fin }] }

/-- The better of two heads: the earlier finish, ties to the lower flow. -/
def betterHead (a b : Head) : Head :=
  if a.finish = b.finish then (if a.flow ≤ b.flow then a else b) else if earlierTag a.finish b.finish then a else b

/-- The head of a class (R355). -/
def headOf (p : Port) (cls : Nat) : Option Head :=
  match p.heads.filter (·.cls == cls) with
  | [] => none
  | h :: hs => some (hs.foldl betterHead h)

/-- A forwarding flow with nothing presented presents its oldest queued frame (R356). -/
def presentQueued (d : Plane) (key : Nat) : Plane :=
  let f := d.flow key
  match f.place, f.queue with
  | .idle, (n, fr) :: rest =>
    let tc := getByte fr.body 3 % 8
    present (d.setFlow key { f with queue := rest }) n { flow := key, cls := tc, wire := wireLen fr, finish := 0, frame := fr, charge := wireLen fr }
  | _, _ => d

/-! ### Shapers (R358, R359) -/

def shapeRate (d : Plane) (n c : Nat) : Nat := bits (d.reg (Reg.shapeRate n c)) 14 0
def shapeCap (d : Plane) (n c : Nat) : Int := bits (d.reg (Reg.shapeBurst n c)) 15 0 * 1024 * 80

/-- The tokens of a bucket now, in units of 1/80 byte. -/
def tokensNow (c : Ctl) (d : Plane) (n cls : Nat) : Int :=
  let s := (d.port n).cls cls
  min (shapeCap d n cls) (s.tokens + (shapeRate d n cls * (c.ns - s.tokAt) : Nat))

def shaperAdmits (c : Ctl) (d : Plane) (n cls : Nat) : Bool := shapeRate d n cls == 0 || decide (0 ≤ tokensNow c d n cls)

/-- A frame of a shaped class starts. -/
def takeTokens (c : Ctl) (d : Plane) (n cls wire : Nat) : Plane :=
  if shapeRate d n cls = 0 then d
  else
    let t := tokensNow c d n cls
    d.onPort n fun p => p.onCls cls fun s => { s with tokens := t - (wire * 80 : Nat), tokAt := c.ns }

/-- A write to RATE or BURST of a bucket (R359). -/
def writeShaper (c : Ctl) (d : Plane) (n cls : Nat) (burst : Bool) (v : Word) : Plane :=
  let old := shapeRate d n cls
  let t := tokensNow c d n cls
  let d := d.writeReg (if burst then Reg.shapeBurst n cls else Reg.shapeRate n cls) v
  let t := if old = 0 then shapeCap d n cls else min t (shapeCap d n cls)
  d.onPort n fun p => p.onCls cls fun s => { s with tokens := t, tokAt := c.ns }

/-! ### Gates (R360 to R364) -/

/-- Offset of a tick in a schedule's period (R360). -/
def gateOffset (g : Gate) (t : Nat) : Nat := (((t : Int) - g.base.toNat) % (max 1 g.cycle : Nat)).toNat

/-- Ticks that a frame of `wire` wire bytes takes after its delimiter (R361). -/
def gateLen (wire : Nat) : Nat := ceilDiv (wire - 8) 50

/-- A frame fits the present window of its class (R361). -/
def gateFits (c : Ctl) (n cls wire : Nat) : Bool :=
  match c.gate n with
  | none => true
  | some g =>
    let o := gateOffset g c.now
    g.wins.any fun w => nbit w.mask cls && decide (w.openAt ≤ o) && decide (o + gateLen wire ≤ w.closeAt)

/-- A frame fits no window of its class (R362). -/
def neverFits (c : Ctl) (n cls wire : Nat) : Bool :=
  match c.gate n with
  | none => false
  | some g => !g.wins.any fun w => nbit w.mask cls && decide (gateLen wire ≤ w.closeAt - w.openAt)

/-- Some window of a gated port is open. -/
def inWindow (c : Ctl) (n : Nat) : Bool :=
  match c.gate n with
  | none => false
  | some g => let o := gateOffset g c.now; g.wins.any fun w => decide (w.openAt ≤ o) && decide (o < w.closeAt)

/-- Whether a window that admits the class is open now (R366 GATE_OPEN). -/
def gateOpen (c : Ctl) (n cls : Nat) : Bool :=
  match c.gate n with
  | none => true
  | some g =>
    let o := gateOffset g c.now
    g.wins.any fun w => nbit w.mask cls && decide (w.openAt ≤ o) && decide (o < w.closeAt)

/-! ### Class arbitration (R357) -/

def quantumOf (d : Plane) (n c : Nat) : Nat := bits (d.reg (Reg.quantum n c)) 11 0 * 256

/-- `allowed(c)` of R357 for the head of a class, with its sticky bits. -/
def allowed (c : Ctl) (d : Plane) (n cls : Nat) (h : Head) : Bool × Plane :=
  let sh := shaperAdmits c d n cls
  let g := gateFits c n cls h.wire
  let d := if sh then d else d.schStick n .shaperHold
  (sh && g, if g then d else d.schStick n .gateWait)

/-- The loop of R357; `fuel` is its 8 rounds. -/
def arbitrate (c : Ctl) (n : Nat) : Nat → Plane → Option Head × Plane
  | 0, d => (none, d)
  | fuel + 1, d =>
    let p := d.port n
    let cls := p.rr
    let skip (d : Plane) (empty : Bool) : Option Head × Plane :=
      arbitrate c n fuel (d.onPort n fun p =>
        { p.onCls cls fun s => { s with visited := false, deficit := if empty then 0 else s.deficit } with
          rr := (cls + 1) % 7 })
    match headOf p cls with
    | none => skip d true
    | some h =>
      let a := allowed c d n cls h
      if !a.1 then skip a.2 false
      else
        let s := p.cls cls
        let deficit := if s.visited then s.deficit else s.deficit + quantumOf d n cls
        if h.wire ≤ deficit then
          (some h, a.2.onPort n fun p => p.onCls cls fun s => { s with visited := true, deficit := deficit - h.wire })
        else skip (a.2.onPort n fun p => p.onCls cls fun s => { s with deficit := deficit }) false

/-- Take a head off its port. -/
def dropHead (d : Plane) (n : Nat) (h : Head) : Plane :=
  (d.onPort n fun p => { p with heads := p.heads.filter fun x => !(x.flow == h.flow) }).setFlow h.flow
    { d.flow h.flow with place := .idle }

/-- A new quantum caps the class's deficit (R357). -/
def writeQuantum (d : Plane) (n cls : Nat) (v : Word) : Plane :=
  let d := d.writeReg (Reg.quantum n cls) v
  d.onPort n fun p => p.onCls cls fun s => { s with deficit := min s.deficit (quantumOf d n cls) }

end Sys2Proof.Machine
end

