-- ==== Sys2Proof/Machine/Cipher.lean ====
section
/-! DEFINITION. The link cipher (R479 to R497): key slots and their commands, counters, the scheduler of the cores. -/
namespace Sys2Proof.Machine

/-! ### Key slots (R479 to R489) -/

def KeySlot.phase (k : KeySlot) (p : Bool) : KeyPhase := if p then k.p1 else k.p0
def KeySlot.setPhase (k : KeySlot) (p : Bool) (x : KeyPhase) : KeySlot := if p then { k with p1 := x } else { k with p0 := x }

/-- A slot whose phases are both empty is empty (R487). -/
def KeySlot.settle (k : KeySlot) : KeySlot := if k.p0.loaded || k.p1.loaded then k else {}

/-- Seals after which a phase is exhausted, and at which REKEY is written (R488, R489). -/
def hardLimit : Nat := 2 ^ 32
def softLimit : Nat := 2 ^ 30

/-- The partition whose slot range holds a key slot (R482, R498). -/
def partOfKey (d : Plane) (slot : Nat) : Option Nat :=
  (d.parts.find? fun x => decide (x.2.keys.base * 256 ≤ slot) &&
    decide (slot < (x.2.keys.base + x.2.keys.count) * 256)).map (·.1)

/-- The REKEY event (R488). -/
def rekeyEvent (c : Ctl) (d : Plane) (slot : Nat) (phase : Bool) (reason count : Nat) : Plane :=
  match partOfKey d slot with
  | none => d
  | some p => pushEvent c d p 5 (leBytes 2 slot ++ leBytes 1 (b2n phase) ++ leBytes 1 reason ++ [0, 0, 0, 0] ++ leBytes 8 count)

/-- What a seal request draws as it enters the scheduler (R479): the COUNTER field and the key. -/
structure Drawn where
  counter : DWord
  nonce : List Byte
  key : BitVec 256
  m410 : Bool
  deriving DecidableEq, Repr

/-- The nonce of a key's salt and a COUNTER (R479). -/
def nonceOf (salt : BitVec 32) (counter : DWord) : List Byte := beBytes 4 salt.toNat ++ beBytes 8 counter.toNat

/-- The COUNTER field: the phase in bit 63 and the count (R479). -/
def counterOf (phase : Bool) (count : Nat) : DWord := BitVec.ofNat 64 (b2n phase * 2 ^ 63 + count % 2 ^ 32)

/-- The active loaded phase of a SEAL slot (R487). -/
def activePhase (k : KeySlot) : Option Bool :=
  match k.active with
  | some p => if k.use = 1 ∧ (k.phase p).loaded then some p else none
  | none => none

/-- DETAIL bit 16 of KEY_EXHAUSTED: the active phase is spent (R489). -/
def keySpent (d : Plane) (slot : Nat) : Bool :=
  match activePhase (d.key slot) with
  | some p => decide (hardLimit ≤ ((d.key slot).phase p).count)
  | none => false

/-- Draw the next COUNTER of a slot, with the events of its limits; `none` when the slot cannot seal (R488, R489). -/
def drawSeal (c : Ctl) (d : Plane) (slot : Nat) : Option Drawn × Plane :=
  let k := d.key slot
  match activePhase k with
  | none => (none, d)
  | some p =>
    let x := k.phase p
    if hardLimit ≤ x.count then (none, d)
    else
      let n := counterOf p x.count
      let count := x.count + 1
      let d := d.setKey slot (k.setPhase p { x with count := count })
      let d := if count = softLimit then rekeyEvent c (d.cipStick .soft) slot p 0 count else d
      let d := if count = hardLimit then rekeyEvent c (d.cipStick .exhausted) slot p 1 count else d
      (some ⟨n, nonceOf x.salt n, x.key, k.m410⟩, d)

/-- The key that opens a packet, when the checks of R481 pass. -/
def openKey (d : Plane) (slot : Nat) (counter : DWord) : Option Drawn :=
  let k := d.key slot
  let x := k.phase (counter.getLsbD 63)
  if k.use = 2 ∧ x.loaded ∧ (counter.toNat / 2 ^ 32) % 2 ^ 31 = 0 then some ⟨counter, nonceOf x.salt counter, x.key, k.m410⟩
  else none

/-! ### Cores and the scheduler (R490 to R495) -/

/-- State of cipher core `n`: 0 in service, 1 reserve, 2 retired (R490, R568). -/
def Ctl.coreState (c : Ctl) (n : Nat) : BitVec 2 := SMap.find (if n < 96 then 0 else 1) c.flash.coreState n

/-- Work queued on a core in cycles. -/
def coreLoad (d : Plane) (core : Nat) : Nat :=
  ((d.cip.reqs.filter fun r => r.core == core && !r.finished).map (·.work)).sum

/-- The core in service with the least queued work, the lowest such (R490). -/
def leastCore (c : Ctl) (d : Plane) : Nat :=
  ((List.range 104).filter fun n => c.coreState n == 0).foldl
    (fun best n => if coreLoad d n < coreLoad d best then n else best)
    (((List.range 104).find? fun n => c.coreState n == 0).getD 0)

/-- The core of a request: the compatibility core of a quadrant for an M410 slot (R495). -/
def coreFor (c : Ctl) (d : Plane) (m410 : Bool) (quad : Nat) : Nat := if m410 then 104 + quad else leastCore c d

/-- Cycles of a request (R491); 15 for each block on a compatibility core (R495). -/
def coreWork (m410 : Bool) (a b : Nat) : Nat := if m410 then 15 * ceilDiv (a + b) 16 else ceilDiv (a + b) 128 + 3

/-- Put a request into the scheduler. -/
def enterCipher (d : Plane) (r : CipReq) : Plane := { d with cip := { d.cip with reqs := d.cip.reqs ++ [r] } }

/-- Fault source of a core: a cipher core, or the compatibility core of a quadrant (R513). -/
def coreSource (core : Nat) : Nat := if core < 104 then 0x200 + core else 0x268 + (core - 104)

/-- The oldest unfinished request of a core finishes, with a parity error or without (R493). -/
def finishCore (d : Plane) (core : Nat) (parity : Bool) : Plane :=
  let hit (r : CipReq) : Bool := r.core == core && !r.finished
  match d.cip.reqs.find? hit with
  | none => d
  | some _ =>
    let d := { d with cip := { d.cip with reqs := modFirst hit (fun r => { r with finished := true, lost := parity }) d.cip.reqs } }
    if parity then (d.cipStick .coreParity).raise (coreSource core) 0x01 else d

/-- The next result that leaves the scheduler: a finished request with none of its group before it (R490). -/
def nextResult : List CipReq → List Nat → Option CipReq
  | [], _ => none
  | r :: rs, held =>
    if held.contains r.group then nextResult rs held
    else if r.finished then some r
    else nextResult rs (r.group :: held)

/-- Take a result out of the scheduler. -/
def takeResult (d : Plane) : Option (CipReq × Plane) :=
  match nextResult d.cip.reqs [] with
  | none => none
  | some r => some (r, { d with cip := { d.cip with reqs := d.cip.reqs.erase r } })

/-- The bytes of a sealed packet: the authenticated data, the ciphertext and the tag (R281). -/
def CipReq.sealed (r : CipReq) : List Byte :=
  let x := gcmSeal r.key r.nonce r.aad r.text
  r.aad ++ x.1 ++ x.2

/-- The payload of an opened packet; `none` when its tag does not verify. -/
def CipReq.opened (r : CipReq) : Option (List Byte) :=
  gcmOpen r.key r.nonce r.aad (r.text.take (r.text.length - 16)) (r.text.drop (r.text.length - 16))

/-! ### Key commands (R484 to R487, R496, R497) -/

def Plane.cipCmd (d : Plane) (f : Nat) : CmdStat := SMap.find {} d.cip.cmds f
def Plane.setCipCmd (d : Plane) (f : Nat) (x : CmdStat) : Plane := { d with cip := { d.cip with cmds := SMap.put {} d.cip.cmds f x } }

/-- The function that a register access belongs to: 0 the physical function, 1 + v a virtual function. -/
def viaFn : Via → Nat
  | .bar _ => 0
  | .vf v => 1 + v.val

/-- Where the model keeps the key buffer register of a function. -/
def keyBufOf (f : Nat) : Nat := if f = 0 then Reg.keyBuf else Reg.vf (f - 1) 0x40008

/-- A function may name a slot (R497, R509). -/
def slotAllowed (d : Plane) (f slot : Nat) : Bool :=
  if f = 0 then true else (d.vf (f - 1)).bound && partOfKey d slot == some (d.vf (f - 1)).part

/-- LOAD has been written: the record is read next (R485). -/
def keyLoad (d : Plane) (f slot : Nat) : Plane :=
  let x := d.cipCmd f
  if x.busy then d
  else if !slotAllowed d f slot then d.setCipCmd f { x with last := 1, result := 1 }
  else d.setCipCmd f { x with busy := true, last := 1, target := slot }

/-- The key octets of a record (R484, R494): the M410 image holds eight words, most significant first, each little-endian. -/
def recordKey (r : List Byte) : BitVec 256 :=
  BitVec.ofNat 256 (beNat (if getByte r 0 = 2 then ((chunksOf 4 8 (slice r 24 32)).map List.reverse).flatten else slice r 8 32))

def recordSalt (r : List Byte) : BitVec 32 := BitVec.ofNat 32 (beNat (if getByte r 0 = 2 then slice r 8 4 else slice r 4 4))

/-- Every field of a record passes R484. -/
def recordOk (r : List Byte) : Bool :=
  let form := getByte r 0
  let use := getByte r 1
  let phase := getByte r 2
  let flags := getByte r 3
  (form == 1 || form == 2) && (use == 1 || use == 2) && decide (phase ≤ 1) && decide (flags ≤ 1) && allZero (slice r 56 4)
    && decide (getLe r 60 4 = (crc32c (r.take 60)).toNat)
    && (if form = 1 then allZero (slice r 40 16)
        else phase == 0 && (use != 1 || flags == 1) && allZero (slice r 4 4) && allZero (slice r 18 6))

/-- RESULT of a LOAD whose record has been read (R485, R494, R497). -/
def loadResult (k : KeySlot) (r : List Byte) : Nat :=
  let phase := decide (getByte r 2 = 1)
  if !recordOk r then 2
  else if activePhase k = some phase then 3
  else if k.use ≠ 0 ∧ k.use ≠ getByte r 1 then 4
  else if getByte r 0 = 2 ∧ hardLimit ≤ getLe r 12 6 then 5
  else 0

/-- The slot after an accepted LOAD. -/
def loadedSlot (k : KeySlot) (r : List Byte) : KeySlot :=
  let phase := decide (getByte r 2 = 1)
  let m410 := decide (getByte r 0 = 2)
  let k := k.setPhase phase
    { loaded := true, key := recordKey r, salt := recordSalt r, count := if m410 then getLe r 12 6 else 0 }
  { k with
    use := getByte r 1, m410 := m410
    active := if getByte r 1 = 1 ∧ getByte r 3 % 2 = 1 then some phase else k.active }

/-- A function whose LOAD waits for its record. -/
def loadWaiting (d : Plane) : Option Nat := (d.cip.cmds.find? fun x => x.2.busy).map (·.1)

/-- The record has been read: it is checked and zeroed, and the phase is filled or the LOAD refused (R485). -/
def recordRead (c : Ctl) (d : Plane) (ok : Bool) : Plane :=
  match loadWaiting d with
  | none => d
  | some f =>
    let x := d.cipCmd f
    let buf := keyBufOf f
    let loc := flag (d.reg buf) 0
    let a := (d.reg (buf + 4)).toNat * 2 ^ 32 + bits (d.reg buf) 31 6 * 64
    let r := readLoc c d f loc a 64
    let d := r.2
    match (if ok then r.1 else none) with
    | none => d.setCipCmd f { x with busy := false, result := 6 }
    | some bs =>
      let k := d.key x.target
      let res := loadResult k bs
      let d := if res = 0 then (writeLoc c d f loc a (List.replicate 64 0)).setKey x.target (loadedSlot k bs) else d
      d.setCipCmd f { x with busy := false, result := res }

/-- CLEAR of one phase (R487). -/
def keyClear (d : Plane) (f slot : Nat) (phase : Bool) : Plane :=
  let x := d.cipCmd f
  if x.busy then d
  else if !slotAllowed d f slot then d.setCipCmd f { x with last := 2, result := 1 }
  else
    let k := d.key slot
    let k := { k.setPhase phase {} with active := if k.active = some phase then none else k.active }
    (d.setKey slot k.settle).setCipCmd f { x with last := 2, result := 0 }

/-- ACTIVATE of a loaded phase of a SEAL slot (R487, R497). -/
def keyActivate (d : Plane) (f slot : Nat) (phase : Bool) : Plane :=
  let x := d.cipCmd f
  if x.busy then d
  else if !slotAllowed d f slot then d.setCipCmd f { x with last := 3, result := 1 }
  else
    let k := d.key slot
    if k.use = 1 ∧ (k.phase phase).loaded then
      (d.setKey slot { k with active := some phase }).setCipCmd f { x with last := 3, result := 0 }
    else d.setCipCmd f { x with last := 3, result := 7 }

/-- The three words of CIP_SLOT_INFO (R497). -/
def slotInfoWords (d : Plane) (slot : Nat) : Word × Word × Word :=
  let k := d.key slot
  let shown := if k.use = 2 then k.p0.count else match k.active with | some p => (k.phase p).count | none => 0
  let spent (x : KeyPhase) : Bool := decide (hardLimit ≤ x.count)
  (field k.use 2 0 ||| bitIf k.m410 2 ||| bitIf (k.active == some true) 3 ||| bitIf k.p0.loaded 4 ||| bitIf k.p1.loaded 5
      ||| bitIf (spent k.p0) 6 ||| bitIf (spent k.p1) 7 ||| field ((partOfKey d slot).getD 0) 5 8,
    BitVec.ofNat 32 shown, BitVec.ofNat 32 (shown / 2 ^ 32))

/-- CIP_SLOT_READ by a function (R496, R509): a slot the function may not name reads as zero. -/
def slotRead (d : Plane) (f slot : Nat) : Plane :=
  let w := if slotAllowed d f slot then slotInfoWords d slot else (0, 0, 0)
  let a := if f = 0 then Reg.slotInfo 0 else Reg.vf (f - 1) 0x40024
  ((d.setReg a w.1).setReg (a + 4) w.2.1).setReg (a + 8) w.2.2

end Sys2Proof.Machine
end

