-- ==== Sys2Proof/Machine/Qp.lean ====
section
/-! DEFINITION. Queue-pair contexts (R290 to R308, R333 to R335): their image, the packets they send, acknowledgements,
residency, and leaving READY. -/
namespace Sys2Proof.Machine

/-! ### Numbers -/

def QpState.num : QpState → Nat
  | .free => 0 | .init => 1 | .connecting => 2 | .ready => 3 | .error => 4

/-- Distance of a PSN past another, modulo 2^32. -/
def psnDist (a b : BitVec 32) : Nat := (a - b).toNat

/-- Packets of a message of `n` bytes at effective payload `p` (R285). -/
def packetsOf (n p : Nat) : Nat := max 1 (ceilDiv n p)

/-- The partition whose queue-pair quota holds `q` (R498). -/
def partOfQp (d : Plane) (q : Nat) : Option Nat :=
  (d.parts.find? fun x => decide (x.2.qps.base * 1024 ≤ q) && decide (q < (x.2.qps.base + x.2.qps.count) * 1024)).map (·.1)

/-! ### The context image (R291) -/

/-- The 256-byte image that QUERY returns. -/
def qpImage (q : Qp) : List Byte :=
  if q.state = .free then List.replicate 256 0
  else
    leBytes 1 q.state.num ++ leBytes 1 (b2n q.isSealed + 2 * b2n q.fabric + 4 * b2n q.ipv6 + 8 * b2n q.pin) ++ leBytes 1 q.tc
      ++ leBytes 1 q.part ++ leBytes 4 q.peerNode ++ leBytes 4 q.peerQp ++ leBytes 2 q.peerInc.toNat ++ leBytes 1 q.version
      ++ leBytes 1 q.home ++ leBytes 2 (if q.version = 0 then q.offerPayload else q.payload) ++ leBytes 2 q.entropy
      ++ leBytes 2 q.cq ++ leBytes 2 q.srq ++ leBytes 2 (if q.version = 0 then q.offerWindow else q.window)
      ++ leBytes 2 q.txKey ++ leBytes 2 q.rxKey ++ leBytes 2 q.peerRxKey ++ leBytes 8 q.offerCaps.toNat
      ++ leBytes 8 q.caps.toNat ++ leBytes 4 q.initPsn.toNat ++ leBytes 4 q.sendPsn.toNat ++ leBytes 4 q.unaPsn.toNat
      ++ leBytes 4 q.recvPsn.toNat ++ leBytes 6 q.peerMac.toNat ++ [0, 0] ++ fitTo 16 q.localIp ++ fitTo 16 q.peerIp
      ++ leBytes 1 q.lastStatus ++ leBytes 1 q.retries ++ List.replicate 150 0

/-- The fields that software sets, read from an image. -/
def qpFromImage (bs : List Byte) : Qp :=
  let fl := getByte bs 1
  { state := .init, isSealed := nbit fl 0, fabric := nbit fl 1, ipv6 := nbit fl 2, pin := nbit fl 3, tc := getByte bs 2
    part := getByte bs 3, peerNode := getLe bs 4 4, peerQp := getLe bs 8 4, home := getByte bs 15
    offerPayload := getLe bs 16 2, payload := getLe bs 16 2, entropy := getLe bs 18 2, cq := getLe bs 20 2
    srq := getLe bs 22 2, offerWindow := getLe bs 24 2, window := getLe bs 24 2, txKey := getLe bs 26 2
    rxKey := getLe bs 28 2, offerCaps := BitVec.ofNat 64 (getLe bs 32 8), initPsn := BitVec.ofNat 32 (getLe bs 48 4)
    sendPsn := BitVec.ofNat 32 (getLe bs 48 4), tailPsn := BitVec.ofNat 32 (getLe bs 48 4)
    unaPsn := BitVec.ofNat 32 (getLe bs 48 4), peerMac := BitVec.ofNat 48 (getLe bs 64 6), localIp := slice bs 72 16
    peerIp := slice bs 88 16 }

/-- IPv4 addresses are carried in the IPv4-mapped form (R291). -/
def ipOk (v6 : Bool) (a : List Byte) : Bool :=
  v6 || (allZero (a.take 10) && slice a 10 2 == [0xFF, 0xFF])

/-- Whether a key slot lies in a partition's slot range (R483). -/
def keyInPart (d : Plane) (p slot : Nat) : Bool :=
  let r := (d.part p).keys
  decide (r.base * 256 ≤ slot) && decide (slot < (r.base + r.count) * 256)

/-- The checks of CREATE and MODIFY on the fields of R291, in image order: the offset of the first one that fails. PAYLOAD and
WINDOW are the device's once the context has connected. -/
def qpFieldBad (c : Ctl) (d : Plane) (part : Nat) (connected : Bool) (bs : List Byte) : Option Nat :=
  let q := qpFromImage bs
  let checks : List (Nat × Bool) :=
    [ (1, decide (getByte bs 1 < 16)),
      (2, decide (q.tc ≤ 6)),
      (3, q.part == part),
      (4, decide (q.peerNode < 2 ^ 20 - 1) && q.peerNode != c.selfNode),
      (8, decide (q.peerQp < 2 ^ 20)),
      (15, decide (q.home < 4)),
      (16, connected || (decide (256 ≤ q.offerPayload) && decide (q.offerPayload ≤ 8192) && q.offerPayload % 256 == 0)),
      (18, !q.fabric || decide (0xC000 ≤ q.entropy)),
      (20, decide (q.cq < 8192) && (d.cq q.cq).enabled && !d.cmpKind q.cq && d.cmpPart q.cq == part),
      (22, q.srq == 0xFFFF || (d.rings.any fun r => r.2.state != .disabled && d.wrgKind r.1 && d.wrgSrq r.1 == q.srq
        && d.wrgPart r.1 == part)),
      (24, connected || (decide (1 ≤ q.offerWindow) && decide (q.offerWindow ≤ 2048))),
      (26, if q.isSealed then keyInPart d part q.txKey else q.txKey == 0),
      (28, if q.isSealed then keyInPart d part q.rxKey else q.rxKey == 0),
      (32, decide (q.offerCaps.toNat < 32) && (!q.isSealed || q.offerCaps.getLsbD 0)),
      (64, q.fabric || q.peerMac == 0),
      (70, allZero (slice bs 70 2)),
      (72, if q.fabric then ipOk q.ipv6 q.localIp else allZero q.localIp),
      (88, if q.fabric then ipOk q.ipv6 q.peerIp else allZero q.peerIp),
      (106, allZero (slice bs 106 150)) ]
  (checks.find? fun x => !x.2).map (·.1)

/-- The fields that MODIFY may not change outside INIT, with their offsets (R291, R297, log 65): all that software sets but TC,
ENTROPY and PIN, and once connected but PAYLOAD and WINDOW, which are the device's then. -/
def qpSoft (connected : Bool) (q : Qp) : List (Nat × List Byte) :=
  (if connected then [] else [(16, leBytes 2 q.offerPayload), (24, leBytes 2 q.offerWindow)]) ++
  [ (1, leBytes 1 (b2n q.isSealed + 2 * b2n q.fabric + 4 * b2n q.ipv6)), (3, leBytes 1 q.part), (4, leBytes 4 q.peerNode),
    (8, leBytes 4 q.peerQp), (15, leBytes 1 q.home), (20, leBytes 2 q.cq), (22, leBytes 2 q.srq), (26, leBytes 2 q.txKey), (28, leBytes 2 q.rxKey), (32, leBytes 8 q.offerCaps.toNat),
    (48, leBytes 4 q.initPsn.toNat), (64, leBytes 6 q.peerMac.toNat), (72, q.localIp), (88, q.peerIp) ]

/-! ### Residency (R298 to R303) -/

/-- A context of a slice that is resident or being fetched. -/
def inSlice (d : Plane) (slice : Nat) : List (Nat × Qp) := d.qps.filter fun x => x.2.home == slice && x.2.state != .free

def residents (d : Plane) (slice : Nat) : Nat := ((inSlice d slice).filter (·.2.resident)).length
def pinned (d : Plane) (slice : Nat) : Nat := ((inSlice d slice).filter (·.2.pin)).length

/-- Resident contexts, pinned contexts, parked packets and outstanding fetches of a slice at most (R298, R301). -/
def residentRoom (d : Plane) (slice : Nat) : Nat := 4096 - 256 * SMap.find 0 d.xpt.banksLost slice
def pinRoom : Nat := 2048
def missRoom : Nat := 512
def fetchRoom : Nat := 64

def Plane.parked (d : Plane) (slice : Nat) : List (Nat × RxPkt) := SMap.find [] d.xpt.miss slice
def Plane.setParked (d : Plane) (slice : Nat) (l : List (Nat × RxPkt)) : Plane :=
  { d with xpt := { d.xpt with miss := SMap.put [] d.xpt.miss slice l } }

/-- A context may be evicted (R299). -/
def evictable (d : Plane) (n : Nat) (q : Qp) : Bool :=
  q.resident && !q.pin && (d.flow n).place == .idle && !(d.parked q.home).any (·.1 == n) && !d.xpt.destroying.contains n
    && !(d.xpt.cmds.any fun x => x.2.busy && x.2.target == n) && !d.xpt.writeback.contains n

/-- The least recently used context that may be evicted from a slice. -/
def victim (d : Plane) (slice : Nat) : Option Nat :=
  (((inSlice d slice).filter fun x => evictable d x.1 x.2).foldl
    (fun (best : Option (Nat × Qp)) x => match best with
      | none => some x
      | some b => if x.2.usedAt < b.2.usedAt then some x else some b) none).map (·.1)

/-- Start the write-back of a victim when a slice has no free entry for a fetch. -/
def makeRoom (d : Plane) (slice : Nat) : Plane :=
  let waiting := min fetchRoom (d.xpt.fetching.filter fun n => (d.qp n).home == slice).length
  let leaving := (d.xpt.writeback.filter fun n => (d.qp n).home == slice).length
  if residents d slice + waiting ≤ residentRoom d slice + leaving then d
  else match victim d slice with
    | none => d
    | some n => { d with xpt := { d.xpt with writeback := d.xpt.writeback ++ [n] } }

/-- A context of a slice may have come to qualify: the fetches that wait for an entry have their victims chosen (R299). -/
def freeRoom (d : Plane) (slice : Nat) : Plane :=
  if d.xpt.fetching.isEmpty then d else (List.range fetchRoom).foldl (fun d _ => makeRoom d slice) d

/-- A context is used now (R299); a use cancels its eviction (R300). -/
def touchQp (c : Ctl) (d : Plane) (n : Nat) : Plane :=
  let d := d.onQp n fun q => { q with usedAt := c.ns }
  if d.xpt.writeback.contains n then
    { d with xpt := { d.xpt with writeback := d.xpt.writeback.erase n, cancelled := d.xpt.cancelled ++ [n] } }
  else d

/-- Ask for a context that is not resident (R301). -/
def fetchQp (d : Plane) (n : Nat) : Plane :=
  if (d.qp n).resident || d.xpt.fetching.contains n then d
  else freeRoom { d with xpt := { d.xpt with fetching := d.xpt.fetching ++ [n] } } (d.qp n).home

/-- Whether a fetch is among the 64 outstanding ones of its slice and has an entry to go to (R299, R301). -/
def fetchRuns (d : Plane) (n : Nat) : Bool :=
  let slice := (d.qp n).home
  (((d.xpt.fetching.filter fun m => (d.qp m).home == slice).take fetchRoom).contains n)
    && decide (residents d slice < residentRoom d slice)

/-- Base and LOC of the backing region of a queue pair, and whether it is VALID (R290, R304). -/
def regionOfQp (d : Plane) (n : Nat) : Bool × Bool × Nat :=
  let a := Reg.region (n / 65536)
  let lo := d.reg a
  (flag lo 0, flag lo 1, (d.reg (a + 4)).toNat * 2 ^ 32 + bits lo 31 26 * 2 ^ 26)

/-- Address of a context in its region. -/
def contextAddr (d : Plane) (n : Nat) : Nat := (regionOfQp d n).2.2 + (n % 65536) * 1024

/-- The 1,024 bytes of a written-back context reach its region: the image, and the 768 private bytes, which are free
(R290, R299, log 6). -/
def writeContext (c : Ctl) (d : Plane) (n : Nat) : Plane :=
  let r := d.drawBytes 768
  writeLoc c r.2 0 (regionOfQp d n).2.1 (contextAddr d n) (qpImage (d.qp n) ++ r.1)

/-! ### Packets of a queue pair -/

/-- The header of a packet that queue pair `n` sends. -/
def qpPkt (c : Ctl) (q : Qp) (n ptype flags tc : Nat) (psn : BitVec 32) (msgLen offset : Nat) (ext payload : List Byte) : Pkt :=
  { ptype := ptype, flags := flags, tc := tc, dst := q.peerNode, src := c.selfNode, dstQp := q.peerQp, srcQp := n
    inc := c.dev.incarnation, psn := psn, msgLen := msgLen, offset := offset, ext := ext, payload := payload }

/-- GXT bytes as a frame of port `n` for a queue pair (R262, R263). -/
def wrapGxt (c : Ctl) (d : Plane) (n : Nat) (q : Qp) (tc : Nat) (raw : List Byte) : Frame :=
  if q.fabric then
    padFrame
      { da := q.peerMac, sa := c.mac n, tags := c.tagFor n tc, etype := if q.ipv6 then 0x86DD else 0x0800
        body := ipHeaders q.ipv6 (dscpOf d tc) q.entropy (c.udpPort n) q.localIp q.peerIp raw ++ raw }
  else gxtFrame c n tc originHops raw

/-- The next hop of a packet that a queue pair sends to a node (R174, R175, R292): none while sending is not allowed, without a
route, with a route of the other kind, or with no usable hop. -/
def hopTo (c : Ctl) (d : Plane) (q : Qp) (node tc dstQp : Nat) : Option Nat :=
  if !c.maySend then none
  else match c.route node with
    | none => none
    | some r =>
      if r.fabric != q.fabric then none
      else chooseHop d r (usableHops c d r tc false) tc c.selfNode dstQp

/-- The next hop of a packet to the peer of a queue pair. -/
def qpHop (c : Ctl) (d : Plane) (q : Qp) (tc dstQp : Nat) : Option Nat := hopTo c d q q.peerNode tc dstQp

/-- Wire bytes of a packet of a queue pair on a port, sealed or not. -/
def pktWire (c : Ctl) (d : Plane) (n : Nat) (q : Qp) (p : Pkt) (isSealed : Bool) : Nat :=
  wireLen (wrapGxt c d n q p.tc (p.bytes ++ List.replicate (if isSealed then 32 else 0) 0))

/-- Send a class-7 packet of a queue pair, sealed when the queue pair is (R277, R348, R480). A packet whose slot cannot
seal is not sent and fails the queue pair (R489). `since`: the arrival of the packet that an acknowledgement answers. -/
def sendClass7 (c : Ctl) (d : Plane) (n : Nat) (p : Pkt) (mayBeSealed : Bool) (since : Option Nat := none) : Plane :=
  let q := d.qp n
  match hopTo c d q p.dst 7 p.dstQp with
  | none => d
  | some port =>
    if q.isSealed && mayBeSealed then
      let r := drawSeal c d q.txKey
      match r.1 with
      | none => { r.2 with effects := r.2.effects ++ [.keyless n] }
      | some k =>
        enterCipher r.2
          { core := coreFor c r.2 k.m410 (port / 12), work := coreWork k.m410 (p.aad k.counter q.peerRxKey).length p.payload.length
            group := port
            sealing := some { flow := n, cls := 7, wire := 0, finish := 0, frame := wrapGxt c r.2 port q 7 [], qp := some n, since := since }
            aad := p.aad k.counter q.peerRxKey, text := p.payload, nonce := k.nonce, key := k.key }
    else match since with
      | none => d.queue7 port (wrapGxt c d port q 7 p.bytes)
      | some t => queueAck d port (wrapGxt c d port q 7 p.bytes) t none

/-! ### Acknowledgements (R275 to R277, R312) -/

def ackAck : Nat := 0
def ackGap : Nat := 1
def ackBusy : Nat := 2
def ackAccess : Nat := 3
def ackFenced : Nat := 4
def ackNoQp : Nat := 5

/-- The bitmap of R275: bit i of byte 47 counted down for PSN CUM_PSN + 1 + i. -/
def ackBitmap (q : Qp) : List Byte :=
  let offs := (q.got.map fun p => psnDist p.1 q.recvPsn).filter fun o => decide (1 ≤ o) && decide (o ≤ 256)
  beBytes 32 ((offs.map fun o => 2 ^ (o - 1)).sum)

/-- The ACK extension (R275); HOLD_NS is filled in when it departs. -/
def ackExt (code detail retry : Nat) (cum trigger : BitVec 32) (ce : Nat) (bitmap : List Byte) : List Byte :=
  beBytes 1 code ++ beBytes 1 detail ++ beBytes 2 retry ++ beBytes 4 cum.toNat ++ beBytes 4 trigger.toNat
    ++ [0, 0] ++ beBytes 1 (min ce 255) ++ [0] ++ bitmap

/-- Send an acknowledgement of queue pair `n` to a node and its queue pair; CODE 0 and NAK_GAP start the count and delay of R312
anew. -/
def sendAckTo (c : Ctl) (d : Plane) (n node qp code detail retry : Nat) (trigger : BitVec 32) (since : Nat) : Plane :=
  let q := d.qp n
  let ext := ackExt code detail retry q.recvPsn trigger (if q.fabric then q.ceCount else 0) (ackBitmap q)
  let d := if code ≤ ackGap then d.setQp n { q with ackCount := 0, ackSince := 0, ceCount := 0 } else d.setQp n { q with ceCount := 0 }
  sendClass7 c d n { qpPkt c q n ptAck 6 7 0 0 0 ext [] with dst := node, dstQp := qp } true (some since)

/-- Send an acknowledgement of queue pair `n` to its peer. -/
def sendAck (c : Ctl) (d : Plane) (n code detail retry : Nat) (trigger : BitVec 32) (since : Nat) : Plane :=
  sendAckTo c d n (d.qp n).peerNode (d.qp n).peerQp code detail retry trigger since

/-- The port and frame of a class-7 reply to a packet that names queue pair `n`, never sealed: by the context's addresses and its
kind of route when the context's peer is the sender (R263, R292), else as a reply without a context. -/
def replyTo (c : Ctl) (d : Plane) (n : Nat) (p : Pkt) (back : Option (Nat × Frame)) : Option (Nat × Frame) :=
  let q := d.qp n
  if q.state = .free ∨ q.peerNode ≠ p.dst then replyVia c d p back
  else (qpHop c d q 7 p.dstQp).map fun port => (port, wrapGxt c d port q 7 p.bytes)

/-- A NO_QP reply to a packet (R276, R277, R289), which arrived at `since`; NO_QP says that one was sent (R307). -/
def sendNoQp (c : Ctl) (d : Plane) (p : Pkt) (detail since : Nat) (back : Option (Nat × Frame)) : Plane :=
  let q := d.qp p.dstQp
  let reply : Pkt :=
    { ptype := ptAck, dst := p.src, src := c.selfNode, dstQp := p.srcQp, srcQp := p.dstQp, inc := c.dev.incarnation
      ext := ackExt ackNoQp detail 0 q.recvPsn p.psn 0 (ackBitmap q) }
  match replyTo c d p.dstQp reply back with
  | none => d
  | some (port, f) => queueAck (d.rxStick .noQp) port f since none

/-! ### Entries of a queue pair -/

/-- The fetched entries that name a queue pair, as (ring, index), in ring order: those waiting or outstanding (R296). -/
def entriesOf (d : Plane) (n : Nat) : List (Nat × BitVec 16) :=
  (d.rings.map fun r =>
    if d.wrgKind r.1 then []
    else (r.2.fetched.filter fun e => decide (1 ≤ e.opcode ∧ e.opcode ≤ 6) && e.qp == n).map fun e => (r.1, e.index)).flatten

/-- Complete entries with one status and DETAIL. -/
def completeAll (c : Ctl) (status : Nat) (detail : Word) (l : List (Nat × BitVec 16)) (d : Plane) : Plane :=
  l.foldl (fun d x => failEntry c d x.1 x.2 status detail) d

/-! ### Windows in flight (R214) -/

/-- An accepted access to window `w` finishes (R214, R215). -/
def winDone (d : Plane) (w : Nat) : Plane := d.setWin w { d.win w with inflight := (d.win w).inflight - 1 }

/-- A CLOSING window with no accepted access left closes, and its revoke completes (R214). -/
def windowClosed (c : Ctl) (d : Plane) (w : Nat) : Plane :=
  let x := d.win w
  if x.state = .closing ∧ x.inflight = 0 then
    let d := d.setWin w { x with state := .closed, gen := x.gen + 1, revoke := none }
    match x.revoke with
    | some (k, i) => finishEntry c d k i {}
    | none => d
  else d

/-! ### Accesses of veins through remote leaves (R194) -/

/-- The owner that a message of a vein names in place of a ring. -/
def veinRing (v slot : Nat) : Nat := 8192 + 16 * v + slot

/-- Change the access under way of a message's owner. -/
def onRemote (d : Plane) (ring : Nat) (f : RemoteAcc → RemoteAcc) : Plane :=
  d.onVein ((ring - 8192) / 16) fun x => { x with
    remote := modFirst (fun r => r.slot == (ring - 8192) % 16 && r.ended.isNone) f x.remote }

/-- An access through a remote leaf ends with a status. -/
def remoteEnd (d : Plane) (ring status : Nat) : Plane :=
  if ring < 8192 then d else onRemote d ring fun r => { r with ended := some status }

/-- Bytes of a READ response reach an access through a remote leaf. -/
def remoteFill (d : Plane) (ring va : Nat) (bs : List Byte) : Plane :=
  onRemote d ring fun r => { r with bytes := r.bytes.take (va - r.va) ++ bs ++ r.bytes.drop (va - r.va + bs.length) }

/-! ### Leaving READY (R333, R335) -/

/-- The bytes of a placement reach memory and its window's access finishes. -/
def putPlacement (c : Ctl) (d : Plane) (x : Placement) : Plane :=
  let d := writePieces c (ownerFn d x.part) x.phys x.bytes d
  match x.win with
  | some w => winDone d w
  | none => d

/-- Take a queue pair's flow off the wheel, out of the ports and out of the cipher scheduler. -/
def stopFlow (d : Plane) (n : Nat) : Plane :=
  let d := unplaceFlow d (d.qp n).home n
  let lose (r : CipReq) : CipReq := if (r.sealing.map fun h => (h.flow, h.cls == 7)) == some (n, false) then { r with lost := true } else r
  let d := { d with cip := { d.cip with reqs := d.cip.reqs.map lose } }
  d.eachPort fun p => { p with heads := p.heads.filter (·.flow != n) }

/-- Return the receive buffers of incomplete messages to the head of their queues in order, unless the ring is gone, and
release notification slots (R335). A buffer of a ring being shut down completes ABORTED (R238); one lost at a link-down is
given up (R108). -/
def releaseRx (c : Ctl) (d : Plane) (l : List RxMsg) : Plane :=
  l.foldr (fun m d =>
    match m.desc with
    | some x =>
      let k := m.ring
      if (d.ring k).state = .disabled then d
      else if x.lost then d.releaseSlot (d.wrgCq k)
      else if (d.ring k).state = .stopping then endDesc c d k x stAborted
      else checkLow c (d.onRing k fun r => { r with descs := x :: r.descs }) k
    | none => if m.ptype = ptWriteNotify then d.releaseSlot m.ring else d) d

/-- A context leaves READY, CONNECTING or INIT for ERROR: its accepted packets are placed, what it holds is released, and
nothing more is sent for it. With `draining` the messages that still await acknowledgements stay, and their timer runs on (R238). -/
def quietQp (c : Ctl) (d : Plane) (n : Nat) (draining : Bool := false) : Plane :=
  let q := d.qp n
  let d := q.places.foldl (fun d x => putPlacement c d x) d
  let d := (q.resps.filter (·.original.isNone)).foldl (fun d r => winDone d r.win) d
  let d := releaseRx c d q.rxMsgs
  let d := stopFlow d n
  let d := d.onQp n fun q => { q with
    got := [], rxMsgs := [], places := [], resps := [], stalled := false, gapOn := false, ackCount := 0, hostAtomics := [] }
  let d := if draining then d else d.onQp n fun q => { q with msgs := [], psns := [], timerOn := false, timerLeft := none }
  q.rxMsgs.foldl (fun d m => if m.desc.isSome then d.settleRing m.ring else d) d

/-- A queue pair being destroyed that has nothing left to send or to have acknowledged is done (R238, R308). -/
def drained (d : Plane) (n : Nat) : Plane :=
  if d.xpt.destroying.contains n && (d.qp n).msgs.isEmpty then { d with effects := d.effects ++ [.qpDrained n] } else d

/-- A context enters ERROR with a status; its entries complete with `status`, or with ABORTED beside the one entry named
with its own ending (R293, R333). -/
def failQp (c : Ctl) (d : Plane) (n status : Nat) (mine : Option (Nat × BitVec 16 × Ending)) (others : Nat) (detail : Word)
    (disconnect : Bool) : Plane :=
  let q := d.qp n
  let d := if disconnect && q.state == .ready then
      sendClass7 c d n (qpPkt c q n ptDisconnect 6 7 q.sendPsn 0 0 [] []) true
    else d
  let d := q.msgs.foldl (fun d m => remoteEnd d m.ring
    (match mine with | some (k, _, e) => if k = m.ring then e.status else others | none => others)) d
  let d := quietQp c d n
  let d := d.onQp n fun q => { q with state := .error, lastStatus := status }
  let d := match mine with
    | some (k, i, e) => finishEntry c d k i e
    | none => d
  drained (completeAll c others detail (entriesOf d n) d) n

end Sys2Proof.Machine
end

