-- ==== Sys2Proof/Machine/Formats.lean ====
section
/-! DEFINITION. The element formats (R403, R441, R442), exact values, rounding (R411, R412, R443), the exact accumulator
(R409, R410) and binary32 arithmetic (R444, R445, R473). -/
namespace Sys2Proof.Machine

/-! ### Exact values -/

/-- An exact value: NaN, an infinity, or (-1)^neg * m * 2^e. -/
inductive Val where
  | nan
  | inf (neg : Bool)
  | fin (neg : Bool) (m : Nat) (e : Int)
  deriving DecidableEq, Repr

def Val.zero : Val := .fin false 0 0

/-- The whole number of a finite value in units of 2^e0, where e0 is at most its exponent. -/
def unitsOf (neg : Bool) (m : Nat) (e e0 : Int) : Int :=
  let v : Int := (m * 2 ^ (e - e0).toNat : Nat)
  if neg then -v else v

/-- A whole number of units of 2^e as a value; `z` is the sign of a zero. -/
def ofUnits (z : Bool) (v e : Int) : Val := .fin (if v = 0 then z else decide (v < 0)) v.natAbs e

def Val.add : Val → Val → Val
  | .nan, _ | _, .nan => .nan
  | .inf a, .inf b => if a = b then .inf a else .nan
  | .inf a, _ | _, .inf a => .inf a
  | .fin a m e, .fin b n f =>
    let g := min e f
    ofUnits (a && b && m == 0 && n == 0) (unitsOf a m e g + unitsOf b n f g) g

def Val.neg : Val → Val
  | .nan => .nan
  | .inf a => .inf !a
  | .fin a m e => .fin (!a) m e

def Val.mul : Val → Val → Val
  | .nan, _ | _, .nan => .nan
  | .inf a, .inf b => .inf (a != b)
  | .inf a, .fin b n _ => if n = 0 then .nan else .inf (a != b)
  | .fin a m _, .inf b => if m = 0 then .nan else .inf (a != b)
  | .fin a m e, .fin b n f => .fin (a != b) (m * n) (e + f)

/-- `a` is less than `b`, both numbers. -/
def Val.lt (a b : Val) : Bool :=
  match a.add b.neg with
  | .fin n m _ => n && m != 0
  | .inf n => n
  | .nan => match a, b with
    | .inf x, .inf y => x && !y
    | _, _ => false

def Val.isNan : Val → Bool
  | .nan => true
  | _ => false

/-- The value times 2^k. -/
def Val.scale (v : Val) (k : Int) : Val :=
  match v with
  | .fin a m e => .fin a m (e + k)
  | v => v

/-! ### Formats (R403, R441) -/

/-- Bits of an element of a format. -/
def fmtWidth (f : Nat) : Nat :=
  if f = 1 then 4 else if f = 2 ∨ f = 3 then 6 else if f = 4 ∨ f = 5 ∨ f = 6 then 8 else if f = 7 ∨ f = 8 then 16
  else if f = 9 then 32 else 0

/-- Exponent bits, bias and mantissa bits of a floating format. -/
def fmtShape (f : Nat) : Nat × Nat × Nat :=
  if f = 1 then (2, 1, 1) else if f = 2 then (2, 1, 3) else if f = 3 then (3, 3, 2) else if f = 4 then (4, 7, 3)
  else if f = 5 then (5, 15, 2) else if f = 7 then (8, 127, 7) else if f = 8 then (5, 15, 10) else (8, 127, 23)

/-- A format with infinities and NaNs of IEEE 754 form. -/
def fmtIeee (f : Nat) : Bool := f == 5 || f == 7 || f == 8 || f == 9

/-- The value of an element. -/
def decodeElem (f code : Nat) : Val :=
  if f = 6 then (if code < 128 then .fin false code 0 else .fin true (256 - code) 0)
  else
    let s := fmtShape f
    let neg := nbit code (s.1 + s.2.2)
    let ex := (code / 2 ^ s.2.2) % 2 ^ s.1
    let man := code % 2 ^ s.2.2
    if fmtIeee f ∧ ex = 2 ^ s.1 - 1 then (if man = 0 then .inf neg else .nan)
    else if f = 4 ∧ ex = 15 ∧ man = 7 then .nan
    else if ex = 0 then .fin neg man (1 - (s.2.1 : Int) - s.2.2)
    else .fin neg (2 ^ s.2.2 + man) ((ex : Int) - s.2.1 - s.2.2)

/-- The largest finite magnitude of a floating format as a mantissa and an exponent. -/
def fmtMax (f : Nat) : Nat × Int :=
  let s := fmtShape f
  let top : Int := (2 ^ s.1 : Nat) - 1 - s.2.1 - s.2.2
  if fmtIeee f then (2 ^ (s.2.2 + 1) - 1, top - 1)
  else if f = 4 then (14, top) else (2 ^ (s.2.2 + 1) - 1, top)

/-- The code of the largest finite magnitude. -/
def fmtMaxCode (f : Nat) : Nat :=
  let s := fmtShape f
  if fmtIeee f then (2 ^ s.1 - 1) * 2 ^ s.2.2 - 1 else if f = 4 then 0x7E else 2 ^ (s.1 + s.2.2) - 1

/-- The canonical NaN of R411. -/
def fmtNan (f : Nat) : Nat :=
  if f = 7 then 0x7FC0 else if f = 8 then 0x7E00 else if f = 9 then 0x7FC00000 else if f = 5 then 0x7E else 0x7F

/-- A rounded element with the flags of R407. -/
structure Rounded where
  code : Nat
  sat : Bool := false
  nan : Bool := false
  inf : Bool := false
  deriving DecidableEq, Repr

/-- The seeded draw of R412. -/
def stochU (seed ident index : Nat) : Nat :=
  let m := 2 ^ 64
  let x := seed % m ^^^ (ident * 0x9E3779B97F4A7C15) % m ^^^ (index * 0xD1B54A32D192ED03) % m
  let x := ((x ^^^ (x / 2 ^ 30)) * 0xBF58476D1CE4E5B9) % m
  let x := ((x ^^^ (x / 2 ^ 27)) * 0x94D049BB133111EB) % m
  let x := x ^^^ (x / 2 ^ 31)
  x / 2 ^ 32

/-- m * 2^e as a whole number of quanta 2^q: to nearest, ties to even, or by a seeded draw (R411, R412). -/
def quanta (m : Nat) (e q : Int) (draw : Option Nat) : Nat :=
  if q ≤ e then m * 2 ^ (e - q).toNat
  else
    let s := (q - e).toNat
    let k := m / 2 ^ s
    let r := m % 2 ^ s
    match draw with
    | some u => if u < r * 2 ^ 32 / 2 ^ s then k + 1 else k
    | none => if 2 * r > 2 ^ s ∨ (2 * r = 2 ^ s ∧ k % 2 = 1) then k + 1 else k

/-- Compare m * 2^e with n * 2^f: whether the first is greater. -/
def greater (m : Nat) (e : Int) (n : Nat) (f : Int) : Bool :=
  let g := min e f
  decide (n * 2 ^ (f - g).toNat < m * 2 ^ (e - g).toNat)

/-- Round a finite magnitude into a floating format. -/
def roundFloat (f : Nat) (neg : Bool) (m : Nat) (e : Int) (draw : Option Nat) : Rounded :=
  let s := fmtShape f
  let sign := b2n neg * 2 ^ (s.1 + s.2.2)
  if m = 0 then { code := sign }
  else
    let mx := fmtMax f
    let beyond := greater m e mx.1 mx.2
    let emin : Int := 1 - (s.2.1 : Int) - s.2.2
    let q := max ((m.log2 : Int) + e - s.2.2) emin
    let k := quanta m e q (if beyond then none else draw)
    if greater k q mx.1 mx.2 then
      if fmtIeee f then { code := sign + (2 ^ s.1 - 1) * 2 ^ s.2.2, inf := true }
      else { code := sign + fmtMaxCode f, sat := true }
    else if k < 2 ^ s.2.2 then { code := sign + k }
    else
      let up := decide (2 ^ (s.2.2 + 1) ≤ k)
      let k := if up then k / 2 else k
      let ex := ((q - emin).toNat + 1) + b2n up
      { code := sign + ex * 2 ^ s.2.2 + (k - 2 ^ s.2.2) }

/-- Round into INT8. -/
def roundInt8 (neg : Bool) (m : Nat) (e : Int) (draw : Option Nat) : Rounded :=
  let beyond := greater m e (if neg then 128 else 127) 0
  let k := quanta m e 0 (if beyond then none else draw)
  if neg then (if 128 < k then { code := 0x80, sat := true } else { code := (256 - k) % 256 })
  else if 127 < k then { code := 127, sat := true } else { code := k }

/-- Round an exact value once into a format (R411). -/
def roundVal (f : Nat) (v : Val) (draw : Option Nat := none) : Rounded :=
  let s := fmtShape f
  match v with
  | .nan =>
    if f = 6 then { code := 0, nan := true }
    else if f = 1 ∨ f = 2 ∨ f = 3 then { code := fmtMaxCode f, nan := true }
    else { code := fmtNan f, nan := true }
  | .inf neg =>
    if f = 6 then { code := if neg then 0x80 else 127, inf := true }
    else if fmtIeee f then { code := b2n neg * 2 ^ (s.1 + s.2.2) + (2 ^ s.1 - 1) * 2 ^ s.2.2, inf := true }
    else { code := b2n neg * 2 ^ (s.1 + s.2.2) + fmtMaxCode f, inf := true }
  | .fin neg m e => if f = 6 then roundInt8 neg m e draw else roundFloat f neg m e draw

/-! ### Packing (R403) -/

/-- Bytes and elements of the smallest whole group of a format. -/
def fmtGroup (w : Nat) : Nat × Nat := if w = 4 then (1, 2) else if w = 6 then (3, 4) else (w / 8, 1)

/-- The codes in packed bytes, of width `w`. -/
def unpackElems (w : Nat) (bs : List Byte) : List Nat :=
  let g := fmtGroup w
  ((chunksOf g.1 bs.length bs).map fun b => (List.range g.2).map fun i => (leNat b / 2 ^ (w * i)) % 2 ^ w).flatten

/-- Number of a group of codes. -/
def packNum (w : Nat) : List Nat → Nat
  | [] => 0
  | c :: cs => c + 2 ^ w * packNum w cs

/-- Codes in groups of `n`; `fuel` bounds their number. -/
def groupsOf (n : Nat) : Nat → List Nat → List (List Nat)
  | 0, _ => []
  | fuel + 1, l => if l.isEmpty then [] else l.take n :: groupsOf n fuel (l.drop n)

/-- Codes packed into bytes. -/
def packElems (w : Nat) (cs : List Nat) : List Byte :=
  let g := fmtGroup w
  ((groupsOf g.2 cs.length cs).map fun l => leBytes g.1 (packNum w l)).flatten

/-! ### MX rows (R442) -/

/-- The element format of an MX code, or the code itself. -/
def baseFmt (f : Nat) : Nat := if 0x11 ≤ f then f - 0x10 else f
def isMx (f : Nat) : Bool := decide (0x11 ≤ f)

/-- Bytes of a row of `n` elements of a plain or MX format. -/
def rowBytes (f n : Nat) : Nat := n * fmtWidth (baseFmt f) / 8 + if isMx f then n / 32 else 0

/-- The scale 2^(X - 127) applied to a value; X = 0xFF is NaN. -/
def applyScale (x : Nat) (v : Val) : Val := if x = 255 then .nan else v.scale ((x : Int) - 127)

/-- The values of a row of `n` elements. -/
def rowVals (f n : Nat) (bs : List Byte) : List Val :=
  let w := fmtWidth (baseFmt f)
  let vs := (unpackElems w (bs.take (n * w / 8))).map (decodeElem (baseFmt f))
  if isMx f then
    let scales := bs.drop (n * w / 8)
    vs.zipIdx.map fun x => applyScale (getByte scales (x.2 / 32)) x.1
  else vs

/-! ### The exact accumulator (R409, R410) -/

/-- The weight of bit 0 of the accumulator. -/
def accBit : Int := -149

/-- Add one addend exactly. -/
def Acc.push (a : Acc) (v : Val) : Acc :=
  let negZero := match v with
    | .fin true 0 _ => true
    | _ => false
  let a := { a with allNegZero := a.allNegZero && negZero }
  match v with
  | .nan => { a with nan := true }
  | .inf true => { a with negInf := true }
  | .inf false => { a with posInf := true }
  | .fin n m e => { a with sum := a.sum + unitsOf n m e accBit }

/-- The outcome of an accumulator (R410). -/
def Acc.outcome (a : Acc) : Val :=
  if a.nan || (a.posInf && a.negInf) then .nan
  else if a.posInf then .inf false
  else if a.negInf then .inf true
  else if a.sum = 0 then .fin a.allNegZero 0 0
  else ofUnits false a.sum accBit

/-- Add a list of values, one to each accumulator; missing accumulators start empty. -/
def pushAll : List Acc → List Val → List Acc
  | [], vs => vs.map fun v => Acc.push {} v
  | as, [] => as
  | a :: as, v :: vs => a.push v :: pushAll as vs

/-! ### binary32 (R444, R445, R473) -/

def f32 (c : Nat) : Val := decodeElem 9 c
def to32 (v : Val) : Nat := (roundVal 9 v).code
def add32 (a b : Nat) : Nat := to32 ((f32 a).add (f32 b))
def mul32 (a b : Nat) : Nat := to32 ((f32 a).mul (f32 b))
def sub32 (a b : Nat) : Nat := to32 ((f32 a).add (f32 b).neg)
def negInf32 : Nat := 0xFF800000

/-- The greater of two binary32 numbers; NaN when either is. -/
def max32 (a b : Nat) : Nat :=
  if (f32 a).isNan || (f32 b).isNan then 0x7FC00000 else if (f32 a).lt (f32 b) then b else a

/-- Quotient, rounded once: the exact quotient's leading bits and a sticky bit. -/
def div32 (a b : Nat) : Nat :=
  match f32 a, f32 b with
  | .nan, _ | _, .nan => 0x7FC00000
  | .inf _, .inf _ => 0x7FC00000
  | .inf x, .fin y _ _ => to32 (.inf (x != y))
  | .fin x _ _, .inf y => to32 (.fin (x != y) 0 0)
  | .fin x m e, .fin y n f =>
    if n = 0 then (if m = 0 then 0x7FC00000 else to32 (.inf (x != y)))
    else
      let k := 64 + n.log2
      let q := m * 2 ^ k / n
      let r := m * 2 ^ k % n
      to32 (.fin (x != y) (2 * q + if r = 0 then 0 else 1) (e - f - k - 1))

/-- ln 2 in units of 2^-200. -/
def ln2Fixed : Nat := 1113844574712631719546256151097547306333272293549090750737802

/-- The terms of the exponential series of r, in units of 2^-200, from number `i` on, which is `t`. -/
def expSeries (r : Nat) : Nat → Nat → Nat → Nat
  | 0, _, _ => 0
  | n + 1, i, t => t + expSeries r n (i + 1) (t * r / 2 ^ 200 / (i + 1))

/-- The code of the greatest binary32 number not above e^x, where x = (-1)^neg * m * 2^e and e is at least -149. -/
def expBelow (neg : Bool) (m : Nat) (e : Int) : Nat :=
  let x := unitsOf neg m e (-200)
  let k := x / ln2Fixed
  if 128 ≤ k then 0x7F800000
  else if k < -150 then 0
  else
    let y := expSeries (x - k * ln2Fixed).toNat 64 0 (2 ^ 200)
    if -126 ≤ k then (k + 126).toNat * 2 ^ 23 + y / 2 ^ 177 else y / 2 ^ (51 - k).toNat

/-- The binary32 number at place `u` of the four around e^x, which lies between the second and the third; those beyond 2 ulp are
left out (R445). -/
def expNear (below u : Nat) : Nat :=
  if below = 0x7F800000 then below
  else if (below + 1) % 2 ^ 23 = 0 ∧ 2 ^ 23 < below + 1 then min (below + 1) (below + u - 1)
  else below + u - 1

/-- exp of the vector unit (R445): within 2 ulp of e^x, else free (log 6); of an infinity and NaN the exact value. -/
def exp32 (a : Nat) : Nat :=
  match f32 a with
  | .nan => 0x7FC00000
  | .inf true => 0
  | .inf false => 0x7F800000
  | .fin neg m e => expNear (expBelow neg m e) (Config.expUlp (BitVec.ofNat 32 a)).toNat

/-- Lists of values in slices of 64. -/
def slices64 : Nat → List Val → List (List Val)
  | 0, _ => []
  | fuel + 1, l => if l.isEmpty then [] else l.take 64 :: slices64 fuel (l.drop 64)

/-- The dot product of a cell (R444): slices of 64 summed exactly, each added to a binary32 accumulator. -/
def dot32 (x w : List Val) : Nat :=
  let ps := List.zipWith Val.mul x w
  (slices64 ps.length ps).foldl (fun acc s => to32 ((f32 acc).add (s.foldl Val.add Val.zero))) 0

/-- The exact sum of products, for two INT8 operands (R444). -/
def dotExact (x w : List Val) : Val := (List.zipWith Val.mul x w).foldl Val.add Val.zero

end Sys2Proof.Machine
end

