-- ==== Sys2Proof/Machine/Stages.lean ====
section
/-! DEFINITION. The stage kinds of veins (R460 to R475): what one stage makes of one input unit. -/
namespace Sys2Proof.Machine

/-! ### Parameters (R461) -/

def StageRec.le (s : StageRec) (o n : Nat) : Nat := getLe s.param o n
def kUnseal : Nat := 1
def kSeal : Nat := 2
def kDequantize : Nat := 3
def kQuantize : Nat := 4
def kConvert : Nat := 5
def kReduce : Nat := 6
def kMatmul : Nat := 7
def kAttention : Nat := 8
def kScatter : Nat := 9
def kGather : Nat := 10
def kPack : Nat := 11
def kUnpack : Nat := 12

/-- Bytes of `n` elements of a plain format. -/
def elemBytes (f n : Nat) : Nat := n * fmtWidth f / 8

/-- Bytes of a stage's input unit (R460). -/
def unitIn (s : StageRec) : Nat :=
  match s.kind with
  | 1 => s.le 4 4 + 32
  | 2 => s.le 4 4
  | 3 => rowBytes (s.le 0 1) (s.le 4 4)
  | 4 => elemBytes (s.le 0 1) (s.le 4 4)
  | 5 => elemBytes (s.le 0 1) (s.le 8 4)
  | 6 => elemBytes (s.le 0 1) (s.le 4 4)
  | 7 => rowBytes (s.le 0 1) (s.le 4 4)
  | 8 => 64
  | 9 => 8 + s.le 8 4
  | 10 => 4
  | _ => s.le 0 4

/-- Bytes of a stage's output unit (R460). -/
def unitOut (s : StageRec) : Nat :=
  match s.kind with
  | 1 => s.le 4 4
  | 2 => s.le 4 4 + 32
  | 3 => elemBytes (s.le 1 1) (s.le 4 4)
  | 4 => rowBytes (s.le 1 1) (s.le 4 4)
  | 5 => elemBytes (s.le 1 1) (s.le 8 4)
  | 6 => elemBytes (s.le 1 1) (s.le 4 4)
  | 7 => elemBytes (s.le 2 1) (s.le 8 4)
  | 8 => 4 * s.le 2 2 + 8
  | 9 => 0
  | 10 => s.le 8 4
  | _ => s.le 4 4

/-! ### Results -/

/-- Vein error codes (R475). -/
def veDstFull : Nat := 1
def veTagFail : Nat := 2
def veKey : Nat := 3
def veKeyExhausted : Nat := 4
def veIndex : Nat := 5
def veDescriptor : Nat := 6
def veTranslation : Nat := 7
def veParity : Nat := 8

/-- What a stage makes of a unit: its output units, an error code or 0, and the flags of R478. -/
structure StageOut where
  units : List (List Byte) := []
  err : Nat := 0
  /-- The status of a failed access, when it is not that of the error code (R189, R194). -/
  status : Nat := 0
  sat : Bool := false
  nan : Bool := false
  inf : Bool := false
  deriving DecidableEq, Repr

/-- A stage's access faults and waits (R201), needs a remote leaf's page (R194), waits for one that is under way, or the
stage has its result. -/
inductive StageRes where
  | wait (va : Nat) (k : Cause) (write : Bool)
  | remote (l : Leaf) (va : Nat) (len : Nat) (data : Option (List Byte))
  | pending
  | done (o : StageOut)
  deriving DecidableEq, Repr

/-- A failing unit: zeros of the normal output length. -/
def stageFail (s : StageRec) (err : Nat) : StageRes := .done { units := [List.replicate (unitOut s) 0], err := err }

/-- Rounded elements as an output. -/
def roundedOut (f : Nat) (rs : List Rounded) (tail : List Byte := []) : StageOut :=
  { units := [packElems (fmtWidth f) (rs.map (·.code)) ++ tail], sat := rs.any (·.sat), nan := rs.any (·.nan), inf := rs.any (·.inf) }

/-! ### Accesses of a vein (R189, R194, R201) -/

/-- How an access of a vein stands. -/
inductive Dma where
  | ok (bs : List Byte)
  | wait (va : Nat) (k : Cause)
  | remote (l : Leaf) (va len : Nat) (data : Option (List Byte))
  | pending
  | fail (status : Nat)
  deriving DecidableEq, Repr

/-- What a page of a remote leaf is known to hold, or what became of a write to it. -/
def remoteOf (d : Plane) (v slot va : Nat) : Option RemoteAcc :=
  (d.vein v).remote.find? fun r => r.slot == slot && r.va == va

/-- The places of a vein's remote accesses beside its stages: the input and the output of a run. -/
def runInput : Nat := 12
def runOutput : Nat := 13

/-- The translation cache that an access of a vein uses: that of the tile of its stage; input and output of a run belong to
its first and its last stage. -/
def dmaCache (c : Ctl) (v slot : Nat) : Nat :=
  match c.job.veins.find? (·.vein == v) with
  | none => tileCache 0
  | some r => tileCache ((r.stages[if slot = runInput then 0 else if slot = runOutput then r.stages.length - 1 else slot]?.map (·.tile)).getD 0)

/-- Read the pieces of a range in order: local pages directly, remote ones from what their leaf's queue pair has brought. -/
def dmaPieces (c : Ctl) (v slot p : Nat) : List (Nat × Nat) → Plane → Dma × Plane
  | [], d => (.ok [], d)
  | (va, n) :: ps, d =>
    let r := translate c d (dmaCache c v slot) p va false
    match r.1 with
    | .error (.fault a k) => (.wait a k, r.2)
    | .error (.remote l) =>
      (match remoteOf r.2 v slot va with
      | none => (.remote l va n none, r.2)
      | some x => match x.ended with
        | none => (.pending, r.2)
        | some st =>
          if st ≠ stOk then (.fail st, r.2)
          else
            let rest := dmaPieces c v slot p ps r.2
            (match rest.1 with | .ok bs => .ok (x.bytes ++ bs) | y => y, rest.2))
    | .error _ => (.fail stLocalAccess, r.2)
    | .ok a =>
      let b := readLocal c r.2 (ownerFn r.2 p) a n
      match b.1 with
      | none => (.fail stLocalAccess, b.2)
      | some bs =>
        let rest := dmaPieces c v slot p ps b.2
        (match rest.1 with | .ok more => .ok (bs ++ more) | y => y, rest.2)

/-- Read `n` bytes for a vein; a range beyond the 57-bit space is LOCAL_ACCESS (R189). -/
def dmaRead (c : Ctl) (d : Plane) (v slot p va n : Nat) : Dma × Plane :=
  if 2 ^ 57 < va + n then (.fail stLocalAccess, d) else dmaPieces c v slot p (piecesOf va n) d

/-- Prepare a write for a vein: the local pieces it goes to, once every piece on a remote leaf has been written there. -/
def dmaTargets (c : Ctl) (v slot p : Nat) : List (Nat × Nat) → List Byte → Plane → Except Dma (List (Nat × List Byte)) × Plane
  | [], _, d => (.ok [], d)
  | (va, n) :: ps, bs, d =>
    let r := translate c d (dmaCache c v slot) p va true
    match r.1 with
    | .error (.fault a k) => (.error (.wait a k), r.2)
    | .error (.remote l) =>
      (match remoteOf r.2 v slot va with
      | none => (.error (.remote l va n (some (bs.take n))), r.2)
      | some x => match x.ended with
        | none => (.error .pending, r.2)
        | some st => if st ≠ stOk then (.error (.fail st), r.2) else dmaTargets c v slot p ps (bs.drop n) r.2)
    | .error _ => (.error (.fail stLocalAccess), r.2)
    | .ok a =>
      let rest := dmaTargets c v slot p ps (bs.drop n) r.2
      (rest.1.map fun l => (a, bs.take n) :: l, rest.2)

/-- Write bytes for a vein: `ok` once every byte has reached its page. -/
def dmaWrite (c : Ctl) (d : Plane) (v slot p va : Nat) (bs : List Byte) : Dma × Plane :=
  if 2 ^ 57 < va + bs.length then (.fail stLocalAccess, d)
  else
    let r := dmaTargets c v slot p (piecesOf va bs.length) bs d
    match r.1 with
    | .error e => (e, r.2)
    | .ok l => (.ok [], l.foldl (fun d x => writeLocal c d (ownerFn d p) x.1 x.2) r.2)

/-- A failed access of a stage: the error TRANSLATION, with the status of its cause (R189, R194, R204, R475). -/
def accessFail (s : StageRec) (units : Bool) (status : Nat) : StageRes :=
  .done { units := if units then [List.replicate (unitOut s) 0] else [], err := veTranslation, status := status }

/-- What a stage does with the outcome of an access: `ok` goes on, a walk that ends in WALK_ERROR fails at once (R204). -/
def dmaResult (d : Plane) (p : Nat) (write : Bool) (fail : Nat → StageRes) (x : Dma) : StageRes × Plane :=
  match x with
  | .ok _ => (.pending, d)
  | .wait va k => if k = .walkError then (fail stTranslationFault, d.raise 0x280 0x03 (some p)) else (.wait va k write, d)
  | .remote l va n data => (.remote l va n data, d)
  | .pending => (.pending, d)
  | .fail st => (fail st, d)

/-! ### Sealing records (R462) -/

/-- A key slot that a vein of a partition may use: not empty, and of the partition. -/
def slotUsable (d : Plane) (p slot : Nat) : Bool := (d.key slot).use != 0 && partOfKey d slot == some p

def stageUnseal (d : Plane) (p : Nat) (s : StageRec) (u : List Byte) : StageRes × Plane :=
  let slot := s.le 0 2
  let n := s.le 4 4
  if !slotUsable d p slot || (d.key slot).use != 2 then (stageFail s veKey, d)
  else match openKey d slot (BitVec.ofNat 64 (getLe u 0 8)) with
    | none => (stageFail s veTagFail, d)
    | some k =>
      if getLe u 8 4 ≠ n then (stageFail s veTagFail, d)
      else match gcmOpen k.key k.nonce (u.take 16) (slice u 16 n) (slice u (16 + n) 16) with
        | none => (stageFail s veTagFail, d)
        | some bs => (.done { units := [bs] }, d)

def stageSeal (c : Ctl) (d : Plane) (p : Nat) (s : StageRec) (u : List Byte) : StageRes × Plane :=
  let slot := s.le 0 2
  if !slotUsable d p slot then (stageFail s veKey, d)
  else
    let r := drawSeal c d slot
    match r.1 with
    | none => (stageFail s (if keySpent d slot then veKeyExhausted else veKey), r.2)
    | some k =>
      let head := leBytes 8 k.counter.toNat ++ leBytes 4 (s.le 4 4) ++ [0, 0, 0, 0]
      let x := gcmSeal k.key k.nonce head u
      (.done { units := [head ++ x.1 ++ x.2] }, r.2)

/-! ### Quantization and conversion (R463 to R465) -/

def stageDequantize (s : StageRec) (u : List Byte) : StageRes :=
  .done (roundedOut (s.le 1 1) ((rowVals (s.le 0 1) (s.le 4 4) u).map fun v => roundVal (s.le 1 1) v))

/-- emax of R464. -/
def emaxOf (f : Nat) : Int := if f = 3 then 4 else if f = 4 then 8 else if f = 5 then 15 else 2

/-- Values of a list in blocks of 32. -/
def blocks32 : Nat → List Val → List (List Val)
  | 0, _ => []
  | fuel + 1, l => if l.isEmpty then [] else l.take 32 :: blocks32 fuel (l.drop 32)

/-- floor(log2) of the largest magnitude of a block; `none` when every input is zero. -/
def blockLog (vs : List Val) : Option Int :=
  vs.foldl (fun best v => match v with
    | .fin _ m e => if m = 0 then best else
        let l := (m.log2 : Int) + e
        some (match best with | some b => max b l | none => l)
    | _ => best) none

/-- One block of QUANTIZE: its scale byte and its elements, saturating at the largest finite magnitude (R464). -/
def quantBlock (f : Nat) (vs : List Val) (draw : Nat → Option Nat) (first : Nat) : Nat × List Rounded :=
  let bad := vs.any fun v => match v with | .fin _ _ _ => false | _ => true
  if bad then (255, vs.map fun _ => { code := 0, nan := true })
  else
    let x : Int := match blockLog vs with
      | none => 0
      | some l => max (-127) (min 127 (l - emaxOf f)) + 127
    let r := vs.zipIdx.map fun y => roundVal f (y.1.scale (127 - x)) (draw (first + y.2))
    let clip (z : Rounded) : Rounded :=
      if z.inf then { code := (if nbit z.code ((fmtShape f).1 + (fmtShape f).2.2) then 2 ^ ((fmtShape f).1 + (fmtShape f).2.2) else 0) + fmtMaxCode f, sat := true }
      else z
    (x.toNat, r.map clip)

/-- A row quantized into an MX code (R464). -/
def quantRow (f : Nat) (vs : List Val) (draw : Nat → Option Nat) (first : Nat) : StageOut :=
  let bs := (blocks32 vs.length vs).zipIdx.map fun b => quantBlock (baseFmt f) b.1 draw (first + 32 * b.2)
  roundedOut (baseFmt f) (bs.map (·.2)).flatten (bs.map fun b => BitVec.ofNat 8 b.1)

def stageQuantize (s : StageRec) (u : List Byte) (index : Nat) (arg : DWord) : StageRes :=
  let n := s.le 4 4
  let draw (i : Nat) : Option Nat := if s.le 2 1 = 1 then some (stochU (s.le 8 8) arg.toNat i) else none
  .done (quantRow (s.le 1 1) (rowVals (s.le 0 1) n u) draw (index * n))

def stageConvert (s : StageRec) (u : List Byte) : StageRes :=
  let scale := f32 (s.le 4 4)
  .done (roundedOut (s.le 1 1) ((rowVals (s.le 0 1) (s.le 8 4) u).map fun v => roundVal (s.le 1 1) (v.mul scale)))

/-! ### Reduction and matrix product (R466, R467) -/

/-- The exact sum of the collected vectors. -/
def stageReduce (s : StageRec) (us : List (List Byte)) : StageRes :=
  let accs := us.foldl (fun as u => pushAll as (rowVals (s.le 0 1) (s.le 4 4) u)) []
  .done (roundedOut (s.le 1 1) (accs.map fun a => roundVal (s.le 1 1) a.outcome))

def stageMatmul (d : Plane) (v st : Nat) (s : StageRec) (u : List Byte) : StageRes :=
  let fx := s.le 0 1
  let fw := s.le 1 1
  let k := s.le 4 4
  let w := SMap.find [] (d.vein v).weights st
  let cb := rowBytes fw k
  let x := rowVals fx k u
  let col (n : Nat) : Rounded :=
    let y := rowVals fw k (slice w (n * cb) cb)
    roundVal (s.le 2 1) (if fx = 6 ∧ fw = 6 then dotExact x y else f32 (dot32 x y))
  .done (roundedOut (s.le 2 1) ((List.range (s.le 8 4)).map col))

/-! ### Index movement and records (R468, R469) -/

def stageGather (c : Ctl) (d : Plane) (v st p : Nat) (s : StageRec) (u : List Byte) : StageRes × Plane :=
  let i := getLe u 0 4
  if s.le 12 4 ≤ i then (stageFail s veIndex, d)
  else
    let r := dmaRead c d v st p (s.le 0 8 + i * s.le 8 4) (s.le 8 4)
    match r.1 with
    | .ok bs => (.done { units := [bs] }, r.2)
    | x => dmaResult r.2 p false (accessFail s true) x

def stageScatter (c : Ctl) (d : Plane) (v st p : Nat) (s : StageRec) (u : List Byte) : StageRes × Plane :=
  let i := getLe u 0 4
  if s.le 12 4 ≤ i then (.done { err := veIndex }, d)
  else
    let r := dmaWrite c d v st p (s.le 0 8 + i * s.le 8 4) (u.drop 8)
    match r.1 with
    | .ok _ => (.done {}, r.2)
    | x => dmaResult r.2 p true (accessFail s false) x

def stagePack (s : StageRec) (u : List Byte) : StageRes := .done { units := [slice u (s.le 8 4) (s.le 4 4)] }

def stageUnpack (s : StageRec) (u : List Byte) : StageRes :=
  let fill := BitVec.ofNat 8 (s.le 12 1)
  .done { units := [List.replicate (s.le 8 4) fill ++ u ++ List.replicate (s.le 4 4 - s.le 8 4 - u.length) fill] }

/-! ### Near-pool attention (R470 to R473) -/

/-- The shape of an ATTENTION stage. -/
structure AttnCfg where
  kind : Nat
  prec : Nat
  dim : Nat
  tokens : Nat
  heads : Nat
  scale : Nat
  deriving DecidableEq, Repr

def attnCfg (s : StageRec) : AttnCfg := ⟨s.le 0 1, s.le 1 1, s.le 2 2, s.le 4 2, s.le 6 2, s.le 8 4⟩

/-- Bytes of one part of a cache block (R470). -/
def partBytes (a : AttnCfg) : Nat := rowBytes a.kind (a.tokens * a.heads * a.dim)

/-- Row `t` of head `h` in a part. -/
def cacheRow (a : AttnCfg) (part : List Byte) (t h : Nat) : List Val :=
  let r := t * a.heads + h
  let w := fmtWidth (baseFmt a.kind)
  let vs := (unpackElems w (slice part (r * a.dim * w / 8) (a.dim * w / 8))).map (decodeElem (baseFmt a.kind))
  if isMx a.kind then
    let scales := slice part (a.tokens * a.heads * a.dim * w / 8 + r * a.dim / 32) (a.dim / 32)
    vs.zipIdx.map fun x => applyScale (getByte scales (x.2 / 32)) x.1
  else vs

/-- Quantize a row for the cells: MXFP8 E4M3, MXFP4, or unchanged for BF16 caches (R473). -/
def attnQuant (a : AttnCfg) (vs : List Val) : List Val :=
  if a.kind = 7 then vs
  else
    let f := if a.prec = 1 then 0x11 else 0x14
    ((blocks32 vs.length vs).map fun b =>
      let q := quantBlock (baseFmt f) b (fun _ => none) 0
      q.2.map fun r => applyScale q.1 (decodeElem (baseFmt f) r.code)).flatten

/-- The running state of a query row: O, M and L in binary32. -/
structure AttnRow where
  o : List Nat
  m : Nat := negInf32
  l : Nat := 0
  deriving DecidableEq, Repr

/-- One block of the list for one query row (R473): keys and values of its tokens, and which tokens are used. -/
def attnBlock (a : AttnCfg) (q : List Val) (keys vals : List (List Val)) (used : List Bool) (x : AttnRow) : AttnRow :=
  let s := List.zipWith (fun k u => if u then mul32 a.scale (dot32 q k) else negInf32) keys used
  let m2 := s.foldl max32 x.m
  if m2 = negInf32 then x
  else
    let e := exp32 (sub32 x.m m2)
    let p := s.map fun y => exp32 (sub32 y m2)
    let sum := p.foldl add32 0
    let pq := attnQuant a (p.map f32)
    let o := x.o.zipIdx.map fun y => add32 (mul32 y.1 e) (dot32 pq (vals.map fun v => v.getD y.2 Val.zero))
    { o := o, m := m2, l := add32 (mul32 x.l e) sum }

/-- A descriptor is legal (R471). -/
def descriptorOk (a : AttnCfg) (u : List Byte) : Bool :=
  let rows := getLe u 24 2
  getLe u 0 8 % 64 == 0 && decide (1 ≤ rows) && decide (rows ≤ 1024)
    && decide (getLe u 26 2 < a.heads) && decide (1 ≤ getLe u 28 4) && decide (getLe u 28 4 ≤ 2 ^ 20)
    && decide (1 ≤ getLe u 32 2) && decide (getLe u 32 2 ≤ a.tokens) && allZero (slice u 34 30)

/-- Offsets and lengths of the rows of head `h` in a cache block, keys then values, a part's elements before its scales
(R470, R474): in this order they are the block of that head alone. -/
def headRanges (a : AttnCfg) (h : Nat) : List (Nat × Nat) :=
  let n := a.dim * fmtWidth (baseFmt a.kind) / 8
  let rows (base n : Nat) : List (Nat × Nat) := (List.range a.tokens).map fun t => (base + (t * a.heads + h) * n, n)
  ([0, partBytes a].map fun base =>
    rows base n ++ if isMx a.kind then rows (base + a.tokens * a.heads * n) (a.dim / 32) else []).flatten

/-- Read ranges (address, length) in order. -/
def readRanges (c : Ctl) (v st p : Nat) : List (Nat × Nat) → Plane → Except Dma (List (List Byte)) × Plane
  | [], d => (.ok [], d)
  | (va, n) :: vs, d =>
    let r := dmaRead c d v st p va n
    match r.1 with
    | .ok bs =>
      let rest := readRanges c v st p vs r.2
      (rest.1.map (bs :: ·), rest.2)
    | x => (.error x, r.2)

/-- The row record of R472. -/
def rowRecord (x : AttnRow) : List Byte :=
  let o := if Val.zero.lt (f32 x.l) then x.o.map fun y => div32 y x.l else x.o
  ((o ++ [x.m, x.l]).map fun w => leBytes 4 w).flatten

/-- The partial attention of a descriptor (R473), over blocks of its head alone. -/
def attnRun (a : AttnCfg) (u query limits : List Byte) (blocks : List (List Byte)) : List (List Byte) :=
  let rows := getLe u 24 2
  let count := (blocks.length - 1) * a.tokens + getLe u 32 2
  (List.range rows).map fun r =>
    let q := attnQuant a ((unpackElems 16 (slice query (r * a.dim * 2) (a.dim * 2))).map (decodeElem 7))
    let limit := if limits.isEmpty then 2 ^ 32 else getLe limits (4 * r) 4
    rowRecord (blocks.zipIdx.foldl (fun x b =>
      let ts := List.range a.tokens
      attnBlock a q (ts.map fun t => cacheRow a (b.1.take (partBytes a)) t 0)
        (ts.map fun t => cacheRow a (b.1.drop (partBytes a)) t 0)
        (ts.map fun t => decide (b.2 * a.tokens + t < count) && decide (b.2 * a.tokens + t < limit)) x)
      { o := List.replicate a.dim 0 })

/-- The eight-byte addresses of a list. -/
def addresses (bs : List Byte) : List Nat := (chunksOf 8 bs.length bs).map leNat

def stageAttention (c : Ctl) (d : Plane) (v st p : Nat) (s : StageRec) (u : List Byte) : StageRes × Plane :=
  let a := attnCfg s
  let fail (d : Plane) (e : Dma) : StageRes × Plane := dmaResult d p false (accessFail s false) e
  if !descriptorOk a u then (.done { err := veDescriptor }, d)
  else
    let rows := getLe u 24 2
    let r := readRanges c v st p [(getLe u 0 8, rows * a.dim * 2)] d
    match r.1 with
    | .error e => fail r.2 e
    | .ok query =>
      let r := readRanges c v st p [(getLe u 8 8, 8 * getLe u 28 4)] r.2
      match r.1 with
      | .error e => fail r.2 e
      | .ok list =>
        let r := readRanges c v st p (if getLe u 16 8 = 0 then [] else [(getLe u 16 8, 4 * rows)]) r.2
        match r.1 with
        | .error e => fail r.2 e
        | .ok limits =>
          let one := { a with heads := 1 }
          let r := readRanges c v st p
            (((addresses list.flatten).map fun va => (headRanges a (getLe u 26 2)).map fun x => (va + x.1, x.2)).flatten) r.2
          match r.1 with
          | .error e => fail r.2 e
          | .ok rows =>
            let bs := rows.flatten
            (.done { units := attnRun one u query.flatten limits.flatten (chunksOf (2 * partBytes one) bs.length bs) }, r.2)

/-! ### One stage on one unit -/

/-- What stage `st` of vein `v` makes of its unit `u`, number `index` of its run, message or chunk; REDUCE is given the
units it has collected. -/
def stageRun (c : Ctl) (d : Plane) (v : VeinRec) (st : Nat) (s : StageRec) (us : List (List Byte)) (u : List Byte)
    (index : Nat) (arg : DWord) : StageRes × Plane :=
  match s.kind with
  | 1 => stageUnseal d v.part s u
  | 2 => stageSeal c d v.part s u
  | 3 => (stageDequantize s u, d)
  | 4 => (stageQuantize s u index arg, d)
  | 5 => (stageConvert s u, d)
  | 6 => (stageReduce s (us ++ [u]), d)
  | 7 => (stageMatmul d v.vein st s u, d)
  | 8 => stageAttention c d v.vein st v.part s u
  | 9 => stageScatter c d v.vein st v.part s u
  | 10 => stageGather c d v.vein st v.part s u
  | 11 => (stagePack s u, d)
  | 12 => (stageUnpack s u, d)
  | _ => (.done {}, d)

/-! ### The errors of a vein (R475 to R478) -/

/-- The sticky bit of an error code. -/
def veSticky (err : Nat) : VenBit :=
  if err = 1 then .dstFull else if err = 2 then .tagFail else if err = 3 ∨ err = 4 then .key else if err = 5 then .index
  else if err = 6 then .descriptor else if err = 7 then .translation else .parity

/-- DETAIL of a vein error (R476). -/
def veDetail (err st index : Nat) : Word := BitVec.ofNat 32 (err + 256 * st + 4096 * min index 0xFFFFF)

/-- Record an error of a vein: sticky bit, count, and the first one since ERRCNT was last read (R477, R478). -/
def venError (d : Plane) (v st err index source : Nat) : Plane :=
  let d := (d.venStick (veSticky err)).countUp (Reg.venErrcnt v)
  d.onVein v fun x => if x.errArmed then
      { x with errArmed := false, err0 := veDetail err st index, err1 := BitVec.ofNat 32 (source % 2 ^ 24) }
    else x

/-- The flags of a stage's output (R478). -/
def venFlags (d : Plane) (v : Nat) (o : StageOut) : Plane :=
  d.onVein v fun x => { x with
    saturated := x.saturated || o.sat, nanOut := x.nanOut || o.nan, infOut := x.infOut || o.inf }

/-! ### Veins applied to whole units: send streams and communicators (R457, R458) -/

/-- How units go through every stage of a vein: the output, the first error met, or a wait. -/
inductive VeinPass where
  | wait (va : Nat) (k : Cause)
  | done (out : List Byte) (err : Option (Nat × Nat × Nat))
  deriving DecidableEq, Repr

/-- One unit through the stages from `st` on. -/
def passUnit (c : Ctl) (v : VeinRec) (index source : Nat) : List (StageRec × Nat) → List Byte → Plane → VeinPass × Plane
  | [], u, d => (.done u none, d)
  | (s, st) :: rest, u, d =>
    let r := stageRun c d v st s [] u index 0
    match r.1 with
    | .wait va k _ => (.wait va k, r.2)
    | .remote _ _ _ _ | .pending => (.done [] none, r.2)
    | .done o =>
      let d := venFlags r.2 v.vein o
      if o.err = 0 then passUnit c v index source rest o.units.flatten d
      else (.done o.units.flatten (some (o.err, st, index)), venError d v.vein st o.err index source)

/-- Every unit of an input, in order. -/
def passUnits (c : Ctl) (v : VeinRec) (source : Nat) : Nat → List (List Byte) → Plane → VeinPass × Plane
  | _, [], d => (.done [] none, d)
  | i, u :: us, d =>
    let r := passUnit c v i source v.stages.zipIdx u d
    match r.1 with
    | .wait va k => (.wait va k, r.2)
    | .done out (some e) => (.done out (some e), r.2)
    | .done out none =>
      let rest := passUnits c v source (i + 1) us r.2
      match rest.1 with
      | .wait va k => (.wait va k, rest.2)
      | .done outs e => (.done (out ++ outs) e, rest.2)

/-- U_in and U_out of a bound vein (R453). -/
def veinIn (v : VeinRec) : Nat := match v.stages with | s :: _ => unitIn s | [] => 1
def veinOut (v : VeinRec) : Nat := match v.stages.getLast? with | some s => unitOut s | none => 1

/-- An input through a vein, cut into units of U_in. -/
def passVein (c : Ctl) (d : Plane) (v : VeinRec) (source first : Nat) (bs : List Byte) : VeinPass × Plane :=
  passUnits c v source first (chunksOf (max 1 (veinIn v)) bs.length bs) d

/-- The vein of the running job that is bound to a queue pair: 0 receive, 1 send (R452). -/
def Ctl.boundVein (c : Ctl) (binding n : Nat) : Option VeinRec :=
  c.job.veins.find? fun v => v.binding == binding && v.bindArg % 2 ^ 24 == n

/-- The vein of a communicator on a side: 0 source, 1 result (R452). -/
def Ctl.commVein (c : Ctl) (comm side : Nat) : Option VeinRec :=
  c.job.veins.find? fun v => v.binding == 2 && v.bindArg % 1024 == comm && v.bindArg / 2 ^ 31 == side

end Sys2Proof.Machine
end

