-- ==== Sys2Proof/Machine/Sender.lean ====
section
/-! DEFINITION. The sending side of a queue pair (R285, R286, R296, R309, R314 to R319, R324, R326, R332, R350): messages,
the choice of the next packet, departure, acknowledgements, retransmission and pacing. -/
namespace Sys2Proof.Machine

/-! ### Messages and their PSNs -/

/-- The message that holds a PSN. -/
def msgOf (q : Qp) (p : BitVec 32) : Option Msg := q.msgs.find? fun m => decide (psnDist p m.first < m.count)

def Qp.psnState (q : Qp) (p : BitVec 32) : PsnState := SMap.find {} q.psns p.toNat
def Qp.setPsn (q : Qp) (p : BitVec 32) (x : PsnState) : Qp := { q with psns := SMap.put {} q.psns p.toNat x }

/-- A PSN has been sent and is not below UNA_PSN. -/
def Qp.sentPsn (q : Qp) (p : BitVec 32) : Bool := decide (psnDist p q.unaPsn < psnDist q.sendPsn q.unaPsn)

/-- A PSN is done: below UNA_PSN, or marked (R315). -/
def Qp.donePsn (q : Qp) (p : BitVec 32) : Bool :=
  decide (0 < psnDist q.unaPsn p ∧ psnDist q.unaPsn p < 2 ^ 31) || (q.psnState p).done

/-- The PSNs of a message that are done. -/
def doneOf (q : Qp) (m : Msg) : Nat :=
  let b := psnDist q.unaPsn m.first
  (if b < 2 ^ 31 then min b m.count else 0)
    + (q.psns.filter fun x => x.2.done && decide (psnDist (BitVec.ofNat 32 x.1) m.first < m.count)).length

/-- Bytes of a message whose PSNs are done (R332). -/
def doneBytes (q : Qp) (m : Msg) : Nat :=
  let b := psnDist q.unaPsn m.first
  (if b < 2 ^ 31 then min (b * q.payload) m.len else 0)
    + ((q.psns.filter fun x => x.2.done && decide (psnDist (BitVec.ofNat 32 x.1) m.first < m.count)).map fun x =>
        min q.payload (m.len - psnDist (BitVec.ofNat 32 x.1) m.first * q.payload)).sum

/-- The sender's capability needed by an opcode (R279, R296). -/
def capBit (opcode : Nat) : Option Nat :=
  if opcode = 0x02 then some 2 else if opcode = 0x03 then some 3 else if opcode = 0x04 then some 4
  else if opcode = 0x05 ∨ opcode = 0x06 then some 1 else none

/-- The READ_REQs of a READ: pieces of at most WINDOW × P bytes (R309); `fuel` bounds their number. -/
def readMsgs (q : Qp) (m : Msg) : Nat → Nat → BitVec 32 → List Msg
  | 0, _, _ => []
  | fuel + 1, off, psn =>
    let n := min (m.len - off) (q.window * q.payload)
    if n = 0 then []
    else
      let k := packetsOf n q.payload
      { m with first := psn, count := k, len := n, va := m.va + off, remote := m.remote + off }
        :: readMsgs q m fuel (off + n) (psn + BitVec.ofNat 32 k)

/-- MSG_LEN of a WRITE, WRITE_NOTIFY or SEND of `n` bytes: on a send-bound queue pair the output of its vein (R457). -/
def sentLen (c : Ctl) (n len : Nat) : Nat :=
  match c.boundVein 1 n with
  | some v => len / max 1 (veinIn v) * veinOut v
  | none => len

/-- The messages of a work entry (R242, R285, R286). -/
def msgsOf (c : Ctl) (q : Qp) (k : Nat) (e : Fetched) : List Msg :=
  let r := e.raw
  let out := sentLen c e.qp (getLe r 12 4)
  let op := e.opcode
  let m : Msg :=
    { ring := k, index := e.index, ptype := 0, first := q.tailPsn, count := 1, len := getLe r 12 4, va := getLe r 16 8
      inline := if e.inline then some (slice r 64 (getLe r 12 4)) else none, solicit := e.solicit, layer := e.layer }
  if op = 0x03 then
    readMsgs q { m with ptype := ptReadReq, handle := BitVec.ofNat 32 (getLe r 24 4), remote := getLe r 32 8 }
      (m.len / max 1 (q.window * q.payload) + 1) 0 q.tailPsn
  else if op = 0x04 then [{ m with ptype := ptSend, len := out, count := packetsOf out q.payload, notify := BitVec.ofNat 32 (getLe r 24 4) }]
  else if op = 0x05 ∨ op = 0x06 then
    [{ m with
        ptype := ptAtomicReq, len := if getByte r 12 = 1 then 8 else 4, va := 0, inline := none
        handle := BitVec.ofNat 32 (getLe r 24 4), remote := getLe r 32 8, opA := BitVec.ofNat 64 (getLe r 40 8)
        opB := BitVec.ofNat 64 (getLe r 48 8), wide := getByte r 12 == 1, cas := op == 0x06 }]
  else
    [{ m with
        ptype := if op = 0x02 then ptWriteNotify else ptWrite, len := out, count := packetsOf out q.payload
        handle := BitVec.ofNat 32 (getLe r 24 4), notify := if op = 0x02 then BitVec.ofNat 32 (getLe r 28 4) else 0
        remote := getLe r 32 8 }]

/-! ### Kicking a flow onto the wheel (R348, R354) -/

/-- Atomics sent and not answered (R331). -/
def atomicsOut (q : Qp) : Nat :=
  (q.psns.filter fun x => decide (0 < x.2.sent) && !x.2.done &&
    ((msgOf q (BitVec.ofNat 32 x.1)).map (·.ptype)) == some ptAtomicReq).length

/-- The send window admits the next new PSN (R309, R331). -/
def windowAdmits (q : Qp) (m : Msg) : Bool :=
  let d := psnDist q.sendPsn q.unaPsn
  if m.ptype = ptReadReq then decide (d + m.count ≤ q.window)
  else decide (d < q.window) && (m.ptype != ptAtomicReq || decide (atomicsOut q < 16))

/-- The oldest PSN due for retransmission (R317, R318, R326, R332). -/
def duePsn (q : Qp) : Option (BitVec 32) :=
  (q.psns.filter fun x => x.2.due && !x.2.done && !x.2.busyWait).foldl
    (fun best x =>
      let p := BitVec.ofNat 32 x.1
      match best with
      | none => some p
      | some b => if psnDist p q.unaPsn < psnDist b q.unaPsn then some p else some b) none

/-- The next new PSN, when there is one the window admits. -/
def newPsn (q : Qp) : Option Msg :=
  if q.sendPsn = q.tailPsn then none
  else match msgOf q q.sendPsn with
    | some m => if windowAdmits q m then some m else none
    | none => none

/-- The queue pair has a packet to send. -/
def hasWork (q : Qp) : Bool :=
  q.state == .ready && !q.stalled && ((duePsn q).isSome || !q.resps.isEmpty || (newPsn q).isSome)

/-- Put a queue pair that has a packet to send, and none under way, on the wheel of its home slice; one whose context is evicted has
it fetched first (R301, R349, R354). -/
def kick (c : Ctl) (d : Plane) (n : Nat) : Plane :=
  let q := d.qp n
  if (d.flow n).place != .idle then d
  else if !hasWork q then freeRoom d q.home
  else if q.resident then placeFlow c d q.home n
  else fetchQp d n

/-! ### Starting entries (R296) -/

/-- The local range of a transfer runs past the 57-bit space (R189). -/
def beyondSpace (e : Fetched) : Bool :=
  decide (1 ≤ e.opcode ∧ e.opcode ≤ 4) && !e.inline && decide (2 ^ 57 < getLe e.raw 16 8 + getLe e.raw 12 4)

/-- An entry that names a queue pair starts: by the state of its context it runs, waits, or completes. -/
def startQpEntry (c : Ctl) (d : Plane) (k : Nat) (e : Fetched) : Plane :=
  let n := e.qp
  let q := d.qp n
  let d := if q.resident then touchQp c d n else d
  match q.state with
  | .free | .init | .error => failEntry c d k e.index stAborted
  | .connecting => d.onEntry k e.index fun e => { e with phase := .running }
  | .ready =>
    let d := d.onEntry k e.index fun e => { e with phase := .running }
    if d.xpt.destroying.contains n then failEntry c d k e.index stAborted
    else if !q.resident then fetchQp d n
    else if (capBit e.opcode).any fun b => !q.caps.getLsbD b then failEntry c d k e.index stVersionMismatch
    else if beyondSpace e then failEntry c d k e.index stLocalAccess
    else
      let ms := msgsOf c q k e
      let tail := match ms.getLast? with | some m => m.first + BitVec.ofNat 32 m.count | none => q.tailPsn
      let d := traceEntry c d false k e 0 0
      kick c (d.onQp n fun q => { q with msgs := q.msgs ++ ms, tailPsn := tail }) n

/-- Entries that wait for their queue pair to be READY and resident start in ring order (R296, R301). -/
def startWaiting (c : Ctl) (d : Plane) (n : Nat) : Plane :=
  (entriesOf d n).foldl (fun d x =>
    match d.entry x.1 x.2 with
    | some e =>
      if e.phase == .running && !((d.qp n).msgs.any fun m => m.ring == x.1 && m.index == x.2) then startQpEntry c d x.1 e
      else d
    | none => d) d

/-! ### The next packet of a flow (R349) -/

/-- A packet chosen for sending: its PSN when it is of this end's sequence, and for a READ_REQ the bytes it asks for, by whose
responses it is charged (R353). -/
structure Pick where
  pkt : Pkt
  psn : Option (BitVec 32) := none
  asks : Option Nat := none
  deriving DecidableEq, Repr

inductive Picked where
  | nothing
  | stalled
  | send (p : Pick)
  deriving DecidableEq, Repr

/-- FLAGS of a packet (R269). -/
def pktFlags (first last ack solicit retrans : Bool) : Nat :=
  2 * b2n first + 4 * b2n last + 8 * b2n ack + 16 * b2n solicit + 32 * b2n retrans

/-- Wire bytes of the READ_RESP frames of a read of `n` bytes, tagged as the port its request leaves by tags (R353, log 144). -/
def respWire (c : Ctl) (q : Qp) (port n : Nat) : Nat :=
  let fixed := 14 + (if q.fabric then (if q.ipv6 then 48 else 28) else 0) + 32 + (if q.isSealed then 32 else 0) + 4
  let tag := 4 * (c.tagFor port q.tc).length
  let one (b : Nat) := max 64 (fixed + tag + b) + 20
  (n / q.payload) * one q.payload + (if n % q.payload = 0 ∧ 0 < n then 0 else one (n % q.payload))

/-- The run of response PSNs of a read that are not done, from PSN `p`, up to one that waits for the end of a BUSY (R326, R327). -/
def runOf (q : Qp) (m : Msg) (p : BitVec 32) : Nat → Nat
  | 0 => 0
  | fuel + 1 => if psnDist p m.first < m.count ∧ !q.donePsn p ∧ !(q.psnState p).busyWait then 1 + runOf q m (p + 1) fuel else 0

/-- A READ_REQ for `k` PSNs of a read from PSN `p` (R286, R326). -/
def readPick (c : Ctl) (q : Qp) (n : Nat) (m : Msg) (p : BitVec 32) (k : Nat) (retrans : Bool) : Pick :=
  let off := psnDist p m.first * q.payload
  let len := min (k * q.payload) (m.len - off)
  { pkt := qpPkt c q n ptReadReq (pktFlags true true true m.solicit retrans) q.tc p len 0
      (beBytes 4 m.handle.toNat ++ beBytes 4 0 ++ beBytes 8 (m.remote + off)) []
    psn := some p, asks := some len }

/-- A failed entry gives up the packets it has not sent: the PSNs after them move down (log 20). -/
def dropUnsent (q : Qp) (k : Nat) (i : BitVec 16) : Qp :=
  let step (acc : List Msg × BitVec 32 × BitVec 32) (m : Msg) : List Msg × BitVec 32 × BitVec 32 :=
    let m := { m with first := m.first - acc.2.1 }
    if m.ring = k ∧ m.index = i then
      let sent := if psnDist q.sendPsn m.first < 2 ^ 31 then min m.count (psnDist q.sendPsn m.first) else 0
      let gone := BitVec.ofNat 32 (m.count - sent)
      (if sent = 0 then acc.1 else acc.1 ++ [{ m with count := sent }], acc.2.1 + gone, acc.2.2 - gone)
    else (acc.1 ++ [m], acc.2.1, acc.2.2)
  let r := q.msgs.foldl step ([], 0, q.tailPsn)
  { q with msgs := r.1, tailPsn := r.2.2, stalled := false }

/-- An entry whose local access fails completes with a status and sends nothing more. -/
def abandonEntry (c : Ctl) (d : Plane) (n : Nat) (m : Msg) (p : BitVec 32) (status : Nat) : Plane :=
  failEntry c (d.onQp n fun q =>
    let q := if q.sentPsn p then q.setPsn p { q.psnState p with due := false } else q
    dropUnsent q m.ring m.index) m.ring m.index status

/-- The payload of a packet: its bytes of the message, read from local memory or the entry, through the vein of a send
stream (R286, R457); beside it the error that a vein meets. -/
def payloadOf (c : Ctl) (d : Plane) (n : Nat) (m : Msg) (off len : Nat) : Except Xfail (List Byte × Option (Nat × Nat × Nat)) × Plane :=
  let q := d.qp n
  let source (o k : Nat) : Except Xfail (List Byte) × Plane :=
    match m.inline with
    | some bs => (.ok (slice bs o k), d)
    | none => readVa c d q.home q.part (m.va + o) k
  match (if m.ring < 8192 then c.boundVein 1 n else none) with
  | none =>
    let r := source off len
    (r.1.map fun bs => (bs, none), r.2)
  | some v =>
    let uo := max 1 (veinOut v)
    let r := source (off / uo * veinIn v) (len / uo * veinIn v)
    match r.1 with
    | .error e => (.error e, r.2)
    | .ok bs =>
      let x := passVein c r.2 v n (off / uo) bs
      match x.1 with
      | .wait va k => (.error (.fault va k), x.2)
      | .done out err => (.ok (out, err), x.2)

/-- Completion status of a vein error (R475). -/
def veStatus (err : Nat) : Nat :=
  if err = veKeyExhausted then stKeyExhausted else if err = veTranslation then stTranslationFault
  else if err = veParity then stPoisoned else stLocalAccess

/-- The packet of a PSN: its payload is read from local memory, where a translation fault stalls the queue pair (R201). -/
def packetOf (c : Ctl) (d : Plane) (n : Nat) (m : Msg) (p : BitVec 32) (retrans : Bool) : Picked × Plane :=
  let q := d.qp n
  if m.ptype = ptReadReq then
    (.send (readPick c q n m p (if retrans then runOf q m p m.count else m.count) retrans), d)
  else if m.ptype = ptAtomicReq then
    (.send
      { pkt := qpPkt c q n ptAtomicReq (pktFlags true true true m.solicit retrans) q.tc p m.len 0
          (beBytes 4 m.handle.toNat ++ beBytes 1 (b2n m.cas) ++ beBytes 1 (b2n m.wide) ++ [0, 0] ++ beBytes 8 m.remote
            ++ beBytes 8 m.opA.toNat ++ beBytes 8 m.opB.toNat) []
        psn := some p }, d)
  else
    let off := psnDist p m.first * q.payload
    let len := min q.payload (m.len - off)
    let last := decide (off + len = m.len)
    let ext := if m.ptype = ptSend then beBytes 4 m.notify.toNat ++ [0, 0, 0, 0]
      else beBytes 4 m.handle.toNat ++ beBytes 4 m.notify.toNat ++ beBytes 8 m.remote
    let flags := pktFlags (off == 0) last (last || retrans || (q.sentSince + 1) % 32 == 0) m.solicit retrans
    let r := payloadOf c d n m off len
    match r.1 with
    | .ok (_, some (err, st, i)) =>
      let st' := veStatus err
      (.nothing, failQp c r.2 n st' (some (m.ring, m.index, { status := st', detail := veDetail err st i })) stAborted 0 true)
    | .ok (bs, none) => (.send { pkt := qpPkt c q n m.ptype flags q.tc p m.len off ext bs, psn := some p }, r.2)
    | .error (.fault va k) =>
      if k = .walkError then
        -- R204: the access completes with TRANSLATION_FAULT at once.
        (.nothing, abandonEntry c (r.2.raise 0x280 0x03 (some q.part)) n m p stTranslationFault)
      else
        let d := faultAccess c r.2 (accessOf .send q.part va false n) k (.entry m.ring m.index)
        (.stalled, (d.onQp n fun q => { q with stalled := true }).onEntry m.ring m.index fun e => { e with phase := .faulted })
    | .error _ => (.nothing, abandonEntry c r.2 n m p stLocalAccess)

/-- The READ_RESP that a queue pair sends next (R325). -/
def respPick (c : Ctl) (d : Plane) (n : Nat) (x : Resp) : Picked × Plane :=
  let q := d.qp n
  let r := readPieces c (ownerFn d q.part) x.phys d
  let d := winDone (r.2.onQp n fun q => { q with resps := q.resps.tail }) x.win
  match r.1 with
  | none => (.nothing, d)
  | some bs =>
    let flags := pktFlags (x.offset == 0) (x.offset + x.len == x.msgLen) false false false
    (.send { pkt := qpPkt c q n ptReadResp flags q.tc x.psn x.msgLen x.offset [] bs }, d)

/-- The one packet that a flow of a queue pair sends next (R349): a retransmission that is due, then a response, then the
next new PSN. -/
def pickPacket (c : Ctl) (d : Plane) (n : Nat) : Picked × Plane :=
  let q := d.qp n
  if !hasWork q then (.nothing, d)
  else match duePsn q with
    | some p => match msgOf q p with
      | some m => packetOf c d n m p true
      | none => (.nothing, d.onQp n fun q => q.setPsn p { q.psnState p with due := false })
    | none => match q.resps with
      | x :: _ => respPick c d n x
      | [] => match newPsn q with
        | some m => packetOf c d n m q.sendPsn false
        | none => (.nothing, d)

/-! ### Departure (R316, R317, R353) -/

/-- The retransmission timeout of R316. -/
def rtoOf (q : Qp) : Nat := min (max 8000 (q.srtt + 4 * q.rttvar) * 2 ^ q.backoff) 4096000

/-- The packet at UNA_PSN waits for the end of a BUSY: what is left of the timer is kept meanwhile (R332, log 145). -/
def Qp.suspend (q : Qp) (now : Nat) : Qp :=
  if q.timerOn && (q.psnState q.unaPsn).busyWait then { q with timerOn := false, timerLeft := some (q.timerAt - now) } else q

/-- The timer runs on once the packet at UNA_PSN waits for no BUSY (R332). -/
def Qp.resume (q : Qp) (now : Nat) : Qp :=
  match q.timerLeft with
  | some left => if (q.psnState q.unaPsn).busyWait then q else { q with timerOn := true, timerAt := now + left, timerLeft := none }
  | none => q

/-- Restart the timer of R317. -/
def Qp.restart (q : Qp) (now : Nat) : Qp :=
  ({ q with timerOn := true, timerAt := now + rtoOf q, timerLeft := none } : Qp).suspend now

/-- Mark `k` PSNs from `p` as sent now. -/
def sendRange (now : Nat) (retrans : Bool) (q : Qp) (p : BitVec 32) : Nat → Qp
  | 0 => q
  | k + 1 =>
    let x := q.psnState p
    sendRange now retrans
      (q.setPsn p { x with sent := x.sent + 1, sentAt := now, resentAt := if retrans then now else x.resentAt, due := false, nak := false })
      (p + 1) k

/-- A packet of this end's sequence has left, or is lost for want of a hop: its PSNs are sent, and the timer runs, anew when the
packet at UNA_PSN is resent for a NAK_GAP (R174, R316 to R318). -/
def departPsn (c : Ctl) (d : Plane) (n : Nat) (p : BitVec 32) : Plane :=
  d.onQp n fun q =>
    match msgOf q p with
    | none => q
    | some m =>
      let new := decide (p = q.sendPsn)
      let k := if m.ptype = ptReadReq then (if new then m.count else runOf q m p m.count) else 1
      let anew := decide (p = q.unaPsn) && (q.psnState p).nak
      let q := sendRange c.ns (!new) q p k
      let q := { q with sendPsn := if new then q.sendPsn + BitVec.ofNat 32 k else q.sendPsn, sentSince := q.sentSince + 1 }
      if (q.timerOn || q.timerLeft.isSome) && !anew then q else q.restart c.ns

/-- A flow's next-send time after `w` wire bytes (R353). -/
def chargeFlow (c : Ctl) (d : Plane) (key w : Nat) : Plane :=
  let f := d.flow key
  d.setFlow key { f with next := nextTime c f.next w (flowRate d key) }

/-- A seal request cannot be performed (R489): the entry that owns the packet completes KEY_EXHAUSTED and the queue pair
enters ERROR. -/
def keyExhausted (c : Ctl) (d : Plane) (n : Nat) (p : Option (BitVec 32)) : Plane :=
  let q := d.qp n
  let detail : Word := BitVec.ofNat 32 (q.txKey + 65536 * b2n (keySpent d q.txKey))
  let mine := match p.bind (msgOf q) with
    | some m => some (m.ring, m.index, { status := stKeyExhausted, detail := detail : Ending })
    | none => none
  failQp c d n stKeyExhausted mine stAborted 0 false

/-- A released flow of a queue pair takes its packet to a port (R348 stages 3 and 4). -/
def sendNext (c : Ctl) (d : Plane) (n : Nat) : Plane :=
  let r := pickPacket c d n
  match r.1 with
  | .nothing => kick c r.2 n
  | .stalled => freeRoom r.2 (r.2.qp n).home
  | .send x =>
    let d := r.2
    let q := d.qp n
    match qpHop c d q q.tc x.pkt.dstQp with
    | none =>
      kick c (match x.psn with | some p => departPsn c d n p | none => d) n
    | some port =>
      let wire := pktWire c d port q x.pkt q.isSealed
      let h : Head :=
        { flow := n, cls := q.tc, wire := wire, finish := 0, psn := x.psn.getD 0
          qp := x.psn.map fun _ => n, charge := (x.asks.map (respWire c q port)).getD wire, isSealed := q.isSealed
          frame := wrapGxt c d port q q.tc x.pkt.bytes }
      if q.isSealed then
        let s := drawSeal c d q.txKey
        match s.1 with
        | none => keyExhausted c s.2 n x.psn
        | some k =>
          let aad := x.pkt.aad k.counter q.peerRxKey
          (enterCipher s.2
            { core := coreFor c s.2 k.m410 (port / 12), work := coreWork k.m410 aad.length x.pkt.payload.length, group := port
              sealing := some h, aad := aad, text := x.pkt.payload, nonce := k.nonce, key := k.key }).setFlow n
            { s.2.flow n with place := .cipher }
      else present d port h

/-- A sealed packet leaves the scheduler: it is presented at its port, or lost (R174, R480, R490, R493). -/
def sealDone (c : Ctl) (d : Plane) (r : CipReq) (h : Head) : Plane :=
  let port := r.group
  let f := withGxt h.frame (d.port port).group r.sealed
  if h.cls = 7 then
    if r.lost then d
    else match h.since with
      | none => d.queue7 port f
      | some t => queueAck d port f t (some (r.nonce, r.key))
  else if r.lost ∨ (d.qp h.flow).state ≠ .ready then
    let d := d.setFlow h.flow { d.flow h.flow with place := .idle }
    let d := match h.qp with | some n => departPsn c d n h.psn | none => d
    kick c d h.flow
  else present d port { h with frame := f }

/-! ### Pacing (R350) -/

def aiD (d : Plane) : Nat := bits (d.reg Reg.paceAi) 15 0 * 100
def aiE (d : Plane) : Nat := bits (d.reg Reg.paceAi) 31 16 * 100
def betaOf (d : Plane) : Nat := bits (d.reg Reg.paceMd) 7 0
def maxMd (d : Plane) : Nat := bits (d.reg Reg.paceMd) 15 8
def gOf (d : Plane) : Nat := bits (d.reg Reg.paceMd) 23 16
def ecnPeriod (d : Plane) : Nat := bits (d.reg Reg.paceLimits) 31 16 * 1000
def targetAdd (d : Plane) : Nat := bits (d.reg Reg.paceCfg) 15 0

/-- alpha of 1, in the units that alpha is kept in. -/
def alphaOne : Nat := 2 ^ 64

/-- The least round trip of the present epoch and the one before. -/
def baseOf (q : Qp) : Nat :=
  match q.baseCur, q.basePrev with
  | some a, some b => min a b
  | some a, none => a
  | none, some b => b
  | none, none => q.base

/-- A round-trip sample less its hold time updates the delay rate (R350). -/
def paceDelay (c : Ctl) (d : Plane) (q : Qp) (f : Nat) : Qp :=
  let q := { q with baseCur := some (match q.baseCur with | some b => min b f | none => f) }
  let q := { q with base := baseOf q }
  let target := q.base + targetAdd d
  if c.ns - q.lastD < q.srtt then { q with rateD := clampNat (minRate d) lineRate q.rateD }
  else
    let rd := if target < f then
        max (q.rateD * (256 * f - betaOf d * (f - target)) / (256 * f)) (q.rateD * (256 - maxMd d) / 256)
      else q.rateD + aiD d
    { q with rateD := clampNat (minRate d) lineRate rd, lastD := c.ns }

/-- An acknowledgement that makes `n` PSNs done with `ce` marks (R350). -/
def paceEcn (c : Ctl) (d : Plane) (q : Qp) (n ce : Nat) : Qp :=
  if n = 0 then q
  else
    let alpha := ((256 - gOf d) * q.alpha + gOf d * (min ce n * alphaOne / n)) / 256
    let q := { q with alpha := alpha }
    if ce = 0 then q
    else
      let q := { q with lastQuiet := c.ns }
      if c.ns - q.lastE < ecnPeriod d then q
      else { q with rateE := clampNat (minRate d) lineRate (q.rateE * (2 * alphaOne - alpha) / (2 * alphaOne)), lastE := c.ns }

/-- ecn_period without marks (R350). -/
def paceQuiet (c : Ctl) (d : Plane) (q : Qp) : Qp :=
  { q with
    rateE := clampNat (minRate d) lineRate (q.rateE + aiE d)
    alpha := (256 - gOf d) * q.alpha / 256, lastQuiet := c.ns }

/-- A round-trip sample (R316). -/
def rttSample (q : Qp) (s : Nat) : Qp :=
  let diff := if q.srtt < s then s - q.srtt else q.srtt - s
  { q with rttvar := (3 * q.rttvar + diff) / 4, srtt := (7 * q.srtt + s) / 8, backoff := 0 }

/-! ### Done PSNs and completion (R315, R324) -/

/-- UNA_PSN moves past leading done PSNs; an advance restarts the timer and clears RETRIES (R315, R317). `fuel` bounds the
window. -/
def advance (now : Nat) : Nat → Qp → Qp
  | 0, q => q
  | fuel + 1, q =>
    if q.unaPsn ≠ q.sendPsn ∧ (q.psnState q.unaPsn).done then
      let q := { q.setPsn q.unaPsn {} with unaPsn := q.unaPsn + 1, retries := 0 }
      advance now fuel (if q.unaPsn = q.sendPsn then { q with timerOn := false, timerLeft := none } else q.restart now)
    else q

/-- An entry whose messages are all done completes OK, one whose source access still waits to be resent too (R324). -/
def completeDone (c : Ctl) (d : Plane) (n : Nat) (result : DWord) : Plane :=
  let q := d.qp n
  let finished := q.msgs.filter fun m => decide (m.count ≤ doneOf q m)
  let d := d.onQp n fun q => { q with msgs := q.msgs.filter fun m => !finished.contains m }
  (drained · n) <| finished.foldl (fun d m =>
    if (d.qp n).msgs.any fun x => x.ring == m.ring && x.index == m.index then d
    else if 8192 ≤ m.ring then remoteEnd d m.ring stOk
    else match d.entry m.ring m.index with
      | none => d
      | some e =>
        let d := if e.phase == .faulted then d.onQp n fun q => { q with stalled := false } else d
        finishEntry c d m.ring m.index
          { result := if m.ptype = ptAtomicReq then result else 0
            bytes := if m.ptype = ptAtomicReq then 0 else getLe e.raw 12 4 }) d

/-- Mark PSNs done, advance UNA_PSN, complete entries and send on (R315, R324, R354). -/
def markDone (c : Ctl) (d : Plane) (n : Nat) (ps : List (BitVec 32)) (result : DWord) : Plane :=
  let d := d.onQp n fun q =>
    let q := ps.foldl (fun q p => q.setPsn p { q.psnState p with done := true, due := false, busyWait := false }) q
    advance c.ns 4096 q
  kick c (completeDone c d n result) n

/-- The PSNs that are not done of the READ whose range holds PSN `p`: it is requested again run by run (R326). After a NAK_GAP those
resent within the last srtt are skipped (R318). -/
def readRest (now : Nat) (q : Qp) (p : BitVec 32) (timeout : Bool) : List (BitVec 32) :=
  match msgOf q p with
  | none => []
  | some m =>
    if m.ptype ≠ ptReadReq then []
    else (q.psns.filter fun x =>
      decide (psnDist (BitVec.ofNat 32 x.1) m.first < m.count) && decide (0 < x.2.sent) && !x.2.done && !x.2.busyWait
        && (timeout || x.2.resentAt == 0 || decide (q.srtt ≤ now - x.2.resentAt))).map fun x => BitVec.ofNat 32 x.1

/-- An acknowledgement with CODE 0 or NAK_GAP (R315 to R318, R350). -/
def takeAck (c : Ctl) (d : Plane) (n : Nat) (ext : List Byte) : Plane :=
  let q := d.qp n
  let code := getByte ext 0
  let cum := BitVec.ofNat 32 (getBe ext 4 4)
  let trigger := BitVec.ofNat 32 (getBe ext 8 4)
  let hold := getBe ext 12 2
  let ce := getByte ext 14
  let map := beNat (slice ext 16 32)
  let covered (p : BitVec 32) : Bool :=
    decide (0 < psnDist cum p ∧ psnDist cum p < 2 ^ 31) || (decide (1 ≤ psnDist p cum ∧ psnDist p cum ≤ 256) && nbit map (psnDist p cum - 1))
  let plain (p : BitVec 32) : Bool := match msgOf q p with
    | some m => m.ptype == ptWrite || m.ptype == ptWriteNotify || m.ptype == ptSend
    | none => true
  let open_ := (q.psns.filter fun x => decide (0 < x.2.sent) && !x.2.done).map fun x => BitVec.ofNat 32 x.1
  let newly := open_.filter fun p => covered p && plain p
  let t := q.psnState trigger
  let d := if q.sentPsn trigger && t.sent == 1 then
      d.onQp n fun q =>
        let s := c.ns - t.sentAt
        paceDelay c d (rttSample q s) (s - hold)
    else d
  let d := d.onQp n fun q => paceEcn c d q newly.length ce
  let d := markDone c d n newly 0
  if code ≠ ackGap then d
  else
    let top := (List.range 256).foldl (fun best i => if nbit map i then i + 1 else best) 0
    kick c (d.onQp n fun q =>
      let resend := (q.psns.filter fun x =>
        let p := BitVec.ofNat 32 x.1
        decide (0 < x.2.sent) && !x.2.done && decide (psnDist p cum < top) && !x.2.busyWait
          && (x.2.resentAt == 0 || decide (q.srtt ≤ c.ns - x.2.resentAt))).map fun x => BitVec.ofNat 32 x.1
      (resend ++ readRest c.ns q q.unaPsn false).foldl (fun q p => q.setPsn p { q.psnState p with due := true, nak := true }) q) n

/-- A BUSY for a PSN (R332): resend after the hint doubled for each BUSY in a row. -/
def markBusy (c : Ctl) (d : Plane) (n : Nat) (p : BitVec 32) (retry detail : Nat) : Plane :=
  let q := d.qp n
  let x := q.psnState p
  if !q.sentPsn p || x.done then d
  else d.onQp n fun q => (q.setPsn p { x with
    busy := x.busy + 1, busyAt := if x.busy = 0 then c.ns else x.busyAt, busyWait := true, busyDetail := detail, due := false
    nak := false, busyFor := if x.busy = 0 then bits (d.reg Reg.busyLimit) 13 0 * 1000000 else x.busyFor
    busyUntil := c.ns + min (retry * 2 ^ x.busy) 1024 * 1000 }).suspend c.ns

/-- The entry that owns a PSN, or else the oldest outstanding one. -/
def ownerOf (q : Qp) (p : BitVec 32) : Option Msg := if q.sentPsn p then msgOf q p else none

/-- ACCESS or NO_QP (R332 to R334). -/
def takeReject (c : Ctl) (d : Plane) (n code detail : Nat) (trigger : BitVec 32) : Plane :=
  let q := d.qp n
  let m := if code = ackNoQp then (ownerOf q trigger).or q.msgs.head? else ownerOf q trigger
  let mine := m.map fun m => (m.ring, m.index,
    ({ status := stRemoteAccess, bytes := doneBytes q m, detail := BitVec.ofNat 32 (detail + 256 * code) } : Ending))
  if code = ackAccess ∧ m.isNone then d
  else failQp c d n stRemoteAccess mine stAborted 0 (code == ackAccess)

/-- What a queue pair's entries and vein accesses have outstanding is given up: they complete ABORTED (R238). -/
def drainOver (c : Ctl) (d : Plane) (n : Nat) : Plane :=
  let d := (d.qp n).msgs.foldl (fun d m => remoteEnd d m.ring stAborted) d
  let d := d.onQp n fun q => { q with msgs := [], psns := [], timerOn := false, timerLeft := none }
  drained (completeAll c stAborted 0 (entriesOf d n) d) n

/-- R238's drain of a queue pair: nothing new is sent for its entries and vein accesses; what has nothing unacknowledged completes
ABORTED at once, and the rest when its last PSN is done or the retry limit ends it. -/
def drainQp (c : Ctl) (d : Plane) (n : Nat) : Plane :=
  let owners := ((d.qp n).msgs.map fun m => (m.ring, m.index)).eraseDups
  let stop (d : Plane) (x : Nat × BitVec 16) : Plane :=
    let d := if x.1 < 8192 then d.onEntry x.1 x.2 fun e => { e with phase := .aborting } else d
    let d := d.onQp n fun q => dropUnsent q x.1 x.2
    if (d.qp n).msgs.any fun m => m.ring == x.1 && m.index == x.2 then d else remoteEnd d x.1 stAborted
  let d := completeDone c (owners.foldl stop d) n 0
  (entriesOf d n).foldl (fun d x =>
    if (d.qp n).msgs.any fun m => m.ring == x.1 && m.index == x.2 then d else failEntry c d x.1 x.2 stAborted) d

/-- A DISCONNECT from the peer: the context enters ERROR, and its entries drain (R238, R293). -/
def disconnected (c : Ctl) (d : Plane) (n : Nat) : Plane :=
  let d := drainQp c (quietQp c d n true) n
  d.onQp n fun q => { q with state := .error, lastStatus := stAborted }

/-- The retransmission timer expires (R317, R319). -/
def rtoFires (c : Ctl) (d : Plane) (n : Nat) : Plane :=
  let q := d.qp n
  if !q.timerOn || decide (c.ns < q.timerAt) then d
  else if q.retries < 15 then
    kick c ((d.onQp n fun q =>
      let q := (q.unaPsn :: readRest c.ns q q.unaPsn true).foldl (fun q p => q.setPsn p { q.psnState p with due := true }) q
      { q with retries := q.retries + 1, backoff := q.backoff + 1 }.restart c.ns).relStick .timeout) n
  else
    let mine := (msgOf q q.unaPsn).map fun m => (m.ring, m.index,
      ({ status := stRetryExhausted, detail := q.unaPsn } : Ending))
    if q.state = .error then drainOver c d n
    else failQp c (d.relStick .exhausted) n stRetryExhausted mine stAborted 0 true

/-- The backoff of a BUSY ends (R332). -/
def busyOver (c : Ctl) (d : Plane) (n : Nat) (p : BitVec 32) : Plane :=
  let x := (d.qp n).psnState p
  if x.busyWait && decide (x.busyUntil ≤ c.ns) then
    kick c (d.onQp n fun q => (q.setPsn p { x with busyWait := false, due := true }).resume c.ns) n
  else d

/-- BUSY_LIMIT passes from the first BUSY on a PSN (R332, R333). -/
def busyLimit (c : Ctl) (d : Plane) (n : Nat) (p : BitVec 32) : Plane :=
  let q := d.qp n
  let x := q.psnState p
  if x.busy = 0 ∨ x.done ∨ c.ns - x.busyAt < x.busyFor then d
  else
    let mine := (msgOf q p).map fun m => (m.ring, m.index,
      ({ status := stBusyTimeout, detail := BitVec.ofNat 32 x.busyDetail } : Ending))
    failQp c (d.relStick .busyTimeout) n stBusyTimeout mine stAborted 0 true

/-- Entering READY sets the pacing state and the timeout (R316, R350). -/
def enterReady (c : Ctl) (q : Qp) (rtt : Nat) : Qp :=
  { q with
    state := .ready, rateD := lineRate, rateE := lineRate, alpha := alphaOne, base := rtt, baseCur := some rtt, basePrev := none
    epochAt := c.ns, lastD := c.ns, lastE := c.ns, lastQuiet := c.ns, srtt := rtt, rttvar := rtt / 2, backoff := 0, retries := 0 }

end Sys2Proof.Machine
end

