-- ==== Sys2Proof/Machine/Connect.lean ====
section
/-! DEFINITION. Connection packets and the states of a context (R278, R279, R293 to R297). -/
namespace Sys2Proof.Machine

/-- The CONNECT extension of a context (R278). -/
def connectExt (q : Qp) : List Byte :=
  beBytes 2 2 ++ beBytes 2 q.offerPayload ++ beBytes 2 q.offerWindow ++ beBytes 2 (if q.isSealed then q.rxKey else 0)
    ++ beBytes 8 q.offerCaps.toNat ++ beBytes 4 q.initPsn.toNat ++ beBytes 1 (b2n q.isSealed) ++ List.replicate 11 0

/-- The REJECT extension (R278). -/
def rejectExt (reason : Nat) : List Byte := beBytes 1 reason ++ [0] ++ beBytes 2 2 ++ [0, 0, 0, 0]

/-- Send a connection packet of a context. -/
def sendConn (c : Ctl) (d : Plane) (n ptype : Nat) : Plane :=
  let q := d.qp n
  sendClass7 c d n (qpPkt c q n ptype 6 7 0 0 0 (connectExt q) []) false

/-- Answer a CONNECT_REQ with CONNECT_REJECT, as a reply to its sender. -/
def sendReject (c : Ctl) (d : Plane) (p : Pkt) (reason : Nat) (back : Option (Nat × Frame)) : Plane :=
  let reply : Pkt :=
    { ptype := ptConnectReject, dst := p.src, src := c.selfNode, dstQp := p.srcQp, srcQp := p.dstQp
      inc := c.dev.incarnation, ext := rejectExt reason }
  match replyTo c d p.dstQp reply back with
  | none => d
  | some (port, f) => d.queue7 port f

/-- What a received CONNECT extension says. -/
structure Offer where
  version : Bool
  payload : Nat
  window : Nat
  rxKey : Nat
  caps : DWord
  initPsn : BitVec 32
  isSealed : Bool
  deriving DecidableEq, Repr

def offerOf (ext : List Byte) : Offer :=
  { version := nbit (getBe ext 0 2) 1, payload := getBe ext 2 2, window := getBe ext 4 2, rxKey := getBe ext 6 2
    caps := BitVec.ofNat 64 (getBe ext 8 8), initPsn := BitVec.ofNat 32 (getBe ext 16 4), isSealed := nbit (getByte ext 20) 0 }

/-- Capabilities are acceptable (R294); an offer outside R278's ranges is not. -/
def capsOk (q : Qp) (o : Offer) : Bool :=
  q.isSealed == o.isSealed && (!q.isSealed || (q.offerCaps &&& o.caps).getLsbD 0)
    && decide (256 ≤ o.payload) && decide (o.payload ≤ 8192) && o.payload % 256 == 0
    && decide (1 ≤ o.window) && decide (o.window ≤ 2048)

/-- The context after an accepted negotiation (R294). -/
def negotiated (c : Ctl) (q : Qp) (p : Pkt) (o : Offer) : Qp :=
  let rtt := c.ns - q.connAt
  let q := { q with
    version := 1, caps := q.offerCaps &&& o.caps, payload := min q.offerPayload o.payload
    window := min q.offerWindow o.window, peerInc := p.inc, peerRxKey := o.rxKey, peerInitPsn := o.initPsn
    recvPsn := o.initPsn, timerOn := false }
  enterReady c q rtt

/-- Negotiation fails: the waiting entries complete VERSION_MISMATCH and the context enters ERROR (R293). -/
def mismatch (c : Ctl) (d : Plane) (n : Nat) : Plane := failQp c d n stVersionMismatch none stVersionMismatch 0 false

/-- The packet is from the peer of the context. -/
def fromPeer (q : Qp) (p : Pkt) : Bool := q.peerNode == p.src && q.peerQp == p.srcQp

/-- A received CONNECT_REQ for a context (R293). -/
def takeConnectReq (c : Ctl) (d : Plane) (p : Pkt) (back : Option (Nat × Frame)) : Plane :=
  let n := p.dstQp
  let q := d.qp n
  let o := offerOf p.ext
  match q.state with
  | .free => d
  | .init | .error => sendReject c d p 2 back
  | .connecting =>
    if !fromPeer q p then sendReject c d p 2 back
    else if !o.version then mismatch c (sendReject c d p 0 back) n
    else if !capsOk q o then mismatch c (sendReject c d p 1 back) n
    else startWaiting c (sendConn c (d.setQp n (negotiated c q p o)) n ptConnectAccept) n
  | .ready =>
    if fromPeer q p && p.inc == q.peerInc && o.initPsn == q.peerInitPsn then sendConn c d n ptConnectAccept
    else sendReject c d p 2 back

/-- A received CONNECT_ACCEPT (R293). -/
def takeConnectAccept (c : Ctl) (d : Plane) (p : Pkt) : Plane :=
  let n := p.dstQp
  let q := d.qp n
  let o := offerOf p.ext
  if q.state ≠ .connecting ∨ !fromPeer q p then d
  else if !o.version || !capsOk q o then mismatch c d n
  else startWaiting c (d.setQp n (negotiated c q p o)) n

/-- A received CONNECT_REJECT (R293). -/
def takeConnectReject (c : Ctl) (d : Plane) (p : Pkt) : Plane :=
  let q := d.qp p.dstQp
  if q.state ≠ .connecting ∨ !fromPeer q p ∨ 1 < getByte p.ext 0 then d else mismatch c d p.dstQp

/-- The time the retry timer runs (R295). -/
def connRetryNs (d : Plane) : Nat := bits (d.reg Reg.connRetry) 15 0 * 1000

/-- A CONNECT_REQ departs: the round trip of its queue pair runs from now (R316, log 35). -/
def departConn (c : Ctl) (d : Plane) (p : Pkt) : Plane :=
  if p.ptype = ptConnectReq ∧ p.src = c.selfNode ∧ (d.qp p.srcQp).state = .connecting then d.onQp p.srcQp fun q => { q with connAt := c.ns }
  else d

/-- CONNECT of a context in INIT (R293). -/
def connectQp (c : Ctl) (d : Plane) (n : Nat) : Plane :=
  let d := d.onQp n fun q => { q with
    state := .connecting, retries := 0, connAt := c.ns, timerOn := true, timerAt := c.ns + connRetryNs d }
  sendConn c d n ptConnectReq

/-- The retry timer expires (R293); an evicted context is fetched first (R301). -/
def connRetry (c : Ctl) (d : Plane) (n : Nat) : Plane :=
  let q := d.qp n
  if q.state ≠ .connecting ∨ c.ns < q.timerAt then d
  else if !q.resident then fetchQp d n
  else if q.retries < 15 then
    sendConn c (d.onQp n fun q => { q with retries := q.retries + 1, timerAt := c.ns + connRetryNs d }) n ptConnectReq
  else failQp c d n stRetryExhausted none stRetryExhausted 0 false

/-- A context back in INIT: PSNs from INIT_PSN, negotiated fields cleared, offers restored (R293). -/
def resetQp (q : Qp) : Qp :=
  { state := .init, isSealed := q.isSealed, fabric := q.fabric, ipv6 := q.ipv6, pin := q.pin, tc := q.tc, part := q.part
    peerNode := q.peerNode, peerQp := q.peerQp, home := q.home, offerPayload := q.offerPayload, payload := q.offerPayload
    entropy := q.entropy, cq := q.cq, srq := q.srq, offerWindow := q.offerWindow, window := q.offerWindow, txKey := q.txKey
    rxKey := q.rxKey, offerCaps := q.offerCaps, initPsn := q.initPsn, sendPsn := q.initPsn, tailPsn := q.initPsn
    unaPsn := q.initPsn, peerMac := q.peerMac, localIp := q.localIp, peerIp := q.peerIp, resident := q.resident
    usedAt := q.usedAt }

end Sys2Proof.Machine
end

