-- ==== Sys2Proof/Machine/Windows.lean ====
section
/-! DEFINITION. Remote windows (R212 to R223): opening, revoking, the check of an arriving access, violations. -/
namespace Sys2Proof.Machine

/-- Index and generation of a window handle (R212). -/
def handleIndex (h : Word) : Nat := bits h 19 0
def handleGen (h : Word) : BitVec 12 := BitVec.ofNat 12 (bits h 31 20)
def handleOf (w : Nat) (gen : BitVec 12) : Word := field w 20 0 ||| field gen.toNat 12 20

/-- Whether a window index lies in a partition's window range (R498). -/
def Plane.winInPart (d : Plane) (p w : Nat) : Bool :=
  let r := (d.part p).wins
  decide (r.base * 1024 ≤ w) && decide (w < (r.base + r.count) * 1024)

/-- The partition whose window range holds an index. -/
def partOfWin (d : Plane) (w : Nat) : Option Nat :=
  (d.parts.find? fun x => decide (x.2.wins.base * 1024 ≤ w) && decide (w < (x.2.wins.base + x.2.wins.count) * 1024)).map (·.1)

/-- The rights of R213. -/
inductive Right where
  | read | write | atomic
  deriving DecidableEq, Repr

def Right.num : Right → Nat
  | .read => 0 | .write => 1 | .atomic => 2

/-- The check of R216: `none` when the access is accepted, or the CAUSE of R220. -/
def winCause (d : Plane) (h : Word) (n part peer : Nat) (r : Right) (off len : Nat) : Option Nat :=
  let w := d.win (handleIndex h)
  if handleGen h ≠ w.gen then some 0
  else if w.state = .closed then some 1
  else if w.state = .closing then some 2
  else if w.part ≠ part then some 6
  else if (w.scope = 1 ∧ w.peerNode ≠ peer) ∨ (w.scope = 2 ∧ w.peerQp ≠ n) then some 5
  else if !nbit w.rights r.num then some 3
  else if w.len < off + len then some 4
  else none

/-- Bytes 8 to 29 of a WINDOW_VIOLATION (R220). -/
def violationBody (h : Word) (node qp off cause : Nat) : List Byte :=
  leBytes 4 h.toNat ++ leBytes 4 (node % 2 ^ 20) ++ leBytes 4 (qp % 2 ^ 24) ++ leBytes 8 off ++ leBytes 1 cause ++ [0]

def coalesceNs (d : Plane) : Nat := bits (d.reg Reg.winCoalesce) 9 0 * 1000

/-- A rejected access: its event, or a count in the open coalescing interval (R219). -/
def violation (c : Ctl) (d : Plane) (h : Word) (node qp off cause : Nat) : Plane :=
  let i := handleIndex h
  match partOfWin d i with
  | none => d
  | some p =>
    let w := d.win i
    let body := violationBody h node qp off cause
    if w.coalescing then d.setWin i { w with counted := w.counted + 1, last := body }
    else
      pushEvent c (d.setWin i { w with coalescing := true, coalesceEnd := c.ns + coalesceNs d, counted := 0, last := [] }) p 2
        (body ++ [0, 0])

/-- The coalescing interval of a window index ends (R219). -/
def coalesceOver (c : Ctl) (d : Plane) (i : Nat) : Plane :=
  let w := d.win i
  if !w.coalescing || decide (c.ns < w.coalesceEnd) then d
  else if w.counted = 0 then d.setWin i { w with coalescing := false, last := [] }
  else
    let d := d.setWin i { w with coalesceEnd := c.ns + coalesceNs d, counted := 0, last := [] }
    match partOfWin d i with
    | none => d
    | some p => pushEvent c d p 2 (w.last ++ leBytes 2 (min w.counted 0xFFFF))

/-- WINDOW_OPEN (R213, R214); BASE + LENGTH beyond 2^57 is LOCAL_ACCESS (R189). -/
def winOpen (c : Ctl) (d : Plane) (k : Nat) (e : Fetched) : Plane :=
  let p := d.wrgPart k
  let i := getLe e.raw 8 4 % 2 ^ 20
  let w := d.win i
  if !d.winInPart p i || w.state != .closed || decide (2 ^ 57 < getLe e.raw 16 8 + getLe e.raw 24 8) then failEntry c d k e.index stLocalAccess
  else
    let w := { w with
      state := .isOpen, part := p, base := getLe e.raw 16 8, len := getLe e.raw 24 8, rights := getByte e.raw 12
      scope := getByte e.raw 13, peerNode := getLe e.raw 32 4, peerQp := getLe e.raw 36 4, inflight := 0, revoke := none }
    finishEntry c (d.setWin i w) k e.index { result := (handleOf i w.gen).setWidth 64 }

/-- WINDOW_REVOKE (R214): closed at once with nothing in flight, or completed when the last accepted access finishes. -/
def winRevoke (c : Ctl) (d : Plane) (k : Nat) (e : Fetched) : Plane :=
  let p := d.wrgPart k
  let h := BitVec.ofNat 32 (getLe e.raw 8 4)
  let i := handleIndex h
  let w := d.win i
  if handleGen h ≠ w.gen ∨ w.state ≠ .isOpen ∨ w.part ≠ p then failEntry c d k e.index stLocalAccess
  else if w.inflight = 0 then
    finishEntry c (d.setWin i { w with state := .closed, gen := w.gen + 1 }) k e.index {}
  else
    (d.setWin i { w with state := .closing, revoke := some (k, e.index) }).onEntry k e.index fun e => { e with phase := .running }

/-- A device reset, or a partition reset, closes a window that is not CLOSED and moves its generation on (R570). -/
def closeWindow (d : Plane) (i : Nat) : Plane :=
  let w := d.win i
  if w.state = .closed then d.setWin i { w with inflight := 0, revoke := none, coalescing := false, counted := 0, last := [] }
  else d.setWin i { w with
    state := .closed, gen := w.gen + 1, inflight := 0, revoke := none, coalescing := false, counted := 0, last := [] }

/-- An accepted access to a window is in flight. -/
def winAccept (d : Plane) (i : Nat) : Plane := d.setWin i { d.win i with inflight := (d.win i).inflight + 1 }

/-- The six words of WIN_ENTRY (R222, R223). -/
def winWords (w : Window) : List Word :=
  let st := match w.state with | .closed => 0 | .isOpen => 1 | .closing => 2
  [ field st 2 0 ||| field w.part 5 2 ||| field w.rights 3 7 ||| field w.scope 2 10 ||| field w.gen.toNat 12 12
      ||| field (w.peerQp / 2 ^ 12) 8 24,
    BitVec.ofNat 32 w.base, field (w.base / 2 ^ 32) 25 0, BitVec.ofNat 32 w.len,
    field (w.len / 2 ^ 32) 13 0 ||| field (w.peerQp / 2 ^ 20) 4 13,
    field w.peerNode 20 0 ||| field w.peerQp 12 20 ]

/-- WIN_READ (R221). -/
def winRead (d : Plane) (i : Nat) : Plane :=
  (winWords (d.win i)).zipIdx.foldl (fun d x => d.setReg (Reg.winEntry x.2) x.1) d

end Sys2Proof.Machine
end

