-- ==== Sys2Proof/Machine/Coll.lean ====
section
/-! DEFINITION. Collectives on the ordinary path (R399 to R429): communicators, chunks, producers, placement, completion. -/
namespace Sys2Proof.Machine

/-! ### Communicators (R399 to R401) -/

/-- The members of the communicator of a record that holds the device, in rank order, with the device's rank; `none` when
the device lies outside it or a point of it has no member. -/
def commMembers (c : Ctl) (r : CommRec) : Option (Nat × List Nat) :=
  match c.group.members.find? (·.node == c.selfNode) with
  | none => none
  | some self =>
    let axes := (List.range 4).filter fun a => nbit r.mask a
    let at_ (l : List Nat) (a : Nat) : Nat := l[a]?.getD 0
    let size := (axes.map fun a => at_ r.extent a).foldl (· * ·) 1
    let digit (rank a : Nat) : Nat :=
      rank / ((axes.filter (· < a)).map fun b => at_ r.extent b).foldl (· * ·) 1 % max 1 (at_ r.extent a)
    let coordOf (rank : Nat) : List Nat := (List.range 4).map fun a =>
      if nbit r.mask a then at_ r.origin a + digit rank a * at_ r.stride a else at_ self.coord a
    let nodes := (List.range size).map fun rank =>
      (c.group.members.find? fun m => (List.range 4).all fun a => at_ m.coord a == at_ (coordOf rank) a).map (·.node)
    if nodes.all (·.isSome) then
      let ns := nodes.map (·.getD 0)
      (ns.findIdx? (· == c.selfNode)).map fun rank => (rank, ns)
    else none

/-- The communicator of a COMM_ID that a partition may use (R401). -/
def commOf (c : Ctl) (comm part : Nat) : Option (Nat × List Nat) :=
  match c.job.comms.find? (·.comm == comm) with
  | none => none
  | some r => if r.part = part then commMembers c r else none

/-! ### The entry (R402 to R407) -/

def opAllReduce : Nat := 1
def opReduceScatter : Nat := 2
def opAllGather : Nat := 3
def opBroadcast : Nat := 4
def opAllToAll : Nat := 5
def opDispatch : Nat := 6
def opCombine : Nat := 7
def opBarrier : Nat := 8

def Coll.op (x : Coll) : Nat := getByte x.raw 10
def Coll.inFmt (x : Coll) : Nat := getByte x.raw 11
def Coll.outFmt (x : Coll) : Nat := getByte x.raw 12
def Coll.round (x : Coll) : Nat := getByte x.raw 13
def Coll.count (x : Coll) : Nat := getLe x.raw 16 6
def Coll.root (x : Coll) : Nat := getLe x.raw 22 2
def Coll.src (x : Coll) : Nat := getLe x.raw 24 8
def Coll.dst (x : Coll) : Nat := getLe x.raw 32 8
def Coll.report (x : Coll) : Nat := getLe x.raw 48 8
def Coll.seed (x : Coll) : Nat := getLe x.raw 56 8
def Coll.size (x : Coll) : Nat := x.nodes.length

/-- PARAM_SIG of an entry (R406). -/
def paramSig (raw : List Byte) : Word := crc32c (slice raw 8 16 ++ slice raw 56 8)

/-- An operation that sums. -/
def sums (op : Nat) : Bool := op == opAllReduce || op == opReduceScatter || op == opCombine

/-- An operation whose chunks travel on a tree. -/
def onTree (op : Nat) : Bool := op == opAllReduce || op == opAllGather || op == opBroadcast

/-! ### Chunks (R416) -/

/-- K: elements of a whole chunk. -/
def chunkElems (f g : Nat) : Nat := 32768 / max 1 (max (fmtWidth f) (fmtWidth g)) / 32 * 32

def Coll.k (x : Coll) : Nat := max 1 (chunkElems x.inFmt x.outFmt)

/-- Row fields of the route descriptor (R425). -/
def Coll.rowVa (x : Coll) : Nat := getLe x.desc 0 8
def Coll.entryVa (x : Coll) : Nat := getLe x.desc 8 8
def Coll.rowElems (x : Coll) : Nat := getLe x.desc 16 4
def Coll.slots (x : Coll) : Nat := getLe x.desc 20 4
def Coll.countVa (x : Coll) : Nat := getLe x.desc 24 8

/-- Elements of the vector that is cut into chunks, and the number of its chunks. -/
def Coll.vlen (x : Coll) : Nat := if x.op = opDispatch ∨ x.op = opCombine then x.rowElems else x.count
def Coll.n (x : Coll) : Nat := max 1 (ceilDiv x.vlen x.k)

/-- Elements of chunk `j` of the vector. -/
def Coll.elems (x : Coll) (chunk : Nat) : Nat := let j := chunk % x.n; min x.k (x.vlen - j * x.k)

/-- The rank that produces a chunk; routed data is produced by its sender. -/
def Coll.producer (x : Coll) (chunk sender : Nat) : Nat :=
  let op := x.op
  if op = opAllReduce then chunk % x.size
  else if op = opReduceScatter ∨ op = opAllGather then chunk / x.n
  else if op = opBroadcast then x.root
  else sender

/-- Chunks of the reduced vector that this member produces, in order. -/
def Coll.owned (x : Coll) : List Nat :=
  let op := x.op
  if op = opAllReduce then (List.range x.n).filter fun i => i % x.size == x.rank
  else if op = opReduceScatter then (List.range x.n).map (x.rank * x.n + ·)
  else if op = opCombine then
    (((x.entries.map (·.1)).eraseDups).map fun row => (List.range x.n).map (row * x.n + ·)).flatten
  else []

/-- The entries of this member with a destination rank, within its slots (R426). -/
def Coll.entriesTo (x : Coll) (dest : Nat) : List Nat := ((x.entries.filter (·.2 == dest)).map (·.1)).take x.slots

/-- The addends of a produced chunk, as the identities that its bitmap holds: source ranks, or slot and rank for COMBINE
(R417, R427). -/
def Coll.addends (x : Coll) (chunk : Nat) : List Nat :=
  if x.op = opCombine then
    ((List.range x.size).map fun r =>
      (((x.entriesTo r).zipIdx.filter fun y => y.1 == chunk / x.n).map fun y => y.2 * x.size + r)).flatten
  else List.range x.size

/-- Chunks, with their destination, that this member sends as addends or data, in order; a chunk for the tree names its
own producer. -/
def Coll.outgoing (x : Coll) : List (Nat × Nat) :=
  let op := x.op
  let n := x.n
  let s := x.size
  if op = opAllReduce then (List.range n).map fun i => (i, i % s)
  else if op = opReduceScatter then (List.range (s * n)).map fun i => (i, i / n)
  else if op = opAllGather then (List.range n).map fun j => (x.rank * n + j, x.rank)
  else if op = opBroadcast then (if x.rank = x.root then (List.range n).map fun j => (j, x.rank) else [])
  else if op = opAllToAll then (List.range (s * n)).map fun i => (x.rank * s * n + i, i / n)
  else if op = opDispatch then
    ((List.range s).map fun r => (List.range ((x.entriesTo r).length * n)).map fun i => (i, r)).flatten
  else if op = opCombine then
    ((List.range s).map fun r => (List.range ((x.table[r]?.getD 0) * n)).map fun i => (i, r)).flatten
  else []

/-- First source element, and the base address it counts from, of a chunk sent to a rank. -/
def Coll.sourceAt (x : Coll) (chunk dest : Nat) : Nat × Nat :=
  let op := x.op
  let j := chunk % x.n
  let off := j * x.k
  if op = opReduceScatter then (x.src, chunk / x.n * x.count + off)
  else if op = opAllToAll then (x.src, dest * x.count + off)
  else if op = opDispatch then (x.rowVa, ((x.entriesTo dest)[chunk / x.n]?.getD 0) * x.rowElems + off)
  else if op = opCombine then (x.rowVa, (dest * x.slots + chunk / x.n) * x.rowElems + off)
  else (x.src, off)

/-- Bytes of the count table of DISPATCH (R426). -/
def Coll.tableBytes (x : Coll) : Nat := (x.size * 4 + 63) / 64 * 64

/-- First element, and the base address it counts from, at which a chunk from a rank is placed. -/
def Coll.placeAt (x : Coll) (chunk sender : Nat) : Nat × Nat :=
  let op := x.op
  let off := chunk % x.n * x.k
  if op = opAllReduce then (x.dst, chunk * x.k)
  else if op = opAllGather then (x.dst, chunk / x.n * x.count + off)
  else if op = opAllToAll then (x.dst, sender * x.count + off)
  else if op = opDispatch then (x.dst + x.tableBytes, (sender * x.slots + chunk / x.n) * x.rowElems + off)
  else if op = opCombine then (x.dst, chunk / x.n * x.rowElems + off)
  else (x.dst, off)

/-- What `placed` remembers of a chunk: its number, with its source for DISPATCH. -/
def Coll.placedKey (x : Coll) (chunk sender : Nat) : Nat := if x.op = opDispatch then sender * 2 ^ 48 + chunk else chunk

/-- Chunks destined to this member, when it can know their number: a destination of DISPATCH cannot (log 30). -/
def Coll.expected (x : Coll) : Option Nat :=
  let op := x.op
  if op = opAllReduce then some x.n
  else if op = opReduceScatter ∨ op = opCombine then some x.owned.length
  else if op = opAllGather ∨ op = opAllToAll then some (x.size * x.n)
  else if op = opBroadcast then some (if x.rank = x.root ∧ x.dst = 0 then 0 else x.n)
  else none

/-! ### Reading the source and writing the result, with the veins of a communicator (R458) -/

def Coll.readChunk (c : Ctl) (d : Plane) (x : Coll) (chunk dest : Nat) : Except Xfail (List Byte) × Plane :=
  let a := x.sourceAt chunk dest
  let len := elemBytes x.inFmt (x.elems chunk)
  match c.commVein x.comm 0 with
  | none => readVa c d x.engine x.part (a.1 + elemBytes x.inFmt a.2) len
  | some v =>
    let uo := max 1 (veinOut v)
    let r := readVa c d x.engine x.part (a.1 + elemBytes x.inFmt a.2 / uo * veinIn v) (len / uo * veinIn v)
    match r.1 with
    | .error e => (.error e, r.2)
    | .ok bs =>
      let y := passVein c r.2 v x.comm (elemBytes x.inFmt a.2 / uo) bs
      match y.1 with
      | .wait va k => (.error (.fault va k), y.2)
      | .done out _ => (.ok out, y.2)

/-- The format of a chunk on the receiving side: of results for reductions, else of the data. -/
def Coll.placeFmt (x : Coll) : Nat := if sums x.op then x.outFmt else x.inFmt

/-- Write a chunk's bytes at DST_VA: the bytes written, or the failure. -/
def Coll.writeChunk (c : Ctl) (d : Plane) (x : Coll) (chunk sender : Nat) (bs : List Byte) : Except Xfail Nat × Plane :=
  let a := x.placeAt chunk sender
  let off := elemBytes x.placeFmt a.2
  match c.commVein x.comm 1 with
  | none =>
    let r := writeVa c d x.engine x.part (a.1 + off) bs
    (r.1.map fun _ => bs.length, r.2)
  | some v =>
    let y := passVein c d v x.comm (off / max 1 (veinIn v)) bs
    match y.1 with
    | .wait va k => (.error (.fault va k), y.2)
    | .done out _ =>
      let r := writeVa c y.2 x.engine x.part (a.1 + off / max 1 (veinIn v) * veinOut v) out
      (r.1.map fun _ => out.length, r.2)

/-! ### The table of collectives -/

def Plane.coll (d : Plane) (comm : Nat) (ident : DWord) : Option Coll :=
  d.col.colls.find? fun x => x.comm == comm && x.ident == ident

def Plane.onColl (d : Plane) (x : Coll) (f : Coll → Coll) : Plane :=
  { d with col := { d.col with colls := modFirst (fun y => y.comm == x.comm && y.ident == x.ident) f d.col.colls } }

def Plane.putColl (d : Plane) (x : Coll) : Plane := d.onColl x fun _ => x

def Plane.dropColl (d : Plane) (x : Coll) : Plane :=
  { d with col := { d.col with colls := d.col.colls.filter fun y => !(y.comm == x.comm && y.ident == x.ident) } }

/-- The collective that runs an entry. -/
def collOfEntry (d : Plane) (k : Nat) (i : BitVec 16) : Option Coll :=
  d.col.colls.find? fun x => x.ring == k && x.index == i

/-- Whether the entry of a collective is being aborted. -/
def Coll.aborting (d : Plane) (x : Coll) : Bool :=
  match d.entry x.ring x.index with
  | some e => e.phase == .aborting
  | none => true

/-- A node of a rank, and whether a rank is live: no valid fence record (R435). -/
def Coll.node (x : Coll) (rank : Nat) : Nat := x.nodes[rank]?.getD 0
def Coll.live (c : Ctl) (d : Plane) (x : Coll) (rank : Nat) : Bool := rank == x.rank || (fenceOf c d (x.node rank)).isNone

/-- The other ranks that are live. -/
def Coll.others (c : Ctl) (d : Plane) (x : Coll) : List Nat :=
  (List.range x.size).filter fun r => r != x.rank && x.live c d r

/-- A collective still delivers: active, or in a closing exchange whose only cause is FENCE of a data-only operation
(R435, R437). -/
def Coll.delivers (x : Coll) : Bool :=
  x.state == .active || (x.state == .closing && !sums x.op && x.note.cause == 1)

/-! ### Packets (R423, R428, R429) -/

/-- The COLL extension. -/
def collExt (x : Coll) (code dest chunk : Nat) (crc : Word) : List Byte :=
  beBytes 2 x.comm ++ beBytes 1 x.op ++ beBytes 1 code ++ beBytes 2 x.rank ++ beBytes 2 dest ++ beBytes 8 x.ident.toNat
    ++ beBytes 8 chunk ++ beBytes 4 x.sig.toNat ++ beBytes 4 crc.toNat

def collTc (d : Plane) : Nat := bits (d.reg Reg.colCfg) 2 0
def resendNs (d : Plane) : Nat := bits (d.reg Reg.colTimeout) 15 0 * 1000
def resendLimit (d : Plane) : Nat := bits (d.reg Reg.colTimeout) 23 16

/-- Put a queued flow that is idle on its wheel. -/
def kickQueue (c : Ctl) (d : Plane) (slice key : Nat) : Plane :=
  if (d.flow key).place == .idle && !(d.flow key).queue.isEmpty then placeFlow c d slice key else d

/-- A COLL_CHUNK record of a chunk that the engine sends (R554, log 41). -/
def traceChunk (c : Ctl) (d : Plane) (x : Coll) (code chunk : Nat) : Plane :=
  traceRec c d 5 x.part (BitVec.ofNat 32 (getLe x.raw 4 4))
    (leBytes 2 x.comm ++ leBytes 1 code ++ [0] ++ leBytes 8 chunk ++ leBytes 4 x.ident.toNat)

/-- Send a chunk to a rank in the collective class (R423); its hop is chosen when its flow is released (R348). -/
def sendChunk (c : Ctl) (d : Plane) (x : Coll) (dest code chunk : Nat) (bs : List Byte) : Plane :=
  let tc := collTc d
  let d := traceChunk c d x code chunk
  let node := x.node dest
  let p : Pkt :=
    { ptype := ptCollData, tc := tc, dst := node, src := c.selfNode, inc := c.dev.incarnation, msgLen := bs.length
      ext := collExt x code dest chunk (crc32c bs), payload := bs }
  let key := collKey x.engine node
  if !c.maySend then d
  else kickQueue c (enqueueForward d key 48 { body := p.bytes }) x.engine key

/-- A COLL_ACK or COLL_RESEND about a chunk, from this member of a collective to a rank. -/
def sendCollControl (c : Ctl) (d : Plane) (x : Coll) (ptype code dest chunk : Nat) : Plane :=
  sendControl c d
    { ptype := ptype, dst := x.node dest, src := c.selfNode, inc := c.dev.incarnation, ext := collExt x code dest chunk 0 } false

/-- A COLL_ACK about a chunk whose collective does not run here: CODE 1 where it has not started (R418), CODE 0 where it has
completed (log 153). -/
def ackIdle (c : Ctl) (d : Plane) (p : Pkt) (code : Byte) : Plane :=
  sendControl c d
    { ptype := ptCollAck, dst := p.src, src := c.selfNode, inc := c.dev.incarnation
      ext := p.ext.take 3 ++ [code] ++ slice p.ext 6 2 ++ slice p.ext 4 2 ++ slice p.ext 8 20 ++ [0, 0, 0, 0] } false

/-! ### Trees (R419, R437) -/

/-- The rank at a position of the tree of a chunk produced at `t`, and the position of a rank. -/
def Coll.rankAt (x : Coll) (t pos : Nat) : Nat := (pos + t) % max 1 x.size
def Coll.posOf (x : Coll) (t rank : Nat) : Nat := (rank + x.size - t % max 1 x.size) % max 1 x.size

/-- The ranks to which position `pos` sends, the children of a fenced child in its place; `fuel` bounds the depth. -/
def Coll.children (c : Ctl) (d : Plane) (x : Coll) (t : Nat) : Nat → Nat → List Nat
  | 0, _ => []
  | fuel + 1, pos =>
    (((List.range 4).map fun i => 4 * pos + 1 + i).filter (· < x.size)).flatMap fun q =>
      let r := x.rankAt t q
      if x.live c d r then [r] else x.children c d t fuel q

/-- Send a chunk to the children of this member on the tree of its producer. -/
def sendTree (c : Ctl) (d : Plane) (x : Coll) (t code chunk : Nat) (bs : List Byte) : Plane :=
  (x.children c d t 6 (x.posOf t x.rank)).foldl (fun d r => sendChunk c d x r code chunk bs) d

/-- A chunk is sent now: one more send, under COL_TIMEOUT as it stands (R421, R440). -/
def sentNow (c : Ctl) (d : Plane) (s : Sending) : Sending :=
  { s with sends := s.sends + 1, resendAt := c.ns + resendNs d, limit := resendLimit d, period := resendNs d }

/-- Remember a chunk as sent and unacknowledged at a rank. -/
def Coll.track (c : Ctl) (d : Plane) (x : Coll) (chunk dest code : Nat) : Coll :=
  if x.sending.any fun s => s.chunk == chunk && s.dest == dest && s.code == code then x
  else { x with sending := x.sending ++ [sentNow c d { chunk := chunk, dest := dest, code := code }] }

/-- A tracked chunk goes to a rank once more. -/
def Coll.again (c : Ctl) (d : Plane) (x : Coll) (chunk dest : Nat) : Coll :=
  { x with sending := modFirst (fun s => s.chunk == chunk && s.dest == dest) (sentNow c d) x.sending }

/-! ### Placement -/

/-- Note the failure of an access of a collective: a translation fault waits in a slot (R201); any other failure is left
for the caller to end the entry. -/
def collFault (c : Ctl) (d : Plane) (x : Coll) (va : Nat) (k : Cause) (write : Bool) : Plane :=
  (faultAccess c d (accessOf .collective x.part va write) k (.entry x.ring x.index)).onEntry x.ring x.index
    fun e => if e.phase == .aborting then e else { e with phase := .faulted }

/-- How an attempt to place a chunk ends. -/
inductive Put where
  | placed
  | faulted
  | failed (status : Nat)
  deriving DecidableEq, Repr

/-- Status of an access that fails without waiting (R189, R204). -/
def xfailStatus : Xfail → Nat
  | .fault _ _ => stTranslationFault
  | _ => stLocalAccess

/-- Place a chunk at this member once. -/
def placeChunk (c : Ctl) (d : Plane) (x : Coll) (chunk sender : Nat) (bs : List Byte) : Put × Plane :=
  let key := x.placedKey chunk sender
  if x.placed.contains key then (.placed, d)
  else
    let r := x.writeChunk c d chunk sender bs
    match r.1 with
    | .ok n => (.placed, r.2.onColl x fun y => { y with placed := y.placed ++ [key], bytes := y.bytes + n })
    | .error (.fault va .walkError) => (.failed stTranslationFault, faultAccess c r.2 (accessOf .collective x.part va true) .walkError .other)
    | .error (.fault va k) => (.faulted, collFault c r.2 x va k true)
    | .error e => (.failed (xfailStatus e), r.2)

/-! ### Ending (R407, R408, R422) -/

/-- RESULT of a collective's completion. -/
def Coll.result (x : Coll) : DWord :=
  BitVec.ofNat 64 (x.ident.toNat % 2 ^ 32 + b2n x.saturated * 2 ^ 32 + b2n x.nanOut * 2 ^ 33 + b2n x.infOut * 2 ^ 34
    + b2n x.overflow * 2 ^ 35)

/-- Finished collectives whose notes an engine keeps (R436). -/
def keptRoom : Nat := 64

/-- Keep the final note of a collective, the last 64 of its engine. -/
def Plane.keep (d : Plane) (k : Kept) : Plane :=
  let old := d.col.kept.filter fun y => !y.late && y.engine == k.engine
  let l := d.col.kept ++ [k]
  let l := if old.length < keptRoom then l else match old with | o :: _ => l.erase o | [] => l
  { d with col := { d.col with kept := l } }

/-- The result and addend queues of a slot are emptied. -/
def clearSlot (d : Plane) (x : Coll) : Plane :=
  let a := engineQueue x.engine x.slot
  let b := engineQueue x.engine (8 + x.slot)
  let d := d.setQueue a (stgDrain (d.queue a))
  d.setQueue b (stgDrain (d.queue b))

/-- Complete a collective's entry: its slot and its packets still queued are given up. -/
def collEnd (c : Ctl) (d : Plane) (x : Coll) (status : Nat) (detail : Word) (note : Note) : Plane :=
  let d := if x.state = .waiting then d else clearSlot d x
  let d := d.dropColl x
  let d := d.keep { comm := x.comm, ident := x.ident, engine := x.engine, note := note, result := x.mqResult
                    answers := status == stLate || note.cause != 0 }
  finishEntry c d x.ring x.index { status := status, result := x.result, bytes := min x.bytes 0xFFFFFFFF, detail := detail }

/-- The report of R408. -/
def reportBytes (x : Coll) (status kind epoch chunk : Nat) (bitmap : List Byte) : List Byte :=
  leBytes 8 x.ident.toNat ++ leBytes 1 status ++ leBytes 1 kind ++ leBytes 2 x.size ++ leBytes 4 epoch ++ leBytes 8 chunk
    ++ List.replicate 8 0 ++ fitTo 128 bitmap ++ List.replicate 96 0

/-- A bitmap of ranks (R408). -/
def rankBitmap (rs : List Nat) : List Byte := leBytes 128 ((rs.eraseDups.map fun r => 2 ^ r).sum)

/-- End with MEMBER_FENCED or POISONED: the report comes before the completion (R408, R436). -/
def collEndReport (c : Ctl) (d : Plane) (x : Coll) : Plane :=
  let fenced := decide (x.note.cause % 2 = 1)
  let status := if fenced then stMemberFenced else stPoisoned
  let reason := if x.reason = 2 then 2 else if nbit x.note.cause 1 then 0 else 1
  let detail : Word := if fenced then x.note.epoch else BitVec.ofNat 32 (reason + 256 * (x.note.chunk % 2 ^ 24))
  let delivered := (if x.note.delivered then [x.rank] else []) ++
    ((List.range x.size).filter fun r => r != x.rank && (match SMap.find none x.notes r with | some n => n.delivered | none => false))
  let d := if x.report = 0 then d
    else
      let bs :=
        if fenced then
          (if sums x.op ∨ x.op = opBarrier then reportBytes x 7 0 x.note.epoch.toNat 0 []
           else reportBytes x 7 1 x.note.epoch.toNat 0 (rankBitmap delivered))
        else reportBytes x 8 2 0 x.note.chunk x.note.bitmap
      (writeVa c d x.engine x.part x.report bs).2
  collEnd c d x status detail x.note

/-- Every chunk destined to this member has been placed; a destination of DISPATCH learns it in a way that the spec does
not give, a free choice (R422, log 30). -/
def Coll.allPlaced (d : Plane) (x : Coll) : Bool × Plane :=
  match x.expected with
  | some n => (decide (n ≤ x.placed.length), d)
  | none => let r := d.draw; (r.1.getLsbD 0, r.2)

/-- Every chunk that this member produces has been formed and released, and its addends have been sent and acknowledged (R422,
log 154). -/
def Coll.allReleased (x : Coll) : Bool :=
  x.toSend.isEmpty && x.sending.isEmpty && x.owned.all fun i => x.prods.any fun p => p.chunk == i && p.result.isSome

/-- The count table that DISPATCH writes (R426). -/
def Coll.countTable (x : Coll) : List Byte :=
  ((List.range x.size).map fun s => leBytes 4 ((x.placed.filter fun k => k / 2 ^ 48 == s).length / x.n)).flatten

/-- Complete an active collective whose conditions of R422 hold, or an aborted one with nothing outstanding (R238). -/
def collCheck (c : Ctl) (d : Plane) (x : Coll) : Plane :=
  match d.coll x.comm x.ident with
  | none => d
  | some x =>
    if x.aborting d then (if x.sending.isEmpty then collEnd c d x stAborted 0 {} else d)
    else if x.state ≠ .active ∨ !x.allReleased then d
    else
      let r := x.allPlaced d
      if !r.1 then r.2
      else if x.op = opDispatch then
        let w := writeVa c r.2 x.engine x.part x.dst x.countTable
        match w.1 with
        | .error (.fault va k) => if k = .walkError then collEnd c w.2 x stTranslationFault 0 {} else collFault c w.2 x va k true
        | .error e => collEnd c w.2 x (xfailStatus e) 0 {}
        | .ok () => collEnd c w.2 x stOk 0 {}
      else collEnd c r.2 x stOk 0 {}

/-! ### Producers (R409 to R413, R417, R420) -/

/-- Index of the first element of a produced chunk, for the seeds of R412. -/
def Coll.seedIndex (x : Coll) (chunk : Nat) : Nat :=
  if x.op = opReduceScatter then chunk / x.n * x.count + chunk % x.n * x.k
  else if x.op = opCombine then chunk / x.n * x.rowElems + chunk % x.n * x.k
  else chunk * x.k

/-- Round the accumulators of a chunk: its bytes and the flags of R407. -/
def Coll.rounded (x : Coll) (chunk : Nat) (accs : List Acc) : StageOut :=
  roundedOut x.outFmt (accs.zipIdx.map fun a => roundVal x.outFmt a.1.outcome
    (if x.round = 1 then some (stochU x.seed x.ident.toNat (x.seedIndex chunk + a.2)) else none))

/-- Values of the elements of an addend chunk. -/
def Coll.values (x : Coll) (chunk : Nat) (bs : List Byte) : List Val :=
  ((unpackElems (fmtWidth x.inFmt) bs).take (x.elems chunk)).map (decodeElem x.inFmt)

/-- The accumulators of a chunk with no addend: its result is +0 (R427). -/
def Coll.emptyAccs (x : Coll) (chunk : Nat) : List Acc := List.replicate (x.elems chunk) { allNegZero := false }

/-- A chunk whose last addend has been added is rounded and written to the result queue, when the rounding stage holds a
credit; the producer places its own copy and sends the result on its tree. -/
def formResult (c : Ctl) (d : Plane) (x : Coll) (chunk : Nat) : Plane :=
  match d.coll x.comm x.ident with
  | none => d
  | some x =>
    match x.prods.find? (·.chunk == chunk) with
    | none => d
    | some p =>
      let k := engineQueue x.engine (8 + x.slot)
      if p.result.isSome || !(x.addends chunk).all (p.added.contains ·) then d
      else
        let o := x.rounded chunk (if p.acc.isEmpty then x.emptyAccs chunk else p.acc)
        let bs := o.units.flatten
        match stgWrite k (d.queue k) { bytes := bs, index := chunk } with
        | none => d
        | some q =>
          let q := match stgRead q with | some r => r.2 | none => q
          let shared := x.op == opAllReduce && 1 < x.size
          let d := d.setQueue k (if shared then q else stgRelease q)
          let x := { x with
            saturated := x.saturated || o.sat, nanOut := x.nanOut || o.nan, infOut := x.infOut || o.inf
            prods := modFirst (·.chunk == chunk) (fun p => { p with result := some bs }) x.prods }
          let x := if shared then (x.others c d).foldl (fun x r => x.track c d chunk r 1) x else x
          let w := placeChunk c (d.putColl x) x chunk x.rank bs
          match w.1 with
          | .failed s => collEnd c w.2 x s 0 {}
          | _ => if shared then sendTree c w.2 x x.rank 1 chunk bs else w.2

/-- Produced chunks that wait for a credit of the result queue, in the order of their last addend. -/
def formWaiting (c : Ctl) (d : Plane) (x : Coll) : Plane :=
  (x.prods.filter (·.result.isNone)).foldl (fun d p => formResult c d x p.chunk) d

/-- Add an addend once (R417); `who` is its identity in the chunk's bitmap. -/
def addAddend (c : Ctl) (d : Plane) (x : Coll) (chunk who : Nat) (bs : List Byte) : Plane :=
  let p := (x.prods.find? (·.chunk == chunk)).getD { chunk := chunk }
  let p := { p with added := p.added ++ [who], acc := pushAll p.acc (x.values chunk bs) }
  let prods := if x.prods.any (·.chunk == chunk) then modFirst (·.chunk == chunk) (fun _ => p) x.prods else x.prods ++ [p]
  formResult c (d.putColl { x with prods := prods }) x chunk

/-- The chunk at its producer, and the identity of an addend, from the chunk number on the wire and its source (R416,
R427, log 31). -/
def Coll.addendAt (x : Coll) (chunk sender : Nat) : Nat × Nat :=
  if x.op = opCombine then
    let slot := chunk / x.n
    (((x.entriesTo sender)[slot]?.getD 0) * x.n + chunk % x.n, slot * x.size + sender)
  else (chunk, sender)

/-! ### Sending addends and data (R417, R421) -/

/-- Addend chunks of a collective unreleased at a producer. -/
def Coll.unreleased (x : Coll) (dest : Nat) : Nat := (x.sending.filter fun s => s.dest == dest && s.code == 0).length

/-- One chunk read from the source goes to its destination: added or placed here, or sent. -/
def sendOne (c : Ctl) (d : Plane) (x : Coll) (chunk dest : Nat) (bs : List Byte) : Plane :=
  if sums x.op then
    if dest = x.rank then
      let a := x.addendAt chunk x.rank
      match d.coll x.comm x.ident with
      | some y => if ((y.prods.find? (·.chunk == a.1)).map (·.added.contains a.2)).getD false then d else addAddend c d y a.1 a.2 bs
      | none => d
    else sendChunk c (d.onColl x fun y => y.track c d chunk dest 0) x dest 0 chunk bs
  else
    let mine := dest == x.rank
    let w := if mine && !(x.op == opBroadcast && x.dst == 0) then placeChunk c d x chunk x.rank bs else (Put.placed, d)
    match w.1 with
    | .failed s => collEnd c w.2 x s 0 {}
    | _ =>
      if onTree x.op then
        let d := w.2.onColl x fun y => (x.others c d).foldl (fun y r => y.track c d chunk r 2) y
        sendTree c d x x.rank 2 chunk bs
      else if mine then w.2
      else sendChunk c (w.2.onColl x fun y => y.track c d chunk dest 2) x dest 2 chunk bs

/-- Read and send chunks while a destination admits them; `fuel` bounds the chunks. -/
def pumpColl (c : Ctl) (comm : Nat) (ident : DWord) : Nat → Plane → Plane
  | 0, d => d
  | fuel + 1, d =>
    match d.coll comm ident with
    | none => d
    | some x =>
      if !x.delivers || x.aborting d || ((d.entry x.ring x.index).map (·.phase)) == some .faulted then d
      else
        match takeFirst (fun t => t.2 == x.rank || !sums x.op || decide (x.unreleased t.2 < 8)) x.toSend with
        | none => d
        | some (t, rest) =>
          let r := x.readChunk c d t.1 t.2
          match r.1 with
          | .error (.fault va k) =>
            if k = .walkError then
              collEnd c (faultAccess c r.2 (accessOf .collective x.part va false) k .other) x stTranslationFault 0 {}
            else collFault c r.2 x va k false
          | .error e => collEnd c r.2 x (xfailStatus e) 0 {}
          | .ok bs => pumpColl c comm ident fuel (sendOne c (r.2.putColl { x with toSend := rest }) { x with toSend := rest } t.1 t.2 bs)

/-- A chunk that this member places for itself, after its placement waited for a translation (R203). -/
def placeMine (c : Ctl) (d : Plane) (x : Coll) (chunk : Nat) (bs : List Byte) : Plane :=
  let w := placeChunk c d x chunk x.rank bs
  match w.1 with
  | .failed s => collEnd c w.2 x s 0 {}
  | _ => w.2

/-- The chunks that this member has formed or read for itself and not placed yet are placed (R203). -/
def placeOwn (c : Ctl) (d : Plane) (x : Coll) : Plane :=
  if sums x.op then
    x.prods.foldl (fun d p => match d.coll x.comm x.ident, p.result with
      | some x, some bs => placeMine c d x p.chunk bs
      | _, _ => d) d
  else if x.op = opBroadcast ∧ x.dst = 0 then d
  else
    (x.outgoing.filter fun t => t.2 == x.rank && !x.toSend.contains t).foldl (fun d t => match d.coll x.comm x.ident with
      | none => d
      | some x =>
        if x.placed.contains (x.placedKey t.1 x.rank) then d
        else
          let r := x.readChunk c d t.1 t.2
          match r.1 with
          | .ok bs => placeMine c r.2 x t.1 bs
          | .error (.fault va k) =>
            if k = .walkError then
              collEnd c (faultAccess c r.2 (accessOf .collective x.part va false) k .other) x stTranslationFault 0 {}
            else collFault c r.2 x va k false
          | .error e => collEnd c r.2 x (xfailStatus e) 0 {}) d

/-- Send on, and complete when nothing is left. -/
def runColl (c : Ctl) (d : Plane) (x : Coll) : Plane :=
  collCheck c (pumpColl c x.comm x.ident (x.toSend.length + 1) d) x

/-! ### Received chunks (R417 to R420) -/

/-- Fields of a COLL extension. -/
structure CollHdr where
  comm : Nat
  op : Nat
  code : Nat
  src : Nat
  dst : Nat
  ident : DWord
  chunk : Nat
  sig : Word
  crc : Word
  deriving DecidableEq, Repr

def collHdr (ext : List Byte) : CollHdr :=
  { comm := getBe ext 0 2, op := getByte ext 2, code := getByte ext 3, src := getBe ext 4 2, dst := getBe ext 6 2
    ident := BitVec.ofNat 64 (getBe ext 8 8), chunk := getBe ext 16 8, sig := BitVec.ofNat 32 (getBe ext 24 4)
    crc := BitVec.ofNat 32 (getBe ext 28 4) }

/-- The header fields that every packet of R428 carries. -/
def Pkt.bare (p : Pkt) : Bool :=
  p.dstQp == 0 && p.srcQp == 0 && p.psn == 0 && p.offset == 0 && p.msgLen == p.payload.length && nbit p.flags 1 && nbit p.flags 2

/-- A COLL packet obeys R428 and R429 as far as its own bytes say. -/
def collPktOk (p : Pkt) : Bool :=
  let h := collHdr p.ext
  p.bare && decide (h.comm < 1024) && decide (1 ≤ h.op) && decide (h.op ≤ 8)
    && (if p.ptype = ptCollResend then h.code == 0 else decide (h.code ≤ 2)) && (p.ptype == ptCollData || h.crc == 0)

/-- A chunk number that a result or data chunk may carry to this member. -/
def Coll.chunkOk (x : Coll) (chunk sender : Nat) : Bool :=
  let op := x.op
  decide (sender < x.size) &&
    (if op = opAllReduce ∨ op = opBroadcast then decide (chunk < x.n)
    else if op = opAllGather then decide (chunk < x.size * x.n)
    else if op = opAllToAll then chunk / x.n == sender * x.size + x.rank
    else if op = opDispatch then decide (chunk / x.n < x.slots)
    else false)

/-- An addend chunk for an active collective (R417); one that is not as long as the chunk it names is no chunk (log 155). -/
def takeAddend (c : Ctl) (d : Plane) (x : Coll) (h : CollHdr) (bs : List Byte) : Plane :=
  let a := x.addendAt h.chunk h.src
  if !(x.owned.contains a.1 && (x.addends a.1).contains a.2) || bs.length != elemBytes x.inFmt (x.elems h.chunk) then
    d.colStick .badPacket
  else if crc32c bs ≠ h.crc then sendCollControl c (d.colStick .addendCrc) x ptCollResend 0 h.src h.chunk
  else if ((x.prods.find? (·.chunk == a.1)).map (·.added.contains a.2)).getD false then
    sendCollControl c (d.colStick .duplicate) x ptCollAck 0 h.src h.chunk
  else
    let k := engineQueue x.engine x.slot
    match stgWrite k (d.queue k) { bytes := bs, index := h.chunk, producer := 0 } with
    | none => sendCollControl c d x ptCollAck 2 h.src h.chunk
    | some q =>
      let q := match stgRead q with | some r => stgRelease r.2 | none => q
      let d := addAddend c (d.setQueue k q) x a.1 a.2 bs
      runColl c (sendCollControl c d x ptCollAck 0 h.src h.chunk) x

/-- A result or data chunk for a collective that delivers (R419). -/
def takeChunk (c : Ctl) (d : Plane) (x : Coll) (h : CollHdr) (bs : List Byte) : Plane :=
  let t := x.producer h.chunk h.src
  if !x.chunkOk h.chunk h.src || (h.code == 1) != sums x.op || bs.length != elemBytes x.placeFmt (x.elems h.chunk) then
    d.colStick .badPacket
  else if crc32c bs ≠ h.crc then sendCollControl c (d.colStick .resultCrc) x ptCollResend 0 t h.chunk
  else
    let again := x.placed.contains (x.placedKey h.chunk h.src)
    let w := placeChunk c d x h.chunk h.src bs
    match w.1 with
    | .faulted => w.2
    | .failed s => collEnd c w.2 x s 0 {}
    | .placed =>
      let d := if again || !onTree x.op then w.2 else sendTree c w.2 x t h.code h.chunk bs
      runColl c (sendCollControl c d x ptCollAck 0 t h.chunk) x

/-- Release whole batches of the result queue that every member has released (R420); `fuel` bounds them. -/
def releaseBatches (x : Coll) : Nat → Stg → Stg
  | 0, q => q
  | fuel + 1, q =>
    let batch := q.items.take 8
    let full := batch.length == 8 || x.owned.all fun i => x.prods.any fun p => p.chunk == i && p.result.isSome
    if batch.isEmpty || !full || (batch.any fun i => x.sending.any fun s => s.code == 1 && s.chunk == i.index) then q
    else releaseBatches x fuel (batch.foldl (fun q _ => stgRelease q) q)

/-- A chunk has been released or acknowledged by a rank (R417, R420); the rows that COMBINE produces stay local and are
released by nobody (R427). -/
def takeRelease (c : Ctl) (d : Plane) (x : Coll) (h : CollHdr) : Plane :=
  let x := { x with
    sending := x.sending.filter fun s => !(s.chunk == h.chunk && s.dest == h.src)
    prods := modFirst (fun p => x.op != opCombine && p.chunk == h.chunk) (fun p => { p with released := p.released ++ [h.src] }) x.prods }
  let k := engineQueue x.engine (8 + x.slot)
  let d := (d.putColl x).setQueue k (releaseBatches x 64 (d.queue k))
  runColl c (formWaiting c d x) x

/-- A sender waits before it sends a chunk again, RESEND_US where no wait is given, and counts its sends anew (R418). -/
def takeDelay (c : Ctl) (d : Plane) (x : Coll) (h : CollHdr) (wait : Option Nat) : Plane :=
  d.onColl x fun x => { x with
    sending := x.sending.map fun s =>
      if s.chunk == h.chunk && s.dest == h.src then { s with sends := 0, resendAt := c.ns + wait.getD s.period } else s }

/-- Send a chunk to one rank again, from the result queue or the source (R420, R421). -/
def resendChunk (c : Ctl) (d : Plane) (x : Coll) (chunk dest code : Nat) : Plane :=
  if code = 1 then
    match (x.prods.find? (·.chunk == chunk)).bind (·.result) with
    | some bs => sendChunk c d x dest 1 chunk bs
    | none => d
  else
    let r := x.readChunk c d chunk (if onTree x.op && code == 2 then x.rank else dest)
    match r.1 with
    | .ok bs => sendChunk c r.2 x dest code chunk bs
    | .error (.fault va k) =>
      if k = .walkError then collEnd c (faultAccess c r.2 (accessOf .collective x.part va false) k .other) x stTranslationFault 0 {}
      else collFault c r.2 x va k false
    | .error e => collEnd c r.2 x (xfailStatus e) 0 {}

/-- A COLL_RESEND (R417, R420): a source sends its addend again; a producer rewinds its result queue to the mark and sends
every chunk up to its read point that the member has not released. -/
def takeResend (c : Ctl) (d : Plane) (x : Coll) (h : CollHdr) : Plane :=
  let mineToProduce := x.producer h.chunk x.rank == x.rank && x.op != opCombine
  if sums x.op && (x.op == opCombine || !mineToProduce) then
    if x.sending.any fun s => s.chunk == h.chunk && s.dest == h.src then
      resendChunk c (d.putColl (x.again c d h.chunk h.src)) (x.again c d h.chunk h.src) h.chunk h.src 0
    else if x.toSend.contains (h.chunk, h.src) || !x.outgoing.contains (h.chunk, h.src) then d
    else runColl c (d.onColl x fun x => { x with toSend := (h.chunk, h.src) :: x.toSend }) x
  else if x.op = opAllReduce then
    let k := engineQueue x.engine (8 + x.slot)
    let q := d.queue k
    let back := stgRewind q
    let again := (afterCells back.heldCells back.items).take q.heldCells
    let d := d.setQueue k (again.foldl (fun q _ => match stgRead q with | some r => r.2 | none => q) back)
    again.foldl (fun d i =>
      if x.sending.any fun s => s.chunk == i.index && s.dest == h.src && s.code == 1 then
        sendChunk c (d.onColl x fun x => x.again c d i.index h.src) x h.src 1 i.index i.bytes
      else d) d
  else if x.sending.any fun s => s.chunk == h.chunk && s.dest == h.src then
    resendChunk c (d.putColl (x.again c d h.chunk h.src)) (x.again c d h.chunk h.src) h.chunk h.src 2
  else d

end Sys2Proof.Machine
end

