-- ==== Sys2Proof/Machine/Melquin.lean ====
section
/-! DEFINITION. The Melquin path and the closing exchange (R430 to R438), LATE notices (R390), and the start of
collectives (R414). -/
namespace Sys2Proof.Machine

/-! ### Packets (R428, R429, R569) -/

/-- The MQ extension. -/
def mqExt (comm op phase rank relays : Nat) (ident : DWord) (sig : Word) (payload : List Byte) : List Byte :=
  beBytes 2 comm ++ beBytes 1 op ++ beBytes 1 phase ++ beBytes 2 rank ++ beBytes 2 relays ++ beBytes 8 ident.toNat
    ++ beBytes 4 sig.toNat ++ beBytes 4 (crc32c payload).toNat

/-- A Melquin-path packet to a node. -/
def mqPkt (c : Ctl) (ptype node : Nat) (ext payload : List Byte) : Pkt :=
  { ptype := ptype, dst := node, src := c.selfNode, inc := c.dev.incarnation, msgLen := payload.length, ext := ext, payload := payload }

/-- Send a Melquin-path packet of a collective. -/
def sendMq (c : Ctl) (d : Plane) (x : Coll) (ptype dest phase rank relays : Nat) (payload : List Byte) : Plane :=
  sendControl c d (mqPkt c ptype (x.node dest) (mqExt x.comm x.op phase rank relays x.ident x.sig payload) payload) true

/-- Fields of an MQ extension. -/
structure MqHdr where
  comm : Nat
  op : Nat
  phase : Nat
  src : Nat
  relays : Nat
  ident : DWord
  sig : Word
  crc : Word
  deriving DecidableEq, Repr

def mqHdr (ext : List Byte) : MqHdr :=
  { comm := getBe ext 0 2, op := getByte ext 2, phase := getByte ext 3, src := getBe ext 4 2, relays := getBe ext 6 2
    ident := BitVec.ofNat 64 (getBe ext 8 8), sig := BitVec.ofNat 32 (getBe ext 16 4), crc := BitVec.ofNat 32 (getBe ext 20 4) }

/-- An MQ packet obeys R428 and R429 as far as its own bytes say. -/
def mqPktOk (p : Pkt) : Bool :=
  let h := mqHdr p.ext
  p.bare && crc32c p.payload == h.crc && decide (p.payload.length ≤ 2048)
    && (p.ptype != ptMqLate || p.payload.length == 4) && (p.ptype != ptMqClose || p.payload.length == 160)
    && (if p.ptype = ptMqReady ∨ p.ptype = ptMqAbort then h.comm == 0xFFFF
        else decide (h.comm < 1024) && decide (1 ≤ h.op) && decide (h.op ≤ 8))
    && decide (h.phase ≤ 2) && (p.ptype == ptMqData || h.phase == 0) && decide (h.relays ≤ 511)

/-! ### The path (R430, R431) -/

/-- The larger of a member's SRC and DST sizes in bytes. -/
def Coll.memberBytes (x : Coll) : Nat :=
  let src := elemBytes x.inFmt x.count
  let dst := elemBytes x.outFmt (if x.op = opAllGather then x.size * x.count else x.count)
  max src dst

/-- Whether a collective uses the Melquin path (R430). -/
def Coll.melquin (c : Ctl) (x : Coll) : Bool :=
  x.op == opBarrier ||
    ((x.op == opAllReduce || x.op == opAllGather || x.op == opBroadcast) && decide (x.memberBytes ≤ 256)
      && (match c.job.comms.find? (·.comm == x.comm) with | some r => r.vein == 0xFF | none => true))

/-- The leader of a rank, and the number of leaders. -/
def Coll.leader (x : Coll) : Nat := x.rank / 8 * 8
def Coll.leaders (x : Coll) : Nat := ceilDiv x.size 8

/-- The ranks of a block, and the ranks that contribute (for BROADCAST only the root). -/
def Coll.block (x : Coll) (b : Nat) : List Nat := (List.range x.size).filter fun r => r / 8 == b
def Coll.contributes (x : Coll) (r : Nat) : Bool := x.op != opBroadcast || r == x.root

/-- Bytes of one contribution. -/
def Coll.contribBytes (x : Coll) : Nat := if x.op = opBarrier then 0 else elemBytes x.inFmt x.count

/-- The contributions of a block that a leader holds, raw and in rank order. -/
def Coll.blockBytes (x : Coll) (b : Nat) : List Byte :=
  ((x.block b).filter x.contributes).flatMap fun r => SMap.find [] x.contrib r

/-- Whether every contribution of a block is held. -/
def Coll.blockHeld (x : Coll) (b : Nat) : Bool := ((x.block b).filter x.contributes).all (x.haveRank.contains ·)

/-- Leaders that a ring packet reaches clockwise and counter-clockwise (R431). -/
def Coll.cwReach (x : Coll) : Nat := ceilDiv (x.leaders - 1) 2
def Coll.ccwReach (x : Coll) : Nat := (x.leaders - 1) / 2

/-- Send this leader's block around the ring. -/
def sendRing (c : Ctl) (d : Plane) (x : Coll) : Plane :=
  let b := x.rank / 8
  let m := x.leaders
  let bs := x.blockBytes b
  let d := if 1 ≤ x.cwReach then sendMq c d x ptMqData ((b + 1) % m * 8) 1 x.rank (x.cwReach - 1) bs else d
  if 1 ≤ x.ccwReach then sendMq c d x ptMqData ((b + m - 1) % m * 8) 1 x.rank (x.ccwReach - 1) bs else d

/-- A leader's block goes around the ring when it has contributions and all are held. -/
def Coll.ringReady (x : Coll) : Bool :=
  x.rank % 8 == 0 && x.blockHeld (x.rank / 8) && !((x.block (x.rank / 8)).filter x.contributes).isEmpty

/-- The result of the Melquin path from all contributions (R431). -/
def Coll.mqForm (x : Coll) : StageOut :=
  let of (r : Nat) : List Byte := SMap.find [] x.contrib r
  if x.op = opBarrier then { units := [[]] }
  else if x.op = opBroadcast then { units := [of x.root] }
  else if x.op = opAllGather then { units := [(List.range x.size).flatMap of] }
  else
    let accs := (List.range x.size).foldl (fun as r =>
      pushAll as (((unpackElems (fmtWidth x.inFmt) (of r)).take x.count).map (decodeElem x.inFmt))) []
    x.rounded 0 accs

/-- Write a Melquin-path result at DST_VA and complete, or wait for a translation (R431). -/
def mqWrite (c : Ctl) (d : Plane) (x : Coll) (bs : List Byte) : Plane :=
  let skip := x.op == opBarrier || (x.op == opBroadcast && x.rank == x.root && x.dst == 0)
  let w := if skip then (Except.ok (), d) else writeVa c d x.engine x.part x.dst bs
  match w.1 with
  | .ok () => collEnd c w.2 { x with bytes := if skip then 0 else bs.length, mqResult := some bs } stOk 0 {}
  | .error (.fault va k) =>
    if k = .walkError then
      collEnd c (faultAccess c w.2 (accessOf .collective x.part va true) k .other) x stTranslationFault 0 {}
    else collFault c (w.2.putColl { x with mqResult := some bs }) x va k true
  | .error e => collEnd c w.2 x (xfailStatus e) 0 {}

/-- A leader sends the result to its block (R431 phase 3). -/
def sendBlock (c : Ctl) (d : Plane) (x : Coll) (bs : List Byte) : Plane :=
  ((x.block (x.rank / 8)).filter (· != x.rank)).foldl (fun d r => sendMq c d x ptMqData r 2 x.rank 0 bs) d

/-- A leader that holds every contribution forms the result, sends it to its block and completes (R431). -/
def mqAdvance (c : Ctl) (d : Plane) (x : Coll) : Plane :=
  match d.coll x.comm x.ident with
  | none => d
  | some x =>
    if x.state ≠ .active ∨ x.rank % 8 ≠ 0 ∨ !((List.range x.size).filter x.contributes).all (x.haveRank.contains ·) then d
    else
      let o := x.mqForm
      let bs := o.units.flatten
      let x := { x with saturated := o.sat, nanOut := o.nan, infOut := o.inf, mqResult := some bs }
      let d := (d.putColl x)
      mqWrite c (sendBlock c d x bs) x bs

/-- A leader takes a contribution, and sends its block around when it was the last. -/
def mqHold (c : Ctl) (d : Plane) (x : Coll) (rank : Nat) (bs : List Byte) : Plane :=
  let x := { x with contrib := SMap.put [] x.contrib rank bs, haveRank := rank :: x.haveRank }
  let d := d.putColl x
  let d := if x.ringReady && x.rank / 8 == rank / 8 then sendRing c d x else d
  mqAdvance c d x

/-- When a resend on the Melquin path is due after a send now (R432, R435). -/
def mqDue (c : Ctl) (d : Plane) : Nat := c.ns + bits (d.reg Reg.colMqCfg) 9 0 * 1000

/-- The contribution that a member reads as it starts (R431 phase 1). -/
def mqBegin (c : Ctl) (d : Plane) (x : Coll) : Plane :=
  let x := { x with mqAt := mqDue c d }
  let d := d.putColl x
  if !x.contributes x.rank then mqAdvance c d x
  else
    let r := if x.op = opBarrier then (Except.ok [], d) else readVa c d x.engine x.part x.src x.contribBytes
    match r.1 with
    | .error (.fault va k) =>
      if k = .walkError then
        collEnd c (faultAccess c r.2 (accessOf .collective x.part va false) k .other) x stTranslationFault 0 {}
      else collFault c r.2 x va k false
    | .error e => collEnd c r.2 x (xfailStatus e) 0 {}
    | .ok bs =>
      if x.rank = x.leader then mqHold c r.2 x x.rank bs
      else
        let x := { x with contrib := SMap.put [] x.contrib x.rank bs, haveRank := [x.rank] }
        sendMq c (r.2.putColl x) x ptMqData x.leader 0 x.rank 0 bs

/-! ### Buffers (R432) -/

/-- The buffers that a collective's contributions of others take. -/
def Coll.buffers (x : Coll) : Nat :=
  if x.haveRank.isEmpty then 0 else ((x.haveRank.filter fun r => r != x.rank && r / 8 == x.rank / 8).length + x.ringRanks.length)

/-- Melquin buffers in use in a quadrant. -/
def mqInUse (d : Plane) (q : Nat) : Nat :=
  (d.col.early.filter (·.1 == q)).length + ((d.col.colls.filter (·.engine == q)).map (·.buffers)).sum

def mqRoom : Nat := 256

/-- The engine of a partition (R414, R439). -/
def engineOf (d : Plane) (part : Nat) : Nat := bits (d.reg (Reg.colEngine part)) 1 0

/-! ### MQ_DATA (R431, R432) -/

/-- A ring packet is forwarded onward in its direction, also when it is a duplicate (log 33). -/
def relayRing (c : Ctl) (d : Plane) (x : Coll) (h : MqHdr) (bs : List Byte) : Plane :=
  if h.relays = 0 then d
  else
    let m := x.leaders
    let b := x.rank / 8
    let o := h.src / 8
    let next := if (b + m - o) % m ≤ x.cwReach then (b + 1) % m else (b + m - 1) % m
    sendMq c d x ptMqData (next * 8) 1 h.src (h.relays - 1) bs

/-- The contributions of a ring packet, cut by rank. -/
def takeRing (x : Coll) (h : MqHdr) (bs : List Byte) : Coll :=
  let rs := (x.block (h.src / 8)).filter x.contributes
  { x with
    contrib := rs.zipIdx.foldl (fun m r => SMap.put [] m r.1 (slice bs (r.2 * x.contribBytes) x.contribBytes)) x.contrib
    haveRank := rs ++ x.haveRank, ringRanks := h.src :: x.ringRanks }

/-- Bytes of the result on the Melquin path. -/
def Coll.resultBytes (x : Coll) : Nat :=
  if x.op = opBarrier then 0 else elemBytes x.outFmt (if x.op = opAllGather then x.size * x.count else x.count)

/-- An MQ_DATA goes the way of its phase and has its bytes: a contribution from a member of the leader's block, a block's
contributions from another leader, or the result from the leader (R431, log 155). -/
def mqFits (x : Coll) (h : MqHdr) (n : Nat) : Bool :=
  if h.phase = 2 then x.rank % 8 != 0 && h.src == x.leader && n == x.resultBytes
  else if h.phase = 0 then x.rank % 8 == 0 && h.src / 8 == x.rank / 8 && h.src != x.rank && x.contributes h.src && n == x.contribBytes
  else
    let rs := (x.block (h.src / 8)).filter x.contributes
    x.rank % 8 == 0 && h.src % 8 == 0 && h.src != x.rank && !rs.isEmpty && n == rs.length * x.contribBytes

/-- An MQ_DATA for an active collective, by its phase (R431); a member discards a result that it already holds (R432). -/
def mqData (c : Ctl) (d : Plane) (x : Coll) (h : MqHdr) (bs : List Byte) : Plane :=
  if !mqFits x h bs.length then d.colStick .badPacket
  else if h.phase = 2 then (if x.mqResult.isSome then d else mqWrite c d x bs)
  else if h.phase = 0 then
    if x.haveRank.contains h.src then
      (match x.mqResult with | some r => sendMq c d x ptMqData h.src 2 x.rank 0 r | none => d)
    else if mqRoom ≤ mqInUse d x.engine then d.colStick .mqRefused
    else mqHold c d x h.src bs
  else
    if x.ringRanks.contains h.src then relayRing c d x h bs
    else if mqRoom ≤ mqInUse d x.engine then d.colStick .mqRefused
    else
      let d := relayRing c d x h bs
      let y := takeRing x h bs
      mqAdvance c (d.putColl y) y

/-! ### The closing exchange (R435 to R438) -/

/-- Two notes agree: DELIVERED and REVISION are each member's own (R436). -/
def Note.agrees (a b : Note) : Bool := a.cause == b.cause && a.epoch == b.epoch && a.chunk == b.chunk && a.bitmap == b.bitmap

/-- The payload of an MQ_CLOSE (R435). -/
def noteBytes (n : Note) : List Byte :=
  beBytes 1 n.cause ++ beBytes 1 (b2n n.delivered) ++ [0, 0] ++ beBytes 4 n.epoch.toNat ++ beBytes 4 n.revision.toNat
    ++ [0, 0, 0, 0] ++ beBytes 8 n.chunk ++ List.replicate 8 0 ++ fitTo 128 n.bitmap

def noteOf (bs : List Byte) : Note :=
  { cause := getByte bs 0 % 8, delivered := nbit (getByte bs 1) 0, epoch := BitVec.ofNat 32 (getBe bs 4 4)
    revision := BitVec.ofNat 32 (getBe bs 8 4), chunk := getBe bs 16 8, bitmap := slice bs 32 128 }

/-- The lower of two epochs, 0 standing for none (log 34). -/
def minEpoch (a b : Word) : Word := if a = 0 then b else if b = 0 then a else if a.toNat ≤ b.toNat then a else b

/-- Merge a note into another (R435); chunk and bitmap count where the cause is POISON. -/
def Note.merge (a b : Note) : Note :=
  let take := nbit b.cause 1 && (!nbit a.cause 1 || decide (b.chunk < a.chunk))
  { a with
    cause := a.cause ||| b.cause, epoch := minEpoch a.epoch b.epoch
    chunk := if take then b.chunk else a.chunk, bitmap := if take then b.bitmap else a.bitmap }

/-- The lowest EPOCH among the valid records that name members (R435). -/
def Coll.epoch (c : Ctl) (d : Plane) (x : Coll) : Word :=
  x.nodes.foldl (fun e n => match fenceOf c d n with | some r => minEpoch e r.epoch | none => e) 0

/-- A member may send its first note (R437): at once, or for a data-only operation under FENCE alone once everything
destined to it is placed, or nothing missing has a live producer. The Melquin path has no chunks to wait for. -/
def Coll.mayNote (c : Ctl) (d : Plane) (x : Coll) : Bool × Bool × Plane :=
  if sums x.op || x.op == opBarrier || x.melquin c || x.note.cause != 1 then (true, false, d)
  else
    let r := x.allPlaced d
    if r.1 then (true, true, r.2)
    else
      let live (s : Nat) : Bool := s != x.rank && x.live c d s
      let missing := ((List.range x.size).filter live).any fun s =>
        if x.op = opAllGather then (List.range x.n).any fun j => !x.placed.contains (s * x.n + j)
        else if x.op = opAllToAll then (List.range x.n).any fun j => !x.placed.contains ((s * x.size + x.rank) * x.n + j)
        else if x.op = opBroadcast then s == x.root
        else true
      (!missing, false, r.2)

/-- Send this member's note to one rank. -/
def sendNote (c : Ctl) (d : Plane) (x : Coll) (r : Nat) : Plane := sendMq c d x ptMqClose r 0 x.rank 0 (noteBytes x.note)

/-- A closing member sends its first note when it may and again when its DELIVERED changes, and completes when every live member's note agrees (R435, R436). -/
def closeStep (c : Ctl) (d : Plane) (comm : Nat) (ident : DWord) : Plane :=
  match d.coll comm ident with
  | none => d
  | some x =>
    if x.state ≠ .closing then d
    else
      let m := if x.note.delivered then (true, true, d) else x.mayNote c d
      let d := m.2.2
      let changed := x.noteSent && m.2.1 && !x.note.delivered
      let x := { x with note := { x.note with
        delivered := m.2.1, revision := if changed then x.note.revision + 1 else x.note.revision } }
      let d := d.putColl x
      let send := (m.1 && !x.noteSent) || changed
      let x := if send then { x with noteSent := true, mqAt := mqDue c d } else x
      let d := if send then (x.others c d).foldl (fun d r => sendNote c d x r) (d.putColl x) else d
      if !x.noteSent then d
      else if (x.others c d).all fun r => match SMap.find none x.notes r with | some n => n.agrees x.note | none => false then
        collEndReport c d x
      else d

/-- Take values into a closing member's note; a change is sent again with the next REVISION (R435). -/
def closeMerge (c : Ctl) (d : Plane) (x : Coll) (n : Note) : Plane :=
  let note := x.note.merge n
  if note.agrees x.note then closeStep c (d.putColl x) x.comm x.ident
  else
    let x := { x with note := { note with revision := if x.noteSent then x.note.revision + 1 else x.note.revision } }
    let d := d.putColl x
    let d := if x.noteSent then (x.others c d).foldl (fun d r => sendNote c d x r) (d.putColl { x with mqAt := mqDue c d }) else d
    closeStep c d x.comm x.ident

/-- Start the closing exchange of an active collective, or merge a further cause (R435). -/
def closeColl (c : Ctl) (d : Plane) (x : Coll) (n : Note) (reason : Nat) : Plane :=
  if x.state = .closing then closeMerge c d x n
  else if x.state ≠ .active then d
  else
    let note := { ({} : Note).merge n with epoch := minEpoch n.epoch (x.epoch c d) }
    let x := { x with state := .closing, note := note, reason := reason, toSend := if sums x.op then [] else x.toSend, mqAt := mqDue c d }
    closeStep c ((d.putColl x).colStick .closing) x.comm x.ident

def causeFence : Note := { cause := 1 }
def causeParam : Note := { cause := 4 }
def causePoison (chunk : Nat) (bitmap : List Byte) : Note := { cause := 2, chunk := chunk, bitmap := bitmap }

/-- The consumed bitmap of a chunk: the ranks from which this member has its release (R434). -/
def Coll.consumed (x : Coll) (chunk : Nat) : List Byte :=
  rankBitmap (match x.prods.find? (·.chunk == chunk) with | some p => p.released | none => [])

/-- A fence record was set or changed for a node: every active collective with that member closes (R435). -/
def collFenced (c : Ctl) (d : Plane) (node : Nat) : Plane :=
  d.col.colls.foldl (fun d x =>
    if x.nodes.contains node && node != c.selfNode then
      match d.coll x.comm x.ident with
      | some x =>
        let x := { x with sending := x.sending.filter fun s => x.node s.dest != node }
        closeColl c (d.putColl x) x { causeFence with epoch := x.epoch c d } 0
      | none => d
    else d) d

/-- An MQ_CLOSE (R435, R436, R438): for a finished collective the kept note answers. -/
def takeClose (c : Ctl) (d : Plane) (p : Pkt) (h : MqHdr) : Plane :=
  match d.coll h.comm h.ident with
  | none =>
    match d.col.kept.find? fun k => k.answers && k.comm == h.comm && k.ident == h.ident with
    | none => d
    | some k =>
      let bs := noteBytes k.note
      let rank := match c.job.comms.find? (·.comm == h.comm) with
        | some r => (match commMembers c r with | some m => m.1 | none => 0)
        | none => 0
      sendControl c d (mqPkt c ptMqClose p.src (mqExt h.comm h.op 0 rank 0 h.ident h.sig bs) bs) true
  | some x =>
    let n := noteOf p.payload
    if x.state = .waiting then d
    else
      let x := { x with notes := SMap.put none x.notes h.src (some n) }
      if x.state = .active then closeColl c (d.putColl x) x n 0 else closeMerge c d x n

/-! ### LATE notices (R390, R438) -/

/-- Send a LATE notice naming this node to every other member of a communicator. -/
def sendLate (c : Ctl) (d : Plane) (part : Nat) (raw : List Byte) : Plane :=
  let comm := getLe raw 8 2
  match commOf c comm part with
  | none => d
  | some (rank, nodes) =>
    let bs := beBytes 4 c.selfNode
    let ext := mqExt comm (getByte raw 10) 0 rank 0 (BitVec.ofNat 64 (getLe raw 40 8)) (paramSig raw) bs
    (nodes.filter (· != c.selfNode)).foldl (fun d n => sendControl c d (mqPkt c ptMqLate n ext bs) true) d

/-- DETAIL of a LATE completion for another member's lateness (R391). -/
def lateDetail (node : Nat) : Word := BitVec.ofNat 32 (2 + 256 * (node % 2 ^ 20))

/-- The fetched entry that posts a collective. -/
def collEntry (d : Plane) (comm : Nat) (ident : DWord) : Option (Nat × BitVec 16) :=
  d.rings.findSome? fun r =>
    if d.wrgKind r.1 then none
    else (r.2.fetched.find? fun e => e.opcode == 0x20 && getLe e.raw 8 2 == comm && getLe e.raw 40 8 == ident.toNat).map
      fun e => (r.1, e.index)

/-- A LATE notice (R390): the entry completes LATE, or the notice is kept until the entry is fetched. -/
def takeLate (c : Ctl) (d : Plane) (p : Pkt) (h : MqHdr) : Plane :=
  let node := getBe p.payload 0 4 % 2 ^ 20
  match d.coll h.comm h.ident with
  | some x => if x.state = .closing then d else collEnd c d x stLate (lateDetail node) {}
  | none =>
    match collEntry d h.comm h.ident with
    | some (k, i) =>
      if ((d.entry k i).map fun e => paramSig e.raw) != some h.sig then d.colStick .paramMismatch
      else
      let d := d.keep { comm := h.comm, ident := h.ident, engine := engineOf d (d.wrgPart k), answers := true }
      failEntry c d k i stLate (lateDetail node)
    | none =>
      if d.col.kept.any fun k => k.comm == h.comm && k.ident == h.ident then d
      else { d with col := { d.col with kept := d.col.kept ++ [{ comm := h.comm, ident := h.ident, node := node, late := true }] } }

/-- A kept LATE notice for an entry just fetched. -/
def keptLate (d : Plane) (comm : Nat) (ident : DWord) : Option Kept :=
  d.col.kept.find? fun k => k.late && k.comm == comm && k.ident == ident

/-! ### The engine's front end (R406, R428) -/

/-- A COLL packet that has passed step 5 of R288. -/
def takeColl (c : Ctl) (d : Plane) (p : Pkt) : Plane :=
  let h := collHdr p.ext
  if !collPktOk p then d.colStick .badPacket
  else match d.coll h.comm h.ident with
    | none =>
      if p.ptype ≠ ptCollData then d
      else if d.col.kept.any fun k => !k.late && k.comm == h.comm && k.ident == h.ident then
        ackIdle c (if h.code = 0 then d.colStick .duplicate else d) p 0
      else ackIdle c d p 1
    | some x =>
      if x.state = .waiting then (if p.ptype = ptCollData then ackIdle c d p 1 else d)
      else if h.sig ≠ x.sig then closeColl c (d.colStick .paramMismatch) x causeParam 1
      else if h.op ≠ x.op ∨ h.dst ≠ x.rank ∨ x.node h.src ≠ p.src then d.colStick .badPacket
      else if p.ptype = ptCollData then
        (if !x.delivers then d
        else if h.code = 0 then (if sums x.op then takeAddend c d x h p.payload else d.colStick .badPacket)
        else
          let d := takeChunk c d x h p.payload
          closeStep c d x.comm x.ident)
      else if p.ptype = ptCollAck then
        (if h.code = 0 then takeRelease c d x h
        else takeDelay c d x h (if h.code = 1 then none else some 2000))
      else if x.delivers then takeResend c d x h
      else d

/-- Hold a Melquin packet for a collective that has not started here (R432, log 32). -/
def holdEarly (c : Ctl) (d : Plane) (p : Pkt) (h : MqHdr) : Plane :=
  match c.job.comms.find? (·.comm == h.comm) with
  | none => d.colStick .badPacket
  | some r =>
    let q := engineOf d r.part
    if mqRoom ≤ mqInUse d q then d.colStick .mqRefused
    else { d with col := { d.col with early := d.col.early ++ [(q, p.bytes)] } }

/-- An MQ_DATA, MQ_LATE or MQ_CLOSE that has passed step 5 of R288. -/
def takeMq (c : Ctl) (d : Plane) (p : Pkt) : Plane :=
  let h := mqHdr p.ext
  if !mqPktOk p then d.colStick .badPacket
  else if p.ptype = ptMqLate then
    (match d.coll h.comm h.ident with
    | some x => if x.state != .closing && h.sig != x.sig then closeColl c (d.colStick .paramMismatch) x causeParam 1 else takeLate c d p h
    | none => takeLate c d p h)
  else if p.ptype = ptMqClose then
    (match d.coll h.comm h.ident with
    | some x =>
      if x.state != .waiting && h.sig != x.sig then closeColl c (d.colStick .paramMismatch) x causeParam 1
      else if h.op ≠ x.op ∨ x.size ≤ h.src then d.colStick .badPacket
      else takeClose c d p h
    | none => takeClose c d p h)
  else match d.coll h.comm h.ident with
    | none =>
      (match d.col.kept.find? fun k => !k.late && k.comm == h.comm && k.ident == h.ident with
      | some k =>
        match (if h.phase = 0 ∧ k.note.cause = 0 then k.result else none) with
        | some bs => sendControl c d (mqPkt c ptMqData p.src (mqExt h.comm h.op 2 (h.src / 8 * 8) 0 h.ident h.sig bs) bs) true
        | none => d
      | none => holdEarly c d p h)
    | some x =>
      if x.state = .waiting then holdEarly c d p h
      else if h.sig ≠ x.sig then closeColl c (d.colStick .paramMismatch) x causeParam 1
      else if h.op ≠ x.op ∨ !x.melquin c ∨ x.size ≤ h.src then d.colStick .badPacket
      else if x.state = .active then mqData c d x h p.payload
      else d

/-- The packets held for a collective that has just started are taken in arrival order. -/
def takeEarly (c : Ctl) (d : Plane) (x : Coll) : Plane :=
  let mine (e : Nat × List Byte) : Bool := let h := mqHdr (parsePkt e.2).ext; h.comm == x.comm && h.ident == x.ident
  let ours := d.col.early.filter mine
  ours.foldl (fun d e => takeMq c d (parsePkt e.2)) { d with col := { d.col with early := d.col.early.filter fun e => !mine e } }

/-! ### Starting (R414, R425) -/

/-- Collectives that an engine runs at once. -/
def engineSlots : Nat := 8

/-- A started entry joins its engine's queue (R414). -/
def postColl (c : Ctl) (d : Plane) (k : Nat) (e : Fetched) : Plane :=
  let part := d.wrgPart k
  let comm := getLe e.raw 8 2
  match commOf c comm part with
  | none => failEntry c d k e.index stMalformed
  | some (rank, nodes) =>
    let x : Coll :=
      { comm := comm, ident := BitVec.ofNat 64 (getLe e.raw 40 8), ring := k, index := e.index, raw := e.raw, part := part
        engine := engineOf d part, rank := rank, nodes := nodes, sig := paramSig e.raw }
    let d := traceEntry c d false k e 0 0
    { (d.onEntry k e.index fun e => { e with phase := .running }) with col := { d.col with colls := d.col.colls ++ [x] } }

/-- The route descriptor of R425 is legal. -/
def routeOk (op : Nat) (r : List Byte) : Bool :=
  decide (32 ≤ getLe r 16 4) && decide (getLe r 16 4 ≤ 65536) && getLe r 16 4 % 32 == 0 && decide (1 ≤ getLe r 20 4)
    && decide (getLe r 20 4 ≤ 65536) && (op == opCombine || getLe r 24 8 == 0) && allZero (slice r 32 32)

/-- The route entries of R425 from their bytes. -/
def routeEntries (bs : List Byte) : List (Nat × Nat) := (chunksOf 8 bs.length bs).map fun e => (getLe e 0 4, getLe e 4 2)

/-- The route entries are legal: ranks below S, reserved bytes zero. -/
def entriesOk (size : Nat) (bs : List Byte) : Bool :=
  (chunksOf 8 bs.length bs).all fun e => decide (getLe e 4 2 < size) && allZero (slice e 6 2)

/-- Rows that no accepted entry returns are written as +0 (R427). -/
def zeroRows (c : Ctl) (x : Coll) (d : Plane) : Plane :=
  if x.op ≠ opCombine then d
  else (x.owned.filter fun i => (x.addends i).isEmpty).foldl (fun d i =>
    match d.coll x.comm x.ident with
    | some x => formResult c (d.putColl { x with prods := x.prods ++ [{ chunk := i }] }) x i
    | none => d) d

/-- Read what DISPATCH and COMBINE need besides their rows, and check it (R425, R427). -/
def readRoute (c : Ctl) (d : Plane) (x : Coll) : Except Xfail (Option Coll) × Plane :=
  let r := readVa c d x.engine x.part x.src 64
  match r.1 with
  | .error e => (.error e, r.2)
  | .ok desc =>
    if !routeOk x.op desc then (.ok none, r.2)
    else
      let x := { x with desc := desc }
      let r := readVa c r.2 x.engine x.part x.entryVa (8 * x.count)
      match r.1 with
      | .error e => (.error e, r.2)
      | .ok bs =>
        if !entriesOk x.size bs then (.ok none, r.2)
        else
          let x := { x with entries := routeEntries bs }
          if x.op = opDispatch then
            (.ok (some { x with overflow := (List.range x.size).any fun q => decide (x.slots < (x.entries.filter (·.2 == q)).length) }), r.2)
          else
            let r := readVa c r.2 x.engine x.part x.countVa (4 * x.size)
            match r.1 with
            | .error e => (.error e, r.2)
            | .ok t => (.ok (some { x with table := (chunksOf 4 t.length t).map leNat }), r.2)

/-- A collective that has its slot begins its work. -/
def beginColl (c : Ctl) (d : Plane) (x : Coll) : Plane :=
  let d := d.putColl x
  let fencedMember := x.nodes.any fun n => n != c.selfNode && (fenceOf c d n).isSome
  let d :=
    if x.melquin c then takeEarly c (mqBegin c d x) x
    else
    let go (d : Plane) (x : Coll) : Plane :=
      let x := { x with toSend := x.outgoing }
      runColl c (zeroRows c x (d.putColl x)) x
    if x.op = opDispatch ∨ x.op = opCombine then
        let r := readRoute c d x
        match r.1 with
        | .ok (some y) => go r.2 y
        | .ok none =>
          -- R425: LOCAL_ACCESS on this member, and the closing exchange with cause PARAM for the others.
          let y := { x with state := .closing, note := { causeParam with epoch := x.epoch c r.2 }, noteSent := true }
          let d := (y.others c r.2).foldl (fun d q => sendNote c d y q) (r.2.colStick .closing)
          collEnd c d y stLocalAccess 0 y.note
        | .error (.fault va k) =>
          if k = .walkError then
            collEnd c (faultAccess c r.2 (accessOf .collective x.part va false) k .other) x stTranslationFault 0 {}
          else collFault c r.2 x va k false
        | .error e => collEnd c r.2 x (xfailStatus e) 0 {}
    else go d x
  if fencedMember then
    match d.coll x.comm x.ident with
    | some x => closeColl c d x { causeFence with epoch := x.epoch c d } 0
    | none => d
  else d

/-- An engine with a free slot starts the next collective that waits for it (R414). -/
def startNext (c : Ctl) (d : Plane) (q : Nat) : Plane :=
  let mine := d.col.colls.filter (·.engine == q)
  let busy := mine.filter (·.state != .waiting)
  match mine.find? (·.state == .waiting), (List.range engineSlots).find? fun j => !busy.any (·.slot == j) with
  | some x, some j => beginColl c d { x with state := .active, slot := j, mqAt := mqDue c d }
  | _, _ => d

/-- A collective whose access waited for a translation goes on (R203). -/
def resumeColl (c : Ctl) (d : Plane) (k : Nat) (i : BitVec 16) : Plane :=
  match collOfEntry d k i with
  | none => d
  | some x =>
    if !x.delivers then d
    else if x.melquin c then
      (if x.state ≠ .active then d
      else match x.mqResult with
      | some bs => mqWrite c d x bs
      | none => if x.haveRank.isEmpty then mqBegin c d x else mqAdvance c d x)
    else if (x.op = opDispatch ∨ x.op = opCombine) ∧ x.desc.isEmpty then beginColl c d x
    else runColl c (placeOwn c (formWaiting c d x) x) x

/-! ### Timers and faults (R421, R432, R434) -/

/-- A chunk was not released or acknowledged in time (R421); an aborted collective gives it up at the limit (R238). -/
def chunkTimeout (c : Ctl) (d : Plane) (comm : Nat) (ident : DWord) (chunk dest : Nat) : Plane :=
  match d.coll comm ident with
  | none => d
  | some x =>
    match x.sending.find? fun s => s.chunk == chunk && s.dest == dest with
    | none => d
    | some s =>
      if c.ns < s.resendAt ∨ !x.delivers then d
      else if s.limit ≤ s.sends then
        if x.aborting d then
          collCheck c (d.putColl { x with sending := x.sending.filter fun t => !(t.chunk == chunk && t.dest == dest) }) x
        else closeColl c d x (causePoison chunk (x.consumed chunk)) 2
      else
        let x := x.again c d chunk dest
        resendChunk c ((d.putColl x).colStick .resendTimeout) x chunk dest s.code

/-- MQ_RESEND_US passes (R432, R435). -/
def mqTimeout (c : Ctl) (d : Plane) (comm : Nat) (ident : DWord) : Plane :=
  match d.coll comm ident with
  | none => d
  | some x =>
    if c.ns < x.mqAt then d
    else
      let x := { x with mqAt := mqDue c d }
      let d := d.putColl x
      if x.state = .closing then
        (if !x.noteSent then closeStep c d comm ident
        else (x.others c d).foldl (fun d r =>
          match SMap.find none x.notes r with
          | some n => if n.agrees x.note then d else sendNote c d x r
          | none => sendNote c d x r) d)
      else if x.state ≠ .active ∨ !x.melquin c then d
      else if x.rank % 8 = 0 then
        let d := if x.ringReady then sendRing c d x else d
        match x.mqResult with | some bs => sendBlock c d x bs | none => d
      else if x.haveRank.contains x.rank then sendMq c d x ptMqData x.leader 0 x.rank 0 (SMap.find [] x.contrib x.rank)
      else d

/-- A computational fault in a chunk (R434): it is summed again, or the collective closes when a copy has left. -/
def computeFault (c : Ctl) (d : Plane) (comm : Nat) (ident : DWord) (chunk : Nat) : Plane :=
  match d.coll comm ident with
  | none => d
  | some x =>
    if x.state ≠ .active then d
    else
      let d := d.colStick .poison
      let d := { d with effects := d.effects ++ [.adderParity x.engine x.part] }
      match x.prods.find? (·.chunk == chunk) with
      | none => d
      | some p =>
        if p.result.isSome then closeColl c d x (causePoison chunk (x.consumed chunk)) 0
        else
          let x := { x with prods := modFirst (·.chunk == chunk) (fun p => { p with added := [], acc := [] }) x.prods }
          let own := x.outgoing.filter fun t => t.2 == x.rank && x.addendAt t.1 x.rank == (chunk, (x.addendAt t.1 x.rank).2)
          let x := { x with toSend := own ++ x.toSend }
          let d := (p.added.filter fun w => w % x.size != x.rank).foldl (fun d w =>
            let wire := if x.op = opCombine then w / x.size * x.n + chunk % x.n else chunk
            sendCollControl c d x ptCollResend 0 (w % x.size) wire) (d.putColl x)
          runColl c d x

end Sys2Proof.Machine
end

