-- ==== Sys2Proof/Machine/Fence.lean ====
section
/-! DEFINITION. Fence records, their flooding, FENCED replies (R336 to R345), and heartbeats received (R107, R111, R156). -/
namespace Sys2Proof.Machine

def Plane.fenceRec (d : Plane) (i : Nat) : FenceRec := SMap.find {} d.xpt.fences i
def Plane.setFenceRec (d : Plane) (i : Nat) (r : FenceRec) : Plane :=
  { d with xpt := { d.xpt with fences := SMap.put {} d.xpt.fences i r } }

/-- The FENCE extension (R280). -/
def fenceExt (node : Nat) (inc : BitVec 16) (epoch : Word) : List Byte :=
  beBytes 4 (node % 2 ^ 20) ++ beBytes 2 inc.toNat ++ [0, 0] ++ beBytes 4 epoch.toNat ++ [0, 0, 0, 0]

/-- Send a FENCE for a record on one port (R339). -/
def sendFence (c : Ctl) (d : Plane) (n node : Nat) (r : FenceRec) : Plane :=
  if !c.maySend then d
  else
    let p : Pkt :=
      { ptype := ptFence, dst := (d.port n).peerNode, src := c.selfNode, inc := c.dev.incarnation, ext := fenceExt node r.inc r.epoch }
    d.queue7 n (gxtFrame c n 7 originHops p.bytes)

/-- Flood a record on every group-link port with PEER_OK whose peer is not the fenced node (R339). -/
def floodFence (c : Ctl) (d : Plane) (node : Nat) (r : FenceRec) : Plane :=
  (List.range 48).foldl (fun d n =>
    let p := d.port n
    if p.group && p.peerOk && p.peerNode != node then sendFence c d n node r else d) d

/-- When a port's PEER_OK rises it is sent every valid record but one naming its peer (R339). -/
def fencesTo (c : Ctl) (d : Plane) (n : Nat) : Plane :=
  c.group.members.zipIdx.foldl (fun d m =>
    let r := d.fenceRec m.2
    if r.valid && m.1.node != (d.port n).peerNode then sendFence c d n m.1.node r else d) d

/-- A queue pair of a fenced node enters ERROR with FENCED_PEER (R342). -/
def fenceQp (c : Ctl) (d : Plane) (n : Nat) (epoch : Word) : Plane := failQp c d n stFencedPeer none stFencedPeer epoch false

/-- The PEER_FENCED event in every partition (R342). -/
def fencedEvents (c : Ctl) (d : Plane) (node : Nat) (r : FenceRec) (source : Nat) : Plane :=
  (List.range 32).foldl (fun d p =>
    pushEvent c d p 7 (leBytes 4 (node % 2 ^ 20) ++ leBytes 2 r.inc.toNat ++ leBytes 1 (if r.here then 0 else 1) ++ [0]
      ++ leBytes 4 r.epoch.toNat ++ leBytes 4 (source % 2 ^ 20))) d

/-- A record is set or its INCARNATION changes (R342, R435). -/
def setFence (c : Ctl) (d : Plane) (i node : Nat) (r : FenceRec) (source : Nat) : Plane :=
  let d := d.setFenceRec i r
  let mine := (d.qps.filter fun x => x.2.state != .free && x.2.peerNode == node).map (·.1)
  let d := mine.foldl (fun d n =>
    if (d.qp n).resident then fenceQp c d n r.epoch else d.onQp n fun q => { q with fenceDue := some r.epoch }) d
  collFenced c (fencedEvents c d node r source) node

/-- Raise FENCE_EPOCH (R337, R340). -/
def raiseEpoch (d : Plane) (e : Word) : Plane :=
  { d with xpt := { d.xpt with fenceEpoch := if d.xpt.fenceEpoch.toNat < e.toNat then e else d.xpt.fenceEpoch } }

/-- Declare a peer dead: the device's own record, and the flood (R107, R338). -/
def declareDead (c : Ctl) (d : Plane) (node : Nat) (inc : BitVec 16) : Plane :=
  match c.memberIndex node with
  | none => d
  | some i =>
    let e := d.xpt.fenceEpoch + 1
    let r : FenceRec := { valid := true, inc := inc, epoch := e, here := true }
    floodFence c (setFence c (raiseEpoch d e) i node r c.selfNode) node r

/-- A received FENCE (R340). -/
def takeFence (c : Ctl) (d : Plane) (p : Pkt) : Plane :=
  let node := getBe p.ext 0 4 % 2 ^ 20
  let inc := BitVec.ofNat 16 (getBe p.ext 4 2)
  let epoch : Word := BitVec.ofNat 32 (getBe p.ext 8 4)
  let d := raiseEpoch d epoch
  match c.memberIndex node with
  | none => d
  | some i =>
    if node = c.selfNode then (if inc = c.dev.incarnation then { d with effects := d.effects ++ [.quarantine] } else d)
    else
      let old := d.fenceRec i
      if !old.valid || newer inc old.inc then
        let r : FenceRec := { valid := true, inc := inc, epoch := epoch, here := false }
        floodFence c (setFence c (d.relStick .fenceRx) i node r p.src) node r
      else if inc = old.inc ∧ old.epoch.toNat < epoch.toNat then
        let r := { old with epoch := epoch }
        floodFence c ((d.relStick .fenceRx).setFenceRec i r) node r
      else d

/-- The FENCED reply to a node (R341). -/
def fencedPkt (c : Ctl) (node : Nat) (r : FenceRec) : Pkt :=
  { ptype := ptAck, dst := node, src := c.selfNode, inc := c.dev.incarnation
    ext := ackExt ackFenced 0 0 (r.inc.setWidth 32) 0 0 (List.replicate 32 0) }

/-- Reply FENCED to a fenced node on a port, at most once per microsecond (R341); FENCED_TX says that one was sent (R345). -/
def sendFenced (c : Ctl) (d : Plane) (node : Nat) (via : Option (Nat × Frame)) : Plane :=
  let i := (c.memberIndex node).getD 0
  let due := match SMap.find none d.xpt.fencedAt i with | some t => decide (t + 1000 ≤ c.ns) | none => true
  match via with
  | none => d
  | some (n, f) =>
    if !due then d
    else (({ d with xpt := { d.xpt with fencedAt := SMap.put none d.xpt.fencedAt i (some c.ns) } }).relStick .fencedTx).queue7 n f

/-- The FENCED reply to what a port of a group link has received. -/
def fencedOn (c : Ctl) (n node : Nat) (r : FenceRec) : Option (Nat × Frame) :=
  if c.maySend then some (n, gxtFrame c n 7 originHops (fencedPkt c node r).bytes) else none

/-- Step 5 of R288 (R341): whether the packet continues. -/
def fenceCheck (c : Ctl) (d : Plane) (p : Pkt) (back : Option (Nat × Frame)) : Bool × Plane :=
  match fenceOf c d p.src with
  | none => (true, d)
  | some r =>
    if newer p.inc r.inc && decide (ptMqData ≤ p.ptype ∧ p.ptype ≤ ptMqAbort) then (true, d)
    else (false, sendFenced c d p.src (replyVia c d (fencedPkt c p.src r) back))

/-- XPT_FENCE_READ (R344, R345). -/
def fenceRead (c : Ctl) (d : Plane) (i : Nat) : Plane :=
  let r := d.fenceRec i
  let node := (c.group.members[i]?.map (·.node)).getD 0
  let d := d.setReg (Reg.fenceEntry 0) (field node 20 0 ||| bitIf r.valid 31)
  let d := d.setReg (Reg.fenceEntry 1) (field r.inc.toNat 16 0 ||| bitIf r.here 16)
  d.setReg (Reg.fenceEntry 2) r.epoch

/-! ### Link-control frames of a group link (R154 to R157, R372) -/

/-- The checks of R156 on a link-control frame: VERSION, GROUP_ID and NODE. -/
def linkOk (c : Ctl) (d : Plane) (n : Nat) (b : List Byte) : Bool × Plane :=
  if getByte b 1 ≠ 1 then (false, d)
  else if getBe b 8 4 ≠ c.group.groupId then (false, d.prtStick n .groupMismatch)
  else if getBe b 4 4 % 2 ^ 20 ≠ (d.port n).peerNode then
    (false, ((d.prtStick n .wrongPeer).onPort n fun p => { p with cabling := true }).raise (0x180 + n) 0x09)
  else (true, d)

/-- A received heartbeat (R111, R156, R157). One of a fenced incarnation is answered FENCED; it still counts for PEER_OK, as
the answer needs a port with PEER_OK. -/
def takeHeartbeat (c : Ctl) (d : Plane) (n : Nat) (b : List Byte) : Plane :=
  let k := linkOk c d n b
  let d := k.2
  if !k.1 then d
  else
    let node := getBe b 4 4 % 2 ^ 20
    let inc := BitVec.ofNat 16 (getBe b 2 2)
    let rose := !(d.port n).peerOk
    let d := d.onPort n fun p =>
      ({ p with
        peerOk := true, heard := true, hbAt := c.ns, hbInc := inc, hbState := getByte b 13, hbJoin := nbit (getByte b 14) 0
        dead := false, reqAt := if p.peerOk then p.reqAt else c.ns }).refresh
    let d := if rose then fencesTo c d n else d
    match fenceOf c d node with
    | some r => if newer inc r.inc then d else sendFenced c d node (fencedOn c n node r)
    | none => d

/-- A port is UP again within 8 µs of the last accepted heartbeat: PEER_OK rises with it (R157, R339). -/
def peerAgain (c : Ctl) (d : Plane) (n : Nat) : Plane :=
  let p := d.port n
  if p.group && p.link == .up && !p.peerOk && p.heard && decide (c.ns ≤ p.hbAt + 8000) then
    fencesTo c (d.setPort n ({ p with peerOk := true, reqAt := c.ns }).refresh) n
  else d

/-- No heartbeat for 8 µs (R157). -/
def peerTimeout (c : Ctl) (d : Plane) (n : Nat) : Plane :=
  let p := d.port n
  if p.peerOk && decide (p.hbAt + 8000 < c.ns) then d.setPort n ({ p with peerOk := false }).refresh else d

/-- The ports of this device to a peer. -/
def portsTo (d : Plane) (node : Nat) : List Nat := (List.range 48).filter fun n => (d.port n).group && (d.port n).peerNode == node

/-- No heartbeat of a peer on any of its links for DEAD_TIME_US, counted from the last one heard: a peer of which none was ever
heard is not declared dead (R107, log 147). -/
def peerDead (c : Ctl) (d : Plane) (n : Nat) : Plane :=
  let p := d.port n
  let links := portsTo d p.peerNode
  let heard := links.filter fun m => (d.port m).heard
  let last := (heard.map fun m => (d.port m).hbAt).foldl max 0
  if !p.group || heard.isEmpty || p.dead || decide (c.ns < last + c.group.deadTimeUs * 1000) then d
  else
    let inc := (heard.foldl (fun (best : Nat × BitVec 16) m =>
      if best.1 ≤ (d.port m).hbAt then ((d.port m).hbAt, (d.port m).hbInc) else best) (0, 0)).2
    declareDead c (links.foldl (fun d m => d.onPort m fun p => { p with dead := true }) d) p.peerNode inc

end Sys2Proof.Machine
end

