-- ==== Sys2Proof/Machine/Receiver.lean ====
section
/-! DEFINITION. The receiving side of a queue pair (R288, R289, R310 to R313, R320 to R331, R454 to R456): context checks,
sequence, windows, placement, steering, responses, notifications. -/
namespace Sys2Proof.Machine

def missUs (d : Plane) : Nat := bits (d.reg Reg.busyHint) 7 0
def creditUs (d : Plane) : Nat := bits (d.reg Reg.busyHint) 15 8
def ackDelayNs (d : Plane) : Nat := bits (d.reg Reg.relTiming) 7 0 * 100
def ackCountOf (d : Plane) : Nat := bits (d.reg Reg.relTiming) 15 8
def reorderNs (d : Plane) : Nat := bits (d.reg Reg.relTiming) 31 16

/-! ### RECV_PSN and notifications (R311, R323) -/

/-- RECV_PSN advances past leading received PSNs; `fuel` bounds the bitmap. -/
def advanceRecv : Nat → Qp → Qp
  | 0, q => q
  | fuel + 1, q =>
    if q.got.any (·.1 == q.recvPsn) then
      advanceRecv fuel { q with got := q.got.filter (·.1 != q.recvPsn), recvPsn := q.recvPsn + 1, gapOn := false }
    else q

/-- Mark PSNs received and advance RECV_PSN; a gap beneath them has lasted REORDER_NS at `limit` (R313). -/
def markReceived (limit : Nat) (q : Qp) (ps : List (BitVec 32)) : Qp :=
  advanceRecv 4096 { q with got := q.got ++ ps.map fun p => (p, limit) }

/-- The oldest message that is being received: that of the earliest first PSN, from 2^31 before RECV_PSN on. -/
def firstRx (q : Qp) : Option RxMsg :=
  let place (m : RxMsg) : Nat := psnDist m.first (q.recvPsn - 0x80000000)
  q.rxMsgs.foldl (fun best m => match best with
    | none => some m
    | some b => if place m < place b then some m else some b) none

/-- RECV_PSN has passed the last PSN of a message. -/
def passed (q : Qp) (m : RxMsg) : Bool :=
  let past := psnDist q.recvPsn m.first
  decide (past < 2 ^ 31) && decide (m.count ≤ past)

/-- Write the notification of a complete message (R245, R250, R253). -/
def notify (c : Ctl) (d : Plane) (n : Nat) (m : RxMsg) : Plane :=
  let q := d.qp n
  let result := BitVec.ofNat 64 (m.value.toNat + q.peerNode * 2 ^ 32)
  match m.desc with
  | some x =>
    if x.lost then (d.releaseSlot (d.wrgCq m.ring)).settleRing m.ring
    else (writeComp c d (d.wrgCq m.ring)
      { tag := x.tag.toNat, status := m.status, recv := true, solicited := m.solicit, opcode := 0x04, ring := m.ring
        result := result, bytes := m.bytes, qp := n, detail := m.detail, index := x.index }).settleRing m.ring
  | none =>
    writeComp c d m.ring
      { status := m.status, recv := true, solicited := m.solicit, opcode := 0x02, ring := 0xFFFF, result := result
        bytes := m.bytes, qp := n, detail := m.detail }

/-- Write the notifications that are due, in message order (R323); `fuel` bounds them. -/
def notifyDue (c : Ctl) (n : Nat) : Nat → Plane → Plane
  | 0, d => d
  | fuel + 1, d =>
    let q := d.qp n
    match firstRx q with
    | none => d
    | some m =>
      if passed q m && m.placed == m.len then
        notifyDue c n fuel (notify c (d.setQp n { q with rxMsgs := q.rxMsgs.erase m }) n m)
      else d

/-! ### Acknowledging (R312) -/

/-- Acknowledge a packet at once with CODE 0. -/
def ackNow (c : Ctl) (d : Plane) (n : Nat) (p : BitVec 32) (since : Nat) : Plane := sendAck c d n ackAck 0 0 p since

/-- Acknowledge a newly placed packet by the rules of R312; the first of a count fixes its ACK_COUNT and ACK_DELAY (R345). -/
def ackPlaced (c : Ctl) (d : Plane) (n : Nat) (p : BitVec 32) (since : Nat) (ackReq : Bool) : Plane :=
  let d := d.onQp n fun q => { q with
    trigger := p, triggerAt := since, ackCount := q.ackCount + 1
    ackSince := if q.ackCount = 0 then c.ns else q.ackSince
    ackFor := if q.ackCount = 0 then ackDelayNs d else q.ackFor
    ackNeed := if q.ackCount = 0 then ackCountOf d else q.ackNeed }
  if ackReq || decide ((d.qp n).ackNeed ≤ (d.qp n).ackCount) then ackNow c d n p since else d

/-- A new packet of the sequence has been placed (R311, R312, R322). -/
def packetDone (c : Ctl) (d : Plane) (n : Nat) (p first : BitVec 32) (bytes since : Nat) (ackReq : Bool) : Plane :=
  let d := countPlaced d (d.qp n).part
  let d := d.onQp n fun q => markReceived (c.ns + reorderNs d)
    { q with rxMsgs := modFirst (·.first == first) (fun m => { m with placed := m.placed + bytes }) q.rxMsgs } [p]
  ackPlaced c (notifyDue c n 4096 d) n p since ackReq

/-- The placement of an accepted packet completes. -/
def placedPsn (c : Ctl) (d : Plane) (n : Nat) (p : BitVec 32) : Plane :=
  match (d.qp n).places.find? (·.psn == p) with
  | none => d
  | some x =>
    let d := putPlacement c (d.onQp n fun q => { q with places := q.places.erase x }) x
    packetDone c d n p x.first x.bytes.length x.since x.ackReq

/-! ### Refusing (R202, R219, R250, R253, R302) -/

/-- A packet is refused with BUSY. -/
def refuse (c : Ctl) (d : Plane) (n : Nat) (p : Pkt) (detail retry since : Nat) : Plane :=
  sendAck c d n ackBusy detail retry p.psn since

/-- An access violation: the event of its window, and the ACCESS reply. -/
def denied (c : Ctl) (d : Plane) (n : Nat) (p : Pkt) (h : Word) (off cause since : Nat) : Plane :=
  sendAck c (violation c d h p.src n off cause) n ackAccess cause 0 p.psn since

/-- A placement faults: BUSY with a hint of 10 µs, and a slot when the cause takes one (R202, R204). -/
def placementFault (c : Ctl) (d : Plane) (n part va : Nat) (write atomic : Bool) (k : Cause) (p : Pkt) (since : Nat) : Plane :=
  refuse c (faultAccess c d (accessOf .receive part va write n atomic) k .other) n p 1 10 since

/-- Some piece lies in host memory that cannot be reached. -/
def hostDown (c : Ctl) (ps : List (Nat × Nat)) : Bool := !c.dev.pcieUp && ps.any fun x => regionOf x.1 == .host && x.2 != 0

/-- The pieces of a placement, or what the receiver does instead. -/
def placePieces (c : Ctl) (d : Plane) (n part va len : Nat) (write atomic : Bool) (h : Word) (off : Nat) (p : Pkt) (since : Nat) :
    Except Plane (List (Nat × Nat)) × Plane :=
  let r := translateRange c d (d.qp n).home part va len write
  match r.1 with
  | .ok ps => if hostDown c ps then (.error (refuse c r.2 n p 1 10 since), r.2) else (.ok ps, r.2)
  | .error (.fault a k) => (.error (placementFault c r.2 n part a write atomic k p since), r.2)
  | .error _ => (.error (denied c r.2 n p h off 4 since), r.2)

/-! ### WRITE and WRITE_NOTIFY (R216, R250, R322) -/

/-- Whether the notification slot that a WRITE_NOTIFY needs is held or free (R250). -/
def notifySlotOk (d : Plane) (q : Qp) (p : Pkt) (first : BitVec 32) : Bool :=
  p.ptype != ptWriteNotify || (q.rxMsgs.any (·.first == first)) || ((d.cq q.cq).enabled && decide (0 < d.cqFree q.cq))

/-- The message of an accepted WRITE_NOTIFY packet takes its notification slot with its first packet. -/
def openNotify (d : Plane) (n : Nat) (p : Pkt) (first : BitVec 32) (outBytes : Nat) : Plane :=
  let q := d.qp n
  if p.ptype ≠ ptWriteNotify ∨ (q.rxMsgs.any (·.first == first)) then d
  else
    let m : RxMsg :=
      { first := first, count := packetsOf p.msgLen q.payload, len := p.msgLen, ptype := ptWriteNotify
        value := BitVec.ofNat 32 (getBe p.ext 4 4), solicit := nbit p.flags 4, ring := q.cq, bytes := outBytes }
    (d.onCq q.cq fun x => { x with pending := x.pending + 1 }).setQp n { q with rxMsgs := q.rxMsgs ++ [m] }

/-- A new WRITE or WRITE_NOTIFY packet that is placed in its window. -/
def takeWrite (c : Ctl) (d : Plane) (n : Nat) (p : Pkt) (first : BitVec 32) (since : Nat) : Plane :=
  let q := d.qp n
  let h := BitVec.ofNat 32 (getBe p.ext 0 4)
  let off := getBe p.ext 8 8 + p.offset
  let len := p.payload.length
  match winCause d h n q.part q.peerNode .write off len with
  | some k => denied c d n p h (getBe p.ext 8 8 + p.offset) k since
  | none =>
    if !notifySlotOk d q p first then refuse c d n p 2 (creditUs d) since
    else
      let w := handleIndex h
      let r := placePieces c d n q.part ((d.win w).base + off) len true false h off p since
      match r.1 with
      | .error d => d
      | .ok ps =>
        let d := openNotify (winAccept r.2 w) n p first p.msgLen
        d.onQp n fun q => { q with places := q.places ++ [
          { psn := p.psn, ptype := p.ptype, first := first, bytes := p.payload, part := q.part, va := (d.win w).base + off
            phys := ps, win := some w, ackReq := nbit p.flags 3, since := since }] }

/-! ### Receive streams (R454 to R456) -/

/-- Units of a queue pair that its vein holds: their output is not yet written. -/
def steeredOut (d : Plane) (n : Nat) : Bool :=
  d.stg.any fun x => x.2.items.any fun i => match i.steered with | some s => s.qp == n | none => false

/-- Pieces cut off at `n` bytes: the first `n` bytes, and the rest. -/
def splitPieces : Nat → List (Nat × Nat) → List (Nat × Nat) × List (Nat × Nat)
  | _, [] => ([], [])
  | n, (a, k) :: ps =>
    if n = 0 then ([], (a, k) :: ps)
    else if k ≤ n then let r := splitPieces (n - k) ps; ((a, k) :: r.1, r.2)
    else ([(a, n)], (a + n, k - n) :: ps)

/-- The units of a steered packet as items of stage 0's queue. -/
def steerItems (n w uin uout : Nat) (first : BitVec 32) : Nat → List (List Byte) → List (Nat × Nat) → List Item
  | _, [], _ => []
  | i, u :: us, ps =>
    let s := splitPieces uout ps
    { bytes := u, cells := cellsOf 0 u.length, index := i
      steered := some { qp := n, first := first, len := uin, phys := s.1, win := w } }
      :: steerItems n w uin uout first (i + 1) us s.2

/-- Write items to a queue, or none of them without credit. -/
def writeItems (k : Nat) : List Item → Stg → Option Stg
  | [], q => some q
  | x :: xs, q => match stgWrite k q x with
    | none => none
    | some q => writeItems k xs q

/-- What becomes of a steered packet. -/
inductive Steered? where
  | done (d : Plane)
  | wait (d : Plane)

/-- A new WRITE or WRITE_NOTIFY packet on a receive-bound queue pair. -/
def takeSteered (c : Ctl) (d : Plane) (n : Nat) (v : VeinRec) (p : Pkt) (first : BitVec 32) (since : Nat) : Steered? :=
  let q := d.qp n
  let h := BitVec.ofNat 32 (getBe p.ext 0 4)
  let rel := getBe p.ext 8 8 + p.offset
  let len := p.payload.length
  let uin := max 1 (veinIn v)
  let uout := veinOut v
  let whole := rel % uin == 0 && len % uin == 0
  let off := rel / uin * uout
  let olen := len / uin * uout
  match (match winCause d h n q.part q.peerNode .write off olen with | some k => some k | none => if whole then none else some 4) with
  | some k => .done (denied c d n p h rel k since)
  | none =>
    if (d.vein v.vein).state ≠ .ready then .done (refuse c (d.venStick .notReady) n p 0 (missUs d) since)
    else if !notifySlotOk d q p first then .done (refuse c d n p 2 (creditUs d) since)
    else
      let w := handleIndex h
      let r := placePieces c d n q.part ((d.win w).base + off) olen true false h off p since
      match r.1 with
      | .error d => .done d
      | .ok ps =>
        let k := veinQueue v.vein 0
        let items := steerItems n w uin uout first (p.offset / uin) (chunksOf uin len p.payload) ps
        match writeItems k items (d.queue k) with
        | none => .wait (r.2.venStick .steerWait)
        | some g =>
          let d := r.2.setQueue k g
          let d := items.foldl (fun d _ => winAccept d w) d
          let d := openNotify d n p first (p.msgLen / uin * uout)
          .done (packetDone c d n p.psn first 0 since (nbit p.flags 3))

/-- The output of a steered unit is written through its translation (R454, R456): an error gives zeros of the normal
length, and the notification of its message the first error. -/
def steeredDone (c : Ctl) (d : Plane) (s : Steered) (out : List Byte) (err : Nat) (detail : Word) : Plane :=
  let d := winDone (writePieces c (ownerFn d (d.qp s.qp).part) s.phys out d) s.win
  let d := d.onQp s.qp fun q => { q with
    rxMsgs := modFirst (·.first == s.first) (fun m =>
      { m with
        placed := m.placed + s.len
        status := if err ≠ 0 ∧ m.status = 0 then stLocalAccess else m.status
        detail := if err ≠ 0 ∧ m.status = 0 then detail else m.detail }) q.rxMsgs }
  notifyDue c s.qp 4096 d

/-! ### SEND (R253, R321) -/

/-- A new SEND packet: its message takes the next buffer with its first accepted packet. -/
def takeSend (c : Ctl) (d : Plane) (n : Nat) (p : Pkt) (first : BitVec 32) (since : Nat) : Plane :=
  let q := d.qp n
  let opened (d : Plane) (m : RxMsg) : Plane :=
    if (d.qp n).rxMsgs.any (·.first == first) then d
    else
      let d := match takeDesc c d m.ring with | some y => y.2 | none => d
      d.onQp n fun q => { q with rxMsgs := q.rxMsgs ++ [m] }
  let place (d : Plane) (m : RxMsg) (x : Desc) : Plane :=
    let va := x.va + p.offset
    if 2 ^ 57 < va + p.payload.length then
      -- R189: the buffer's access completes with LOCAL_ACCESS, and the sender's with an access violation (log 146).
      let d := (opened d m).onQp n fun q => { q with rxMsgs := q.rxMsgs.filter (·.first != first) }
      sendAck c (notify c d n { m with status := stLocalAccess }) n ackAccess 4 0 p.psn since
    else
    let r := translateRange c d q.home q.part va p.payload.length true
    match r.1 with
    | .error (.fault a k) => placementFault c r.2 n q.part a true false k p since
    | .error _ => sendAck c r.2 n ackAccess 4 0 p.psn since
    | .ok ps =>
      if hostDown c ps then refuse c r.2 n p 1 10 since
      else
        (opened r.2 m).onQp n fun q => { q with places := q.places ++ [
          { psn := p.psn, ptype := p.ptype, first := first, bytes := p.payload, part := q.part, va := va, phys := ps
            ackReq := nbit p.flags 3, since := since }] }
  match q.rxMsgs.find? (·.first == first) with
  | some m => (match m.desc with | some x => place d m x | none => d)
  | none =>
    match (if q.srq = 0xFFFF then none else d.srqRing q.srq) with
    | none => refuse c d n p 3 (creditUs d) since
    | some k =>
      let d := withDesc c d k
      match (d.ring k).descs with
      | [] => refuse c d n p 3 (creditUs d) since
      | x :: _ =>
        if x.len < p.msgLen then
          sendAck c (d.onRing k fun r => { r with tooLong := true }) n ackAccess 7 0 p.psn since
        else place d
          { first := first, count := packetsOf p.msgLen q.payload, len := p.msgLen, ptype := ptSend
            value := BitVec.ofNat 32 (getBe p.ext 0 4), solicit := nbit p.flags 4, desc := some x, ring := k, bytes := p.msgLen } x

/-! ### READ_REQ (R325) -/

/-- The responses of a read, packet by packet. -/
def respsOf (psn : BitVec 32) (w msgLen pay : Nat) : Nat → Nat → List (Nat × Nat) → List Resp
  | 0, _, _ => []
  | fuel + 1, off, ps =>
    let len := min pay (msgLen - off)
    let s := splitPieces len ps
    { psn := psn, offset := off, len := len, msgLen := msgLen, phys := s.1, win := w }
      :: (if off + len < msgLen then respsOf (psn + 1) w msgLen pay fuel (off + len) s.2 else [])

/-- A READ_REQ that is order-bound-ready. -/
def takeReadReq (c : Ctl) (d : Plane) (n : Nat) (p : Pkt) (new : Bool) (since : Nat) : Plane :=
  let q := d.qp n
  let h := BitVec.ofNat 32 (getBe p.ext 0 4)
  let off := getBe p.ext 8 8
  match winCause d h n q.part q.peerNode .read off p.msgLen with
  | some k => denied c d n p h off k since
  | none =>
    let w := handleIndex h
    let r := placePieces c d n q.part ((d.win w).base + off) p.msgLen false false h off p since
    match r.1 with
    | .error d => d
    | .ok ps =>
      let k := packetsOf p.msgLen q.payload
      let rs := respsOf p.psn w p.msgLen q.payload k 0 ps
      let d := rs.foldl (fun d _ => winAccept d w) r.2
      let d := d.onQp n fun q =>
        let q := { q with resps := q.resps ++ rs }
        if new then markReceived (c.ns + reorderNs d) q ((List.range k).map fun i => p.psn + BitVec.ofNat 32 i) else q
      kick c (notifyDue c n 4096 (if new then countPlaced d q.part else d)) n

/-! ### ATOMIC_REQ (R328 to R331) -/

/-- Fetch-and-add or compare-and-swap on an operand of `k` bytes: the value written (R328). -/
def atomicNew (cas : Bool) (k : Nat) (old a b : Nat) : Nat :=
  if cas then (if old = a % 2 ^ (8 * k) then b % 2 ^ (8 * k) else old) else (old + a) % 2 ^ (8 * k)

/-- Answer an atomic with its ORIGINAL (R274, R331). -/
def sendAtomicResp (c : Ctl) (d : Plane) (n : Nat) (psn : BitVec 32) (original : DWord) : Plane :=
  sendClass7 c d n (qpPkt c (d.qp n) n ptAtomicResp 6 7 psn 0 0 (beBytes 8 original.toNat) []) true

/-- An executed atomic: cached among the last 16, its PSN received, answered (R331). -/
def atomicDone (c : Ctl) (d : Plane) (n : Nat) (psn : BitVec 32) (original : DWord) (w since : Nat) (ackReq : Bool) : Plane :=
  let d := d.onQp n fun q => { q with atomics := ((psn, original) :: q.atomics).take 16 }
  packetDone c (winDone (sendAtomicResp c d n psn original) w) n psn psn 0 since ackReq

/-- A new ATOMIC_REQ that is order-bound-ready. -/
def takeAtomic (c : Ctl) (d : Plane) (n : Nat) (p : Pkt) (since : Nat) : Plane :=
  let q := d.qp n
  let h := BitVec.ofNat 32 (getBe p.ext 0 4)
  let cas := getByte p.ext 4 == 1
  let wide := getByte p.ext 5 == 1
  let k := if wide then 8 else 4
  let off := getBe p.ext 8 8
  let a := getBe p.ext 16 8
  let b := getBe p.ext 24 8
  match winCause d h n q.part q.peerNode .atomic off k with
  | some x => denied c d n p h off x since
  | none =>
    let w := handleIndex h
    let r := placePieces c d n q.part ((d.win w).base + off) k true true h off p since
    match r.1 with
    | .error d => d
    | .ok ps =>
      let at_ := match ps with | x :: _ => x.1 | [] => 0
      if regionOf at_ = .host then
        if Config.atomicEnable (ownerFn d q.part) then
          (winAccept r.2 w).onQp n fun q => { q with hostAtomics := q.hostAtomics ++ [
            { psn := p.psn, addr := busAddr d at_, wide := wide, cas := cas, opA := BitVec.ofNat 64 a, opB := BitVec.ofNat 64 b, win := w
              since := since }] }
        else sendAck c r.2 n ackAccess 3 0 p.psn since
      else
        let m := readPieces c (ownerFn r.2 q.part) ps r.2
        match m.1 with
        | none => m.2
        | some bs =>
          let old := leNat bs
          let d := writePieces c (ownerFn m.2 q.part) ps (leBytes k (atomicNew cas k old a b)) m.2
          atomicDone c (winAccept d w) n p.psn (BitVec.ofNat 64 old) w since (nbit p.flags 3)

/-- The host's completion of an atomic (R330). -/
def hostAtomicDone (c : Ctl) (d : Plane) (n : Nat) (psn : BitVec 32) (ok : Bool) (original : DWord) : Plane :=
  match (d.qp n).hostAtomics.find? (·.psn == psn) with
  | none => d
  | some x =>
    let d := d.onQp n fun q => { q with hostAtomics := q.hostAtomics.erase x }
    if ok then
      let k := if x.wide then 8 else 4
      let old := original.toNat % 2 ^ (8 * k)
      let d := { d with host := Mem.writeN d.host x.addr (leBytes k (atomicNew x.cas k old x.opA.toNat x.opB.toNat)) }
      atomicDone c d n psn (BitVec.ofNat 64 old) x.win x.since true
    else
      let d := (winDone d x.win).raise (0x1C0 + (d.qp n).home) 0x03 (some (d.qp n).part)
      sendAck c d n ackAccess 3 0 psn x.since

/-! ### Sequence (R310, R321) -/

/-- First PSN of a packet's message (R321). -/
def firstPsn (q : Qp) (p : Pkt) : BitVec 32 := p.psn - BitVec.ofNat 32 (p.offset / max 1 q.payload)

/-- The packet is order-bound (R321). -/
def orderBound (q : Qp) (p : Pkt) : Bool :=
  p.ptype == ptReadReq || p.ptype == ptAtomicReq || (p.ptype == ptSend && !(q.rxMsgs.any (·.first == firstPsn q p)))

/-- How the sequence handled a packet: done, or waiting for a vein's credit (R455). -/
inductive Seq? where
  | done (d : Plane) (discarded duplicate : Bool)
  | wait (d : Plane)

/-- Steps 9 to 11 of R288 for a packet of the peer's sequence. -/
def takeSeq (c : Ctl) (d : Plane) (n : Nat) (p : Pkt) (since : Nat) : Seq? :=
  let q := d.qp n
  let dist := psnDist p.psn q.recvPsn
  let first := firstPsn q p
  if dist < 2 ^ 31 ∧ q.window ≤ dist then .done (d.relStick .beyondWindow) true false
  else if 2 ^ 31 ≤ dist ∨ q.got.any (·.1 == p.psn) then
    if p.ptype = ptReadReq then .done (takeReadReq c d n p false since) false true
    else if p.ptype = ptAtomicReq then
      (match q.atomics.find? (·.1 == p.psn) with
      | some x => .done (sendAtomicResp c d n p.psn x.2) true true
      | none => .done d true true)
    else .done (ackNow c d n p.psn since) true true
  else if q.places.any (·.psn == p.psn) then .done (ackNow c d n p.psn since) true true
  else if q.hostAtomics.any (·.psn == p.psn) then .done d true true
  else if orderBound q p && (psnDist q.recvPsn first != 0 || (steeredOut d n && (c.boundVein 0 n).isSome)) then
    .done (d.relStick .earlyDrop) true false
  else if p.ptype = ptReadReq then .done (takeReadReq c d n p true since) false false
  else if p.ptype = ptAtomicReq then .done (takeAtomic c d n p since) false false
  else if p.ptype = ptSend then .done (takeSend c d n p first since) false false
  else match c.boundVein 0 n with
    | none => .done (takeWrite c d n p first since) false false
    | some v => match takeSteered c d n v p first since with
      | .done d => .done d false false
      | .wait d => .wait d

/-! ### Responses to this end (R315, R324, R327) -/

/-- A READ_RESP (R286, R315): placed at the requester's local offset for its PSN. -/
def takeReadResp (c : Ctl) (d : Plane) (n : Nat) (p : Pkt) (since : Nat) : Plane :=
  let q := d.qp n
  match msgOf q p.psn with
  | none => d
  | some m =>
    if m.ptype ≠ ptReadReq ∨ !q.sentPsn p.psn ∨ q.donePsn p.psn then d
    else
      let off := psnDist p.psn m.first * q.payload
      let bs := p.payload.take (min q.payload (m.len - off))
      if 8192 ≤ m.ring then markDone c (countPlaced (remoteFill d m.ring (m.va + off) bs) q.part) n [p.psn] 0
      else
      let r := translateRange c d q.home q.part (m.va + off) bs.length true
      match r.1 with
      | .ok ps =>
        if hostDown c ps then markBusy c (refuse c r.2 n p 1 10 since) n p.psn 10 1
        else markDone c (countPlaced (writePieces c (ownerFn r.2 q.part) ps bs r.2) q.part) n [p.psn] 0
      | .error (.fault _ .walkError) =>
        -- R204: the access completes with TRANSLATION_FAULT at once.
        abandonEntry c (r.2.raise 0x280 0x03 (some q.part)) n m p.psn stTranslationFault
      | .error (.fault a k) => markBusy c (placementFault c r.2 n q.part a true false k p since) n p.psn 10 1
      | .error _ => abandonEntry c r.2 n m p.psn stLocalAccess

/-- An ATOMIC_RESP (R315, R324). -/
def takeAtomicResp (c : Ctl) (d : Plane) (n : Nat) (p : Pkt) : Plane :=
  let q := d.qp n
  match msgOf q p.psn with
  | none => d
  | some m =>
    if m.ptype ≠ ptAtomicReq ∨ !q.sentPsn p.psn ∨ q.donePsn p.psn then d
    else markDone c d n [p.psn] (BitVec.ofNat 64 (getBe p.ext 0 8))

/-- An ACK of a queue pair (R332). -/
def takeAckPkt (c : Ctl) (d : Plane) (n : Nat) (p : Pkt) : Plane :=
  let code := getByte p.ext 0
  let trigger := BitVec.ofNat 32 (getBe p.ext 8 4)
  if code ≤ ackGap then takeAck c d n p.ext
  else if code = ackBusy then markBusy c d n trigger (getBe p.ext 2 2) (getByte p.ext 1)
  else if code = ackAccess ∨ code = ackNoQp then takeReject c d n code (getByte p.ext 1) trigger
  else d

/-! ### Context checks (R289) and delivery -/

/-- PKT_RX of a packet (R554, R555). -/
def traceRx (c : Ctl) (d : Plane) (n : Nat) (p : Pkt) (r : RxPkt) (discarded duplicate : Bool) : Plane :=
  tracePkt c d true r.port n p.srcQp p.src (d.qp n).part p (rawSealed r.raw) discarded duplicate 0

/-- Steps 8 to 11 of R288 for a packet whose context is resident; `none` when it must wait for a vein's credit. -/
def handlePkt (c : Ctl) (d : Plane) (r : RxPkt) : Option Plane :=
  let p := { parsePkt r.raw with payload := r.payload }
  let n := p.dstQp
  let q := d.qp n
  let d := countRxBytes (touchQp c d n) q.part r.wire
  let code := getByte p.ext 0
  let unsealedAck := p.ptype == ptAck && (code == ackNoQp || code == ackFenced)
  let isSealed := rawSealed r.raw
  let d' := traceRx c d n p r false false
  let drop (d : Plane) : Option Plane := some (traceRx c d n p r true false)
  let noQp (d : Plane) (detail : Nat) : Option Plane := drop (sendNoQp c d p detail r.since r.back)
  let answered := decide (p.ptype ≤ ptAck)
  if p.ptype = ptConnectReq then some (takeConnectReq c d' p r.back)
  else if p.ptype = ptConnectAccept then some (takeConnectAccept c d' p)
  else if p.ptype = ptConnectReject then some (takeConnectReject c d' p)
  else if p.src ≠ q.peerNode ∨ p.srcQp ≠ q.peerQp ∨ (isSealed ≠ q.isSealed ∧ !unsealedAck) then noQp d 3
  else if isSealed && rawKeySlot r.raw != q.rxKey then drop (d.rxStick .openFail)
  else if q.version ≠ 0 ∧ p.inc ≠ q.peerInc then drop (d.rxStick .staleInc)
  else if q.state = .init then (if answered then noQp d 1 else drop d)
  else if q.state = .error then
    -- An acknowledgement still ends what drains (R238).
    let d := if p.ptype = ptAck ∧ code ≤ ackGap ∧ !q.msgs.isEmpty then takeAck c d n p.ext else d
    if answered then noQp d 2 else drop d
  else if q.state ≠ .ready then drop d
  else
    let d := if r.ce && q.fabric then d.onQp n fun q => { q with ceCount := min 255 (q.ceCount + 1) } else d
    if p.ptype = ptAck then some (takeAckPkt c (traceRx c d n p r false false) n p)
    else if p.ptype = ptReadResp then some (takeReadResp c (traceRx c d n p r false false) n p r.since)
    else if p.ptype = ptAtomicResp then some (takeAtomicResp c (traceRx c d n p r false false) n p)
    else if p.ptype = ptDisconnect then some (disconnected c (traceRx c d n p r false false) n)
    else match takeSeq c d n p r.since with
      | .wait _ => none
      | .done d disc dup => some (traceRx c d n p r disc dup)

/-- Park a packet behind the others of its slice, or refuse it when the miss buffer is full (R301, R302, R455). -/
def parkPkt (c : Ctl) (d : Plane) (r : RxPkt) : Plane :=
  let p := parsePkt r.raw
  let n := p.dstQp
  let slice := (d.qp n).home
  let l := d.parked slice
  if missRoom ≤ l.length then
    sendAckTo c ((d.rxStick .missFull).countUp (Reg.qpcDrop slice)) n p.src p.srcQp ackBusy 0 (missUs d) p.psn r.since
  else d.setParked slice (l ++ [(n, r)])

/-- A received FENCED acknowledgement, whatever queue pair it names (R343). -/
def takeFenced (c : Ctl) (d : Plane) (p : Pkt) : Plane :=
  if p.dst = c.selfNode ∧ getBe p.ext 4 4 % 2 ^ 16 = c.dev.incarnation.toNat then { d with effects := d.effects ++ [.quarantine] } else d

/-- Step 7 of R288: find the context, or park the packet until it is resident. -/
def deliver (c : Ctl) (d : Plane) (r : RxPkt) : Plane :=
  let p := { parsePkt r.raw with payload := r.payload }
  let n := p.dstQp
  let q := d.qp n
  if p.ptype = ptAck ∧ getByte p.ext 0 = ackFenced then takeFenced c d p
  else if 2 ^ 20 ≤ n ∨ q.state = .free then
    (if p.ptype = ptConnectAccept ∨ p.ptype = ptConnectReject then d else sendNoQp c d p 0 r.since r.back)
  else if !q.resident then fetchQp (parkPkt c d r) n
  else if (d.parked q.home).any (·.1 == n) then parkPkt c d r
  else match handlePkt c d r with
    | some d => d
    | none => parkPkt c (d.venStick .steerWait) r

/-- Handle the parked packets of a queue pair in arrival order until one must wait (R302, R455); `fuel` bounds them. -/
def unpark (c : Ctl) (n : Nat) : Nat → Plane → Plane
  | 0, d => d
  | fuel + 1, d =>
    let slice := (d.qp n).home
    match takeFirst (fun x => x.1 == n) (d.parked slice) with
    | none => freeRoom d slice
    | some (x, rest) =>
      if (d.qp n).state = .free then
        unpark c n fuel (sendNoQp c (d.setParked slice rest) { parsePkt x.2.raw with payload := x.2.payload } 0 x.2.since x.2.back)
      else match handlePkt c (d.setParked slice rest) x.2 with
        | some d => unpark c n fuel d
        | none => d

/-- A missing PSN has outlived REORDER_NS (R313); an evicted context is fetched first (R301). -/
def reorderFires (c : Ctl) (d : Plane) (n : Nat) : Plane :=
  let q := d.qp n
  match q.got with
  | [] => d
  | x :: xs =>
    let limit := if q.gapOn then q.gapAt else xs.foldl (fun t y => min t y.2) x.2
    if q.state ≠ .ready ∨ c.ns < limit then d
    else if !q.resident then fetchQp d n
    else sendAck c (d.onQp n fun q => { q with gapOn := true, gapAt := c.ns + reorderNs d }) n ackGap 0 0 q.trigger q.triggerAt

/-- ACK_DELAY has passed since the first unacknowledged placed packet (R312); an evicted context is fetched first (R301). -/
def ackDelayFires (c : Ctl) (d : Plane) (n : Nat) : Plane :=
  let q := d.qp n
  if q.ackCount = 0 ∨ q.state ≠ .ready ∨ c.ns < q.ackSince + q.ackFor then d
  else if !q.resident then fetchQp d n
  else ackNow c d n q.trigger q.triggerAt

end Sys2Proof.Machine
end

