-- ==== Sys2Proof/Machine/TimeLink.lean ====
section
/-! DEFINITION. Time-exchange frames of a group link (R372, R373, R377, R378): what a device advertises, its REQs and the
RESPs it answers with. What a complete exchange does to the counter is in Time.lean. -/
namespace Sys2Proof.Machine

def TimeState.num : TimeState → Nat
  | .free => 0 | .acquiring => 1 | .locked => 2 | .holdover => 3 | .lodestone => 4

/-- The device is a candidate (R376). -/
def Ctl.candidate (c : Ctl) : Bool :=
  decide (c.group.priority < 255) &&
    (match c.lod.state with
    | .locked | .holdover | .lodestone => true
    | .acquiring => c.lod.candidate
    | .free => false)

/-- The advertisement of no candidate (R378). -/
def noAdvert : Advert := { state := 0, priority := 0, serial := 0, node := 0, sender := 0, distance := 0xFF, since := 0 }

/-- The device's own key, with DISTANCE 0. -/
def Ctl.ownAdvert (c : Ctl) : Advert :=
  { noAdvert with priority := c.group.priority, serial := c.flash.serial, node := c.selfNode, distance := 0 }

/-- The greatest DISTANCE of an advertised candidate (R372). -/
def farthest : Nat := 13

/-- What the device advertises (R378); a parent that advertises no candidate, or one at the greatest distance, gives none. -/
def advertOf (c : Ctl) (d : Plane) : Advert :=
  let parents : Advert := match c.lod.parent.bind fun n => (d.port n).advert with
    | some a => if a.distance < farthest then { a with distance := a.distance + 1 } else noAdvert
    | none => noAdvert
  match c.lod.state with
  | .lodestone => c.ownAdvert
  | .locked | .acquiring => parents
  | .holdover => if c.candidate then c.ownAdvert else noAdvert
  | .free => noAdvert

/-- The payload of a time-exchange frame (R372); `departTime` fills PREV_T3 and PREV_SEQ of a RESP. -/
def timeBody (c : Ctl) (d : Plane) (n role : Nat) (seq : BitVec 16) (t2 : DWord) : List Byte :=
  let a := advertOf c d
  [2, 1] ++ beBytes 2 c.dev.incarnation.toNat ++ beBytes 4 c.selfNode ++ beBytes 4 c.group.groupId ++ beBytes 1 n
    ++ beBytes 1 role ++ beBytes 2 seq.toNat ++ beBytes 8 t2.toNat ++ beBytes 8 0 ++ beBytes 2 0xFFFF
    ++ beBytes 1 c.lod.state.num ++ beBytes 1 a.priority ++ beBytes 8 a.serial.toNat ++ beBytes 4 a.node
    ++ beBytes 1 a.distance ++ [0, 0, 0]

def timeFrame (c : Ctl) (d : Plane) (n role : Nat) (seq : BitVec 16) (t2 : DWord) : Frame :=
  groupFrame c n 7 0 (c.etypeLink n) (timeBody c d n role seq t2)

/-- Exchanges run on a port (R373). -/
def exchanging (c : Ctl) (p : Port) : Bool := c.maySpeak && p.group && p.peerOk

/-- Time between REQs of a port (R373). -/
def reqPeriod : Nat := 125000

/-- A REQ is due on a port (R373); its departure stamp is t1. The periods run on from one REQ to the next, and anew from a REQ that is
more than a period late. -/
def sendTimeReq (c : Ctl) (d : Plane) (n : Nat) : Plane :=
  let p := d.port n
  if !exchanging c p || decide (c.ns < p.reqAt) then d
  else
    let seq := p.reqSeq + 1
    (d.setPort n { p with reqSeq := seq, reqAt := (if c.ns < p.reqAt + reqPeriod then p.reqAt else c.ns) + reqPeriod }).queue7 n (timeFrame c d n 0 seq 0)

/-- The candidate that a time-exchange frame advertises (R372, R377). -/
def advertIn (c : Ctl) (b : List Byte) : Advert :=
  { state := getByte b 34, priority := getByte b 35, serial := BitVec.ofNat 64 (getBe b 36 8)
    node := getBe b 44 4 % 2 ^ 20, sender := getBe b 4 4 % 2 ^ 20, distance := getByte b 48, since := c.ns }

/-- A REQ: its arrival is stamped and a RESP goes back (R373). -/
def takeTimeReq (c : Ctl) (d : Plane) (n : Nat) (b : List Byte) : Plane :=
  let t := stampNow c d
  t.2.queue7 n (timeFrame c t.2 n 1 (BitVec.ofNat 16 (getBe b 14 2)) t.1)

/-- A RESP: its arrival stamp is t4 of its SEQ, and its PREV_T3 completes the exchange of PREV_SEQ (R373); incomplete
exchanges up to that one are dropped. -/
def takeTimeResp (c : Ctl) (d : Plane) (n : Nat) (b : List Byte) : Plane :=
  let t := stampNow c d
  let seq := BitVec.ofNat 16 (getBe b 14 2)
  let prev := BitVec.ofNat 16 (getBe b 32 2)
  let d := t.2.onPort n fun p => { p with
    exch := modFirst (·.seq == seq) (fun x => { x with t2 := some (BitVec.ofNat 64 (getBe b 16 8)), t4 := some t.1 }) p.exch }
  match (d.port n).exch.find? (·.seq == prev) with
  | none => d
  | some x =>
    let d := d.onPort n fun p => { p with exch := p.exch.filter fun y => decide (0 < (y.seq - prev).toNat ∧ (y.seq - prev).toNat < 32768) }
    match x.t2, x.t4 with
    | some t2, some t4 =>
      { d with effects := d.effects ++ [.exchange n x.t1 t2 (BitVec.ofNat 64 (getBe b 24 8)) t4] }
    | _, _ => d

/-- A received time-exchange frame (R111, R156, R372, R373). The candidate advertised by a fenced node is ignored. -/
def takeTime (c : Ctl) (d : Plane) (n : Nat) (b : List Byte) : Plane :=
  let k := linkOk c d n b
  let d := k.2
  if !k.1 || decide (1 < getByte b 13) then d
  else
    let node := getBe b 4 4 % 2 ^ 20
    let fenced := fenceOf c d node
    match (match fenced with | some r => if newer (BitVec.ofNat 16 (getBe b 2 2)) r.inc then none else some r | none => none) with
    | some r => sendFenced c d node (fencedOn c n node r)
    | none =>
      if !exchanging c (d.port n) then d
      else
        let d := if fenced.isSome then d else d.onPort n fun p => { p with advert := some (advertIn c b) }
        if getByte b 13 = 0 then takeTimeReq c d n b else takeTimeResp c d n b

/-! ### IEEE 1588 messages (R384) -/

/-- The octets of a PTP message that a frame carries: by Ethernet, or in UDP over IPv4 or IPv6. -/
def ptpBytes (f : Frame) : List Byte :=
  if f.etype = 0x88F7 then f.body
  else match udpAt f.etype f.body with
    | some o => f.body.drop (o + 8)
    | none => []

/-- 2^log2 seconds in ticks, one tick at the least: the interval that logMessageInterval names. -/
def intervalOf (log2 : Int) : Nat := if 0 ≤ log2 then 4000000000 * 2 ^ log2.toNat else max 1 (4000000000 / 2 ^ (-log2).toNat)

/-- The fields of a PTP message (log 15); its layout is IEEE 1588's. -/
def ptpOf (n : PortId) (f : Frame) : Ptp :=
  let b := ptpBytes f
  { port := n, kind := getByte b 0 % 16, version := getByte b 1 % 16, domain := getByte b 4, twoStep := getByte b 6 / 2 % 2 == 1
    correction := (BitVec.ofNat 64 (getBe b 8 8)).toInt / 65536
    source := BitVec.ofNat 64 (getLe b 20 8), sourcePort := BitVec.ofNat 16 (getBe b 28 2), seqId := BitVec.ofNat 16 (getBe b 30 2)
    intervalTicks := intervalOf (BitVec.ofNat 8 (getByte b 33)).toInt
    seconds := getBe b 34 6, nanos := getBe b 40 4
    reqClock := BitVec.ofNat 64 (getLe b 44 8), reqPort := BitVec.ofNat 16 (getBe b 52 2) }

/-- The PTP registers as they stand: CTRL, MASTER, MASTER_PORT, OFFSET. -/
def ptpRegs (d : Plane) : List Word :=
  [d.reg Reg.ptpCtrl, d.reg Reg.ptpMaster, d.reg (Reg.ptpMaster + 4), d.reg Reg.ptpMasterPort, d.reg Reg.ptpOffset,
   d.reg (Reg.ptpOffset + 4)]

def ptpWord (l : List Word) (i : Nat) : Word := l[i]?.getD 0

/-- The conditions that every accepted message meets, with the registers that apply to it: LODESTONE, EN, the port, and the
master's identity. -/
def ptpFrom (c : Ctl) (regs : List Word) (m : Ptp) : Bool :=
  let ctrl := ptpWord regs 0
  c.lod.state == .lodestone && flag ctrl 0 && m.port.val == bits ctrl 6 1
    && m.source == ptpWord regs 2 ++ ptpWord regs 1 && m.sourcePort.toNat == bits (ptpWord regs 3) 15 0

/-- A Sync that is accepted. -/
def syncOk (c : Ctl) (d : Plane) (m : Ptp) : Bool :=
  let regs := ptpRegs d
  m.kind == 0 && ptpFrom c regs m && m.version == 2 && m.domain == bits (ptpWord regs 0) 23 16 && m.twoStep

def followUpOk (c : Ctl) (m : Ptp) : Bool := m.kind == 8 && ptpFrom c c.lod.ptpEff m && c.lod.ptpSeq == some m.seqId

/-- The clockIdentity of the device on a port, in the layout of LOD_PTP_MASTER: octet i at bits [8i + 7 : 8i] (R384, R396). -/
def ptpClock (c : Ctl) (n : Nat) : DWord :=
  let m := beBytes 6 (c.mac n).toNat
  BitVec.ofNat 64 (leNat (m.take 3 ++ [0xFF, 0xFE] ++ m.drop 3))

def delayRespOk (c : Ctl) (m : Ptp) : Bool :=
  m.kind == 9 && ptpFrom c c.lod.ptpEff m && m.reqClock == ptpClock c m.port.val && m.reqPort == 1 && c.lod.ptpReq == some m.seqId

/-- What a PTP message is to the time block. -/
inductive PtpKind where
  | sync | followUp | delayResp | none
  deriving DecidableEq, Repr

/-- The table of R384. -/
def ptpKind (c : Ctl) (d : Plane) (m : Ptp) : PtpKind :=
  if syncOk c d m then .sync else if followUpOk c m then .followUp else if delayRespOk c m then .delayResp else .none

end Sys2Proof.Machine
end

