-- ==== Sys2Proof/Machine/Receive.lean ====
section
/-! DEFINITION. The way of a received frame (R147 to R173, R266 to R271, R282 to R289): the MAC, steering, the steps of
R288, the management agent's packets, and what leaves the cipher scheduler. A command that receives a frame names the kind
of frame it is for; `classify` says which kind a frame is. -/
namespace Sys2Proof.Machine

/-! ### Steps 1 to 3 of R288 -/

/-- What the first three steps find wrong. -/
inductive GxtBad where
  | length | version | ptype
  deriving DecidableEq, Repr

/-- A payload on a packet type that carries none (R271): bytes after its extensions that are no padding of a group-link frame, which
has `least` bytes at least (R287, log 148). -/
def strayBytes (raw : List Byte) (least : Nat) : Bool :=
  !hasPayload (getByte raw 1) && decide (max least (32 + 8 * rawUnits raw + (if rawSealed raw then 16 else 0)) < raw.length)

/-- Bytes after the EtherType of the shortest frame of a group link (R147); a fabric frame shows its length exactly. -/
def leastBody (f : Frame) (group : Bool) : Nat := if group then 46 - 4 * f.tags.length else 0

/-- The extensions are what PTYPE and SEALED imply (R271). -/
def extensionsOk (raw : List Byte) : Bool :=
  match extLen (getByte raw 1) with
  | none => false
  | some n => decide (8 * rawUnits raw = n + if rawSealed raw then 16 else 0) && !(rawSealed raw && neverSealed (getByte raw 1))

/-- Steps 1 to 3 of R288 for the GXT bytes of a frame. -/
def gxtBad (raw : List Byte) (group : Bool) (least : Nat) : Option GxtBad :=
  match payloadLen raw group with
  | none => some .length
  | some n =>
    let p := parsePkt raw
    if p.msgLen < p.offset + n then some .length
    else if rawVersion raw ≠ 1 then some .version
    else if !extensionsOk raw || strayBytes raw least then some .ptype
    else none

/-! ### The management queue pair (R282 to R284) -/

def mgmtExt (m : Mgmt) : List Byte :=
  beBytes 4 m.reqId.toNat ++ beBytes 1 m.op ++ beBytes 1 m.count ++ beBytes 1 m.status ++ [0] ++ beBytes 4 m.address ++ [0, 0, 0, 0]

/-- Send a MGMT_RESP (R284), over a group link by the route or back to the fabric port the request came from. -/
def sendMgmt (c : Ctl) (d : Plane) (m : Mgmt) : Plane :=
  let p : Pkt :=
    { ptype := ptMgmtResp, dst := m.node, src := c.selfNode, srcQp := 0, dstQp := 0, inc := c.dev.incarnation
      msgLen := m.data.length, ext := mgmtExt m, payload := m.data }
  match replyVia c d p m.back with
  | none => d
  | some (n, f) => d.queue7 n f

/-- Requests that wait, and responses kept, at most (R284). -/
def mgmtRoom : Nat := 16

/-- A MGMT_REQ that has passed step 6 of R288 (R93, R284). -/
def takeMgmtReq (c : Ctl) (d : Plane) (p : Pkt) (back : Option (Nat × Frame)) : Plane :=
  if !c.own.inbandValid || c.own.inbandNode.toNat != p.src then d
  else
    let m : Mgmt :=
      { reqId := BitVec.ofNat 32 (getBe p.ext 0 4), node := p.src, qp := p.srcQp, op := getByte p.ext 4, count := getByte p.ext 5
        address := getBe p.ext 8 4, data := p.payload, back := back }
    match d.xpt.mgmtKept.find? (·.reqId == m.reqId) with
    | some k => sendMgmt c d { k with back := back }
    | none =>
      if mgmtRoom ≤ d.xpt.mgmtQueue.length then sendMgmt c d { m with status := 4, data := [] }
      else { d with xpt := { d.xpt with mgmtQueue := d.xpt.mgmtQueue ++ [m] } }

/-! ### Steps 4 to 6 of R288 -/

/-- An MQ_READY or MQ_ABORT goes to the loader (R428, R429, R565); SRC_RANK is the sender's member index. -/
def takeLoader (c : Ctl) (d : Plane) (p : Pkt) : Plane :=
  match c.memberIndex p.src with
  | none => d.colStick .badPacket
  | some i =>
    if !mqPktOk p || (mqHdr p.ext).src != i || p.payload.length != (if p.ptype = ptMqAbort then 40 else 32) then
      d.colStick .badPacket
    else
      let t : DWord := BitVec.ofNat 64 (getBe p.payload 8 8)
      if p.ptype = ptMqAbort then { d with effects := d.effects ++ [.abort i t] }
      else { d with effects := d.effects ++ [.ready
        { member := i, jobId := getBe p.payload 0 2, tick := t, staticTag := BitVec.ofNat 64 (getBe p.payload 16 8)
          commTag := BitVec.ofNat 64 (getBe p.payload 24 8) }] }

/-- Step 6 of R288: a sealed packet enters the cipher scheduler with its key (R481, R490). -/
def openSealed (c : Ctl) (d : Plane) (n : Nat) (raw : List Byte) (r : RxPkt) : Plane :=
  match openKey d (rawKeySlot raw) (rawCounter raw) with
  | none => d.rxStick .openFail
  | some k =>
    let aad := raw.take (32 + 8 * rawUnits raw)
    let text := raw.drop (32 + 8 * rawUnits raw)
    enterCipher d
      { core := coreFor c d k.m410 (sliceOfPort n), work := coreWork k.m410 aad.length (text.length - 16)
        group := 48 + sliceOfPort n, opening := some r, aad := aad, text := text, nonce := k.nonce, key := k.key }

/-- The steps of R288 for GXT bytes received on port `n`. -/
def takeGxt (c : Ctl) (d : Plane) (n : Nat) (f : Frame) (raw : List Byte) (ce : Bool) : Plane :=
  let group := (d.port n).group
  match gxtBad raw group (leastBody f group) with
  | some .length => d.rxStick .badLength
  | some .version => d.rxStick .badVersion
  | some .ptype => d.rxStick .badPtype
  | none =>
    let len := (payloadLen raw group).getD 0
    let p := { parsePkt raw with payload := (raw.drop (32 + 8 * rawUnits raw)).take len }
    if p.dst ≠ c.selfNode then presentQueued (forward c d n f raw) (fwdKey n p.tc)
    else if p.ptype = ptFence then takeFence c d p
    else
      let back := if group then none else some (n, f)
      let k := fenceCheck c d p back
      let d := k.2
      if !k.1 then d
      else if ptCollData ≤ p.ptype ∧ p.ptype ≤ ptCollResend then takeColl c d p
      else if p.ptype = ptMqReady ∨ p.ptype = ptMqAbort then takeLoader c d p
      else if ptMqData ≤ p.ptype ∧ p.ptype ≤ ptMqClose then takeMq c d p
      else
        let r : RxPkt := { port := n, ce := ce, raw := raw, payload := p.payload, since := c.ns, wire := wireLen f, back := back }
        if rawSealed raw then openSealed c d n raw r
        else if p.ptype = ptMgmtReq then takeMgmtReq c d p back
        else if p.ptype = ptMgmtResp then d
        else deliver c d r

/-- A frame of the link layer (R154, R372). -/
def takeLink (c : Ctl) (d : Plane) (n : Nat) (f : Frame) : Plane :=
  match getByte f.body 0 with
  | 1 => takeHeartbeat c d n f.body
  | 2 => takeTime c d n f.body
  | _ => d

/-- A frame that arrives at a port goes its whole way. -/
def receive (c : Ctl) (d : Plane) (f : RxFrame) : Plane :=
  let n := f.port.val
  let m := macIn c d f
  match m.1 with
  | none => m.2
  | some fr =>
    let d := m.2
    match steer c n (d.port n) fr with
    | .link => takeLink c d n fr
    | .gxt raw ce => takeGxt c d n fr raw ce
    | .host q => hostFrame c d n q fr
    | .time => { d with effects := d.effects ++ [.ptp (ptpOf f.port fr)] }
    | .drop => d
    | .miss => d.prtStick n .filterMiss
    | .ipErr => d.prtStick n .ipErr
    | .badLength => d.rxStick .badLength

/-! ### What leaves the cipher scheduler (R288, R490, R493) -/

/-- An opened packet goes on at step 7, or is discarded. -/
def openDone (c : Ctl) (d : Plane) (r : CipReq) (x : RxPkt) : Plane :=
  if r.lost then d
  else match r.opened with
    | none => d.rxStick .openFail
    | some bs => deliver c d { x with payload := bs }

/-- The results that may leave now; `fuel` bounds the requests. -/
def drainCipher (c : Ctl) : Nat → Plane → Plane
  | 0, d => d
  | fuel + 1, d =>
    match takeResult d with
    | none => d
    | some (r, d) =>
      drainCipher c fuel (match r.sealing, r.opening with
        | some h, _ => sealDone c d r h
        | none, some x => openDone c d r x
        | none, none => d)

/-- A core finishes its oldest request (R491, R493). -/
def cipherDone (c : Ctl) (d : Plane) (core : Nat) (parity : Bool) : Plane :=
  drainCipher c (d.cip.reqs.length + 1) (finishCore d core parity)

/-! ### The kind of a frame -/

/-- The kinds of received frames that the commands tell apart. -/
inductive RxClass where
  | heartbeat
  | timeReq
  | timeResp
  | host
  /-- A frame for the time block, and what its PTP message is (R384). -/
  | ptp (k : PtpKind)
  | forward
  /-- A GXT packet for this node: its PTYPE, and CODE where the type has one. -/
  | packet (ptype code : Nat)
  | other
  deriving DecidableEq, Repr

/-- CODE of an acknowledgement or a collective packet. -/
def codeOf (p : Pkt) : Nat :=
  if p.ptype = ptAck then getByte p.ext 0
  else if p.ptype = ptCollData ∨ p.ptype = ptCollAck then getByte p.ext 3
  else 0

/-- The kind of a frame, by the headers alone. -/
def classify (c : Ctl) (d : Plane) (f : RxFrame) : RxClass :=
  let n := f.port.val
  match steer c n (d.port n) f.frame with
  | .link =>
    if getByte f.frame.body 0 = 1 then .heartbeat
    else if getByte f.frame.body 0 = 2 ∧ getByte f.frame.body 13 = 0 then .timeReq
    else if getByte f.frame.body 0 = 2 ∧ getByte f.frame.body 13 = 1 then .timeResp
    else .other
  | .host _ => .host
  | .time => .ptp (ptpKind c d (ptpOf f.port f.frame))
  | .gxt raw _ =>
    if (gxtBad raw (d.port n).group (leastBody f.frame (d.port n).group)).isSome then .other
    else
      let p := parsePkt raw
      if p.dst ≠ c.selfNode then .forward else .packet p.ptype (codeOf p)
  | _ => .other

/-- A command that receives a frame of some kinds: another kind of frame is not this command's, and nothing happens
(log 3). -/
def receiveOf (kinds : RxClass → Bool) (f : RxFrame) (c : Ctl) (d : Plane) : Plane :=
  if kinds (classify c d f) then receive c d f else d

/-- A GXT packet of one type. -/
def isPkt (ptype : Nat) : RxClass → Bool
  | .packet t _ => t == ptype
  | _ => false

/-- A GXT packet of one type and CODE. -/
def isPktCode (ptype code : Nat) : RxClass → Bool
  | .packet t k => t == ptype && k == code
  | _ => false

end Sys2Proof.Machine
end

