-- ==== Sys2Proof/Machine/PortStart.lean ====
section
/-! DEFINITION. A port starts a frame (R165, R348, R349, R357 to R364), and a slice's timing wheel releases its flows
(R352). -/
namespace Sys2Proof.Machine

/-! ### What an originated packet counts for (R553 to R555, R559) -/

/-- The GXT bytes of a frame that leaves on port `n`. -/
def gxtOf (c : Ctl) (d : Plane) (n : Nat) (f : Frame) : Option (List Byte) :=
  if (d.port n).group then (if f.etype = c.etypeGxt n then some f.body else none)
  else match parseIp f.etype f.body with
    | .gxt raw _ port => if port = c.udpPort n then some raw else none
    | _ => none

/-- A packet type of a queue pair. -/
def ofQp (ptype : Nat) : Bool := decide (ptype ≤ ptAck) || ptype == ptConnectReq || ptype == ptConnectAccept || ptype == ptDisconnect

/-- The partition and LAYER_ID of an originated packet. -/
def originOf (c : Ctl) (d : Plane) (p : Pkt) : Option (Nat × Word) :=
  if p.src ≠ c.selfNode then none
  else if ofQp p.ptype then
    let q := d.qp p.srcQp
    if q.state = .free then none
    else
      let own := decide (p.ptype ≤ ptSend ∨ p.ptype = ptAtomicReq) && p.ptype != ptReadResp
      some (q.part, if own then (match msgOf q p.psn with | some m => m.layer | none => 0) else 0)
  else if ptCollData ≤ p.ptype ∧ p.ptype ≤ ptMqClose then
    let comm := getBe p.ext 0 2
    match d.coll comm (BitVec.ofNat 64 (getBe p.ext 8 8)) with
    | some x => some (x.part, BitVec.ofNat 32 (getLe x.raw 4 4))
    | none => (c.job.comms.find? (·.comm == comm)).map fun r => (r.part, 0)
  else none

/-- Count and trace a frame that starts on a port, when it is a packet this device originated for a partition. -/
def countStart (c : Ctl) (d : Plane) (n : Nat) (f : Frame) : Plane :=
  match gxtOf c d n f with
  | none => d
  | some raw =>
    let p := parsePkt raw
    match originOf c d p with
    | none => d
    | some (part, layer) =>
      tracePkt c (countTx d part (wireLen f)) false n p.srcQp p.dstQp p.dst part p (rawSealed raw) false false layer

/-! ### Starting a frame -/

/-- 256 data frames of a group link are unacknowledged: no new one starts (R165). -/
def stalledPort (p : Port) : Bool := p.group && decide (replayRoom ≤ p.replay.length)

/-- A heartbeat (R154). -/
def isBeat (c : Ctl) (n : Nat) (f : Frame) : Bool := !isData c n f && getByte f.body 0 == 1

/-- A data frame may go out on a port: UP, with PEER_OK for Melquin-path traffic and for FENCE, which is flooded on every port
that has it (R339), and DATA_OK for any other (R157). -/
def mayCarry (p : Port) (f : Frame) : Bool :=
  let t := (parsePkt f.body).ptype
  p.link == .up && (if p.group && (melquinType t || t == ptFence) then p.showPeerOk else p.showDataOk)

/-- A class-7 frame may start: link-control frames while UP or PAUSED; a GXT packet on a port that may carry it, that is not
stalled, and that has no frame to replay, whose HOP_SEQ come first (R155, R157, R165, log 138). A device in QUARANTINE sends
heartbeats only (R84, R109). -/
def may7 (c : Ctl) (n : Nat) (p : Port) (f : Frame) : Bool :=
  if !c.maySpeak then isBeat c n f
  else !isData c n f || (mayCarry p f && !stalledPort p && p.toReplay.isEmpty)

/-- What a flow does once its packet has left stage 5 (R349). -/
def nextOfFlow (c : Ctl) (d : Plane) (key : Nat) : Plane :=
  if key < 2 ^ 20 then kick c d key
  else if key < 2 ^ 23 then kickQueue c d (key / 2 ^ 20 - 1) key
  else presentQueued d key

/-- The head's packet has left, or is lost: its PSNs count as sent (R316, R362). -/
def departHead (c : Ctl) (d : Plane) (h : Head) : Plane :=
  match h.qp with
  | some q => departPsn c d q h.psn
  | none => d

/-- Heads that fit no window of their class are discarded (R362); `fuel` bounds the heads. -/
def dropUnfit (c : Ctl) (n : Nat) : Nat → Plane → Plane
  | 0, d => d
  | fuel + 1, d =>
    match (List.range 7).findSome? fun cls => (headOf (d.port n) cls).filter fun h => neverFits c n cls h.wire with
    | none => d
    | some h => dropUnfit c n fuel (nextOfFlow c (departHead c ((dropHead d n h).schStick n .neverFits) h) h.flow)

/-- A head starts on the wire (R353, R355, R358). -/
def startHead (c : Ctl) (d : Plane) (n : Nat) (h : Head) : Plane :=
  let d := (dropHead d n h).onPort n fun p => p.onCls h.cls fun s => { s with virt := h.finish }
  let d := takeTokens c d n h.cls h.wire
  let d := if h.flow < 2 ^ 23 then chargeFlow c d h.flow h.charge else d
  let d := countStart c (departHead c d h) n h.frame
  nextOfFlow c (startFrame c d n h.frame) h.flow

/-- A class-7 frame starts (R357, R363): an acknowledgement with its HOLD_NS, a CONNECT_REQ with the time of its round trip. -/
def start7 (c : Ctl) (d : Plane) (n : Nat) (f : Frame) (rest : List Frame) : Plane :=
  let d := d.onPort n fun p => { p with queue7 := rest }
  let d := if inWindow c n then d.schStick n .class7InWindow else d
  let a := departAck c d n f
  let d := match gxtOf c a.2 n a.1 with
    | some raw => departConn c a.2 (parsePkt raw)
    | none => a.2
  startFrame c (countStart c d n a.1) n a.1

/-- A replayed frame may start: on a port that may carry it, through the gate of its class (R157, R361). -/
def mayReplay (c : Ctl) (n : Nat) (p : Port) (f : Frame) : Bool :=
  let tc := (parsePkt f.body).tc
  c.maySpeak && mayCarry p f && (tc == 7 || gateFits c n tc (wireLen f))

/-- A port that can start a frame chooses one and starts it: class 7, then a replayed frame, then the class that wins (R165,
R357). -/
def portStart (c : Ctl) (d : Plane) (n : Nat) : Plane :=
  let p := d.port n
  if c.ns < p.busyTill ∨ (p.link ≠ .up ∧ p.link ≠ .paused) then d
  else
    let d := if stalledPort p then d.prtStick n .hopStall else d
    match takeFirst (may7 c n p) p.queue7 with
    | some (f, rest) => start7 c d n f rest
    | none =>
      match p.toReplay with
      | (seq, f) :: rest => if mayReplay c n p f then startReplay c (d.setPort n { p with toReplay := rest }) n seq f else d
      | [] =>
        if p.link ≠ .up ∨ !p.showDataOk ∨ stalledPort p ∨ !c.maySpeak then d
        else
          let d := dropUnfit c n (p.heads.length + 1) d
          let a := arbitrate c n 8 d
          match a.1 with
          | none => a.2
          | some h => startHead c a.2 n h

/-! ### The timing wheel (R352) -/

/-- A released collective flow takes its oldest chunk to the hop it chooses now (R348 stages 3 and 4); without one the chunk is not
sent (R174). -/
def sendQueued (c : Ctl) (d : Plane) (key : Nat) : Plane :=
  match (d.flow key).queue with
  | [] => d
  | (_, f) :: rest =>
    let d := d.setFlow key { d.flow key with queue := rest }
    let p := parsePkt f.body
    let hop := if !c.maySend then none
      else (c.route p.dst).bind fun r =>
        if r.fabric then none else chooseHop d r (usableHops c d r p.tc false) p.tc c.selfNode p.dstQp
    match hop with
    | none => kickQueue c d (key / 2 ^ 20 - 1) key
    | some m =>
      let out := gxtFrame c m p.tc originHops f.body
      present d m { flow := key, cls := p.tc, wire := wireLen out, finish := 0, frame := out, charge := wireLen out }

/-- A flow is released from its wheel and goes to stage 3. -/
def releaseFlow (c : Ctl) (d : Plane) (key : Nat) : Plane :=
  let d := d.setFlow key { d.flow key with place := .idle }
  if key < 2 ^ 20 then sendNext c d key else sendQueued c d key

/-- The cursor of a slice's wheel advances to its next slot and releases the flows of that slot in the order they were
appended; past the last slot the due overflow flows move in. -/
def wheelTick (c : Ctl) (d : Plane) (q : Nat) : Plane :=
  let w := d.wheel q
  if w.cursor = (c.ns / 32) % wheelSlots then d
  else
    let cur := (w.cursor + 1) % wheelSlots
    let due := (w.waiting.filter (·.1 == cur)).map (·.2)
    let d := d.setWheel q { w with cursor := cur, waiting := w.waiting.filter (·.1 != cur) }
    let d := if cur = 0 then wrapWheel c d q else d
    due.foldl (fun d k => releaseFlow c d k) d

/-! ### Timers of a port (R155, R163 to R165) -/

/-- A heartbeat is due (R155). -/
def heartbeatDue (c : Ctl) (d : Plane) (n : Nat) : Plane := sendHeartbeat c d n

/-- The expected frame has not arrived 12 µs after a NAK (R163). -/
def nakRepeat (c : Ctl) (d : Plane) (n : Nat) : Plane :=
  let p := d.port n
  if !p.nakOut || decide (c.ns < p.nakAt + 12000) then d
  else sendHeartbeat c (d.setPort n { p with nakAt := c.ns, nakDue := true }) n

/-- 500 ns without a frame to send since the last acknowledgement, or 32 frames accepted (R164). -/
def ackDue (c : Ctl) (d : Plane) (n : Nat) : Plane :=
  let p := d.port n
  if p.group && p.ackDue && (decide (p.ackAt + 500 ≤ c.ns) || decide (32 ≤ p.accepted)) then sendHeartbeat c d n else d

/-- The oldest unacknowledged frame is 12 µs old without a NAK (R165). -/
def replayTimeout (c : Ctl) (d : Plane) (n : Nat) : Plane :=
  let p := d.port n
  match p.replay with
  | [] => d
  | x :: _ => if c.ns < x.sentAt + 12000 then d else beginReplay c d n

end Sys2Proof.Machine
end

