-- ==== Sys2Proof/Machine/Veins.lean ====
section
/-! DEFINITION. Veins at work (R446 to R449, R454 to R459, R475, R476): runs, the turns of stages, receive streams, and
accesses through remote leaves (R194). -/
namespace Sys2Proof.Machine

/-! ### What runs where -/

def Ctl.veinRec (c : Ctl) (v : Nat) : Option VeinRec := c.job.veins.find? (·.vein == v)

/-- The recovery domains in the slots of R526. -/
def Ctl.domains (c : Ctl) : List Domain := c.flt.slots.filterMap (·.2)

/-- A unit is stopped: its own recovery, its quadrant's or the device's runs (R524, R525). -/
def Ctl.halted (c : Ctl) (source quad : Nat) : Bool :=
  c.domains.any fun m => (m.level == 0 && m.unit == source) || (m.level == 2 && m.unit == quad) || m.level == 3

/-- The tile of a stage serves and is not stopped. -/
def stageUp (c : Ctl) (s : StageRec) : Bool :=
  match c.tileOf s.tile with
  | none => false
  | some t => !c.halted t (t / 68)


/-- A stage's access waits for a translation (R201). -/
def stageWaits (d : Plane) (v st : Nat) : Bool :=
  (d.faults.any fun x => x.2.isOpen && x.2.waiters.contains (.stage v st)) || d.slotless.any fun x => x.waiter == .stage v st

def taken (d : Plane) (v st : Nat) : Nat := SMap.find 0 (d.vein v).taken st
def heldUnits (d : Plane) (v key : Nat) : List (List Byte) := SMap.find [] (d.vein v).gather key
def setHeld (d : Plane) (v key : Nat) (l : List (List Byte)) : Plane :=
  d.onVein v fun x => { x with gather := SMap.put [] x.gather key l }

/-- Where the output units of a stage that are not yet written stand among the held units. -/
def outKey (st : Nat) : Nat := 16 + st

/-- Forget the remote accesses of a place once its unit is done. -/
def clearRemote (d : Plane) (v slot : Nat) : Plane :=
  d.onVein v fun x => { x with remote := x.remote.filter (·.slot != slot) }

/-- Change the run that a vein works on. -/
def onRun (d : Plane) (v : Nat) (f : VRun → VRun) : Plane :=
  d.onVein v fun x => { x with runs := match x.runs with | r :: rs => f r :: rs | [] => [] }

/-- A VEIN_UNIT record (R554). -/
def traceUnit (c : Ctl) (d : Plane) (v : VeinRec) (st err index : Nat) (layer : Word) : Plane :=
  traceRec c d 6 v.part layer (leBytes 1 v.vein ++ leBytes 1 st ++ leBytes 1 err ++ [0] ++ leBytes 4 index)

/-! ### Remote leaves (R194) -/

/-- A vein's access to a page of a remote leaf goes to the leaf's queue pair, as an entry of that queue pair would (R296):
a READ of the page's bytes, or a WRITE of `data`. -/
def startRemote (c : Ctl) (d : Plane) (v slot : Nat) (l : Leaf) (va n : Nat) (data : Option (List Byte)) : Plane :=
  let k := l.pte.qp
  let q := d.qp k
  let note (ended : Option Nat) (d : Plane) : Plane :=
    d.onVein v fun x => { x with
      remote := x.remote ++ [{ slot := slot, va := va, bytes := List.replicate n 0, ended := ended }] }
  match q.state with
  | .connecting => d
  | .free | .init | .error => note (some stAborted) d
  | .ready =>
    if !q.resident then fetchQp d k
    else if data.isNone && !q.caps.getLsbD 3 then note (some stVersionMismatch) d
    else
      let m : Msg :=
        { ring := veinRing v slot, index := 0, ptype := if data.isSome then ptWrite else ptReadReq, first := q.tailPsn
          count := packetsOf n q.payload, len := n, va := va, inline := data, handle := l.pte.handle
          remote := l.pte.off + (va - l.va) }
      let ms := if data.isSome then [m] else readMsgs q m (n / max 1 (q.window * q.payload) + 1) 0 q.tailPsn
      let tail := match ms.getLast? with | some m => m.first + BitVec.ofNat 32 m.count | none => q.tailPsn
      kick c (note none ((touchQp c d k).onQp k fun q => { q with msgs := q.msgs ++ ms, tailPsn := tail })) k

/-! ### Runs (R459, R475) -/

/-- The status of a vein error, or of the access that failed. -/
def runStatus (err status : Nat) : Nat := if status ≠ 0 then status else veStatus err

/-- Errors after which a run goes on (R475). -/
def veContinues (err : Nat) : Bool := err == veTagFail || err == veIndex || err == veDescriptor

/-- Note an error of the present run: the first one gives its status (R476). -/
def runError (d : Plane) (v : Nat) (st err status index : Nat) : Plane :=
  let source := match (d.vein v).runs with | r :: _ => r.tag.toNat | [] => 0
  onRun (venError d v st err index source) v fun r =>
    if r.status = 0 then { r with status := runStatus err status, detail := veDetail err st index } else r

/-- Items of a stage's queue and its held units are dropped. -/
def dropStage (d : Plane) (v st : Nat) : Plane :=
  let k := veinQueue v st
  setHeld (setHeld (d.setQueue k (stgDrain (d.queue k))) v st []) v (outKey st) []

/-- A run stops at stage `st`: the unit there and the units behind it are dropped, those ahead go on (log 43). -/
def stopRun (d : Plane) (v : Nat) (through : Nat) (st err status index : Nat) : Plane :=
  let d := runError d v st err status index
  let d := onRun d v fun r => { r with stopped := true }
  (List.range through).foldl (fun d i => dropStage d v i) d

/-- Nothing of the present run is left in the vein. -/
def runEmpty (d : Plane) (v : VeinRec) : Bool :=
  (List.range v.stages.length).all fun st =>
    (d.queue (veinQueue v.vein st)).items.isEmpty && (heldUnits d v.vein (outKey st)).isEmpty

/-- Read input units into stage 0's queue while it has credit (R448, R449); `fuel` bounds the units. -/
def feedRun (c : Ctl) (v : VeinRec) : Nat → Plane → Plane
  | 0, d => d
  | fuel + 1, d =>
    match (d.vein v.vein).runs, v.stages with
    | r :: _, s :: _ =>
      let n := max 1 (unitIn s)
      let k := veinQueue v.vein 0
      if r.stopped || decide (r.srcLen ≤ r.fed) || stageWaits d v.vein runInput
          || decide (creditOf k (d.queue k) 0 < cellsOf k n) then d
      else
        let x := dmaRead c d v.vein runInput v.part (r.src + r.fed) n
        match x.1 with
        | .ok bs =>
          match stgWrite k (x.2.queue k) { bytes := bs, cells := cellsOf k n, index := r.fed / n } with
          | none => x.2
          | some q =>
            feedRun c v fuel (clearRemote (onRun (x.2.setQueue k q) v.vein fun r => { r with fed := r.fed + n }) v.vein runInput)
        | .wait va cause =>
          if cause = .walkError then
            stopRun (x.2.raise 0x280 0x03 (some v.part)) v.vein 0 0 veTranslation stTranslationFault (r.fed / n)
          else faultAccess c x.2 (accessOf .dma v.part va false) cause (.stage v.vein runInput)
        | .remote l va n data => startRemote c x.2 v.vein runInput l va n data
        | .pending => x.2
        | .fail st => stopRun x.2 v.vein 0 0 veTranslation st (r.fed / n)
    | _, _ => d

/-- Complete the present run when nothing of it is left, and feed the next one (R459). -/
def settleRun (c : Ctl) (v : VeinRec) (d : Plane) : Plane :=
  match (d.vein v.vein).runs with
  | [] => d
  | r :: rs =>
    if !(r.stopped || decide (r.srcLen ≤ r.fed)) || !runEmpty d v then d
    else
      let d := d.onVein v.vein fun x => { x with runs := rs, taken := [], gather := [], remote := [] }
      let d := finishEntry c d r.ring r.index { status := r.status, bytes := min r.wrote 0xFFFFFFFF, detail := r.detail }
      feedRun c v 64 d

/-- A VEIN_RUN starts: it waits for its turn on its vein (R459). -/
def startVein (c : Ctl) (d : Plane) (k : Nat) (e : Fetched) : Plane :=
  let v := getByte e.raw 8
  match c.veinRec v with
  | none => failEntry c d k e.index stPoisoned (veDetail veParity 0 0)
  | some r =>
    if (d.vein v).state ≠ .ready then failEntry c d k e.index stPoisoned (veDetail veParity 0 0)
    else
      let x : VRun :=
        { ring := k, index := e.index, src := getLe e.raw 16 8, srcLen := getLe e.raw 24 8, dst := getLe e.raw 32 8
          dstLen := getLe e.raw 40 8, arg := BitVec.ofNat 64 (getLe e.raw 48 8), tag := BitVec.ofNat 16 e.tag, part := r.part }
      let d := traceEntry c (d.onEntry k e.index fun e => { e with phase := .running }) false k e 0 0
      feedRun c r 64 (d.onVein v fun y => { y with runs := y.runs ++ [x] })

/-- The input item of a stage has been used: its entries are released (R448). -/
def releaseUnit (d : Plane) (v st : Nat) : Plane :=
  let k := veinQueue v st
  d.setQueue k (stgRelease (d.queue k))

/-- Write a stage's output units on: to the next queue as credit allows, or to the run's output (R449, R459); `fuel` bounds
the units. -/
def emitUnits (c : Ctl) (v : VeinRec) (st : Nat) : Nat → Plane → Plane
  | 0, d => d
  | fuel + 1, d =>
    match heldUnits d v.vein (outKey st), (d.vein v.vein).runs with
    | u :: us, r :: _ =>
      if st + 1 < v.stages.length then
        let k := veinQueue v.vein (st + 1)
        match stgWrite k (d.queue k) { bytes := u, cells := cellsOf k u.length } with
        | none => d
        | some q => emitUnits c v st fuel (setHeld (d.setQueue k q) v.vein (outKey st) us)
      else if r.dstLen < r.wrote + u.length then
        stopRun d v.vein v.stages.length st veDstFull 0 (taken d v.vein st - 1)
      else
        let x := dmaWrite c d v.vein runOutput v.part (r.dst + r.wrote) u
        match x.1 with
        | .ok _ =>
          emitUnits c v st fuel (clearRemote
            (onRun (setHeld x.2 v.vein (outKey st) us) v.vein fun r => { r with wrote := r.wrote + u.length }) v.vein runOutput)
        | .wait va cause =>
          if cause = .walkError then
            stopRun (x.2.raise 0x280 0x03 (some v.part)) v.vein v.stages.length st veTranslation stTranslationFault
              (taken d v.vein st - 1)
          else faultAccess c x.2 (accessOf .dma v.part va true) cause (.stage v.vein st)
        | .remote l va n data => startRemote c x.2 v.vein runOutput l va n data
        | .pending => x.2
        | .fail e => stopRun x.2 v.vein v.stages.length st veTranslation e (taken d v.vein st - 1)
    | _, _ => d

/-- Emit, release the input unit once every output unit is written, and go on. -/
def emitRun (c : Ctl) (v : VeinRec) (st : Nat) (d : Plane) : Plane :=
  let d := emitUnits c v st 1024 d
  let d := if (heldUnits d v.vein (outKey st)).isEmpty then releaseUnit d v.vein st else d
  settleRun c v (feedRun c v 64 d)

/-- A stage reads its next item. -/
def readItem (d : Plane) (v st : Nat) : Plane :=
  let k := veinQueue v st
  match stgRead (d.queue k) with
  | some r => d.setQueue k r.2
  | none => d

/-- The next queue has credit for one output unit. -/
def outputRoom (d : Plane) (v : VeinRec) (st : Nat) (s : StageRec) : Bool :=
  let k := veinQueue v.vein (st + 1)
  if st + 1 < v.stages.length then decide (cellsOf k (unitOut s) ≤ creditOf k (d.queue k) 0) else true

/-- LAYER_ID and OPERATOR_ID of the work entry of a run (R553). -/
def runLayer (d : Plane) (r : VRun) : Word := match d.entry r.ring r.index with | some e => e.layer | none => 0

/-- One turn of a stage of a vein bound to VEIN_RUN. -/
def runTurn (c : Ctl) (d : Plane) (v : VeinRec) (st : Nat) (s : StageRec) : Plane :=
  if !(heldUnits d v.vein (outKey st)).isEmpty then emitRun c v st d
  else
    match stgPeek (d.queue (veinQueue v.vein st)), (d.vein v.vein).runs with
    | some x, r :: _ =>
      let index := taken d v.vein st
      let took (d : Plane) : Plane :=
        (readItem d v.vein st).onVein v.vein fun y => { y with taken := SMap.put 0 y.taken st (index + 1) }
      let group := heldUnits d v.vein st
      if s.kind = kReduce ∧ group.length + 1 < s.le 8 4 then
        let d := releaseUnit (setHeld (took d) v.vein st (group ++ [x.bytes])) v.vein st
        settleRun c v (feedRun c v 64 (traceUnit c d v st 0 index (runLayer d r)))
      else if !outputRoom d v st s then d
      else
        let y := stageRun c d v st s group x.bytes index r.arg
        match y.1 with
        | .wait va cause write => faultAccess c y.2 (accessOf .dma v.part va write) cause (.stage v.vein st)
        | .remote l va n data => startRemote c y.2 v.vein st l va n data
        | .pending => y.2
        | .done o =>
          let d := clearRemote (venFlags y.2 v.vein o) v.vein st
          let d := traceUnit c d v st o.err index (runLayer d r)
          if o.err ≠ 0 ∧ !veContinues o.err then
            settleRun c v (feedRun c v 64 (stopRun d v.vein (st + 1) st o.err o.status index))
          else
            let d := if o.err = 0 then d else runError d v.vein st o.err o.status index
            emitRun c v st (setHeld (setHeld (took d) v.vein st []) v.vein (outKey st) o.units)
    | _, _ => d

/-! ### Receive streams (R454 to R456, R476) -/

/-- One turn of a stage of a receive stream: a unit that has failed passes as zeros of the normal length. -/
def streamTurn (c : Ctl) (d : Plane) (v : VeinRec) (st : Nat) (s : StageRec) : Plane :=
  match stgPeek (d.queue (veinQueue v.vein st)) with
  | none => d
  | some x =>
    if !outputRoom d v st s then d
    else
      let y : StageRes × Plane := if x.err = 0 then stageRun c d v st s [] x.bytes x.index 0 else (stageFail s 0, d)
      match y.1 with
      | .wait _ _ _ | .remote _ _ _ _ | .pending => y.2
      | .done o =>
        let qp := match x.steered with | some t => t.qp | none => 0
        let d := traceUnit c (venFlags y.2 v.vein o) v st o.err x.index 0
        let err := if x.err ≠ 0 then x.err else if o.err = 0 then 0 else (veDetail o.err st x.index).toNat
        let d := if o.err = 0 then d else venError d v.vein st o.err x.index qp
        let out := o.units.flatten
        let d := readItem d v.vein st
        let d :=
          if st + 1 < v.stages.length then
            let k := veinQueue v.vein (st + 1)
            match stgWrite k (d.queue k) { x with bytes := out, cells := cellsOf k out.length, err := err } with
            | some q => d.setQueue k q
            | none => d
          else match x.steered with
            | some t => steeredDone c d t out (err % 256) (BitVec.ofNat 32 err)
            | none => d
        releaseUnit d v.vein st

/-- A stage may work on a unit: its tile serves, its input unit is complete, and its output has credit unless the unit only joins
a group (R449). -/
def stageReady (c : Ctl) (d : Plane) (v : VeinRec) (st : Nat) (s : StageRec) : Bool :=
  stageUp c s && (d.vein v.vein).state == .ready && !stageWaits d v.vein st && (v.binding == 0 || v.binding == 3)
    && ((stgPeek (d.queue (veinQueue v.vein st))).isSome || !(heldUnits d v.vein (outKey st)).isEmpty)
    && (outputRoom d v st s || (s.kind == kReduce && decide ((heldUnits d v.vein st).length + 1 < s.le 8 4)))

/-- How far a stage stands behind the one that its tile's sequencer served last, in the rotation of R446. -/
def turnDistance (last v st : Nat) : Nat := (12 * v + st + 768 - last) % 768

/-- It is a stage's turn at the sequencer of its tile: no other ready stage of the tile comes before it (R446). -/
def hasTurn (c : Ctl) (d : Plane) (v : VeinRec) (st : Nat) (s : StageRec) : Bool :=
  let last := SMap.find 0 d.turns s.tile
  c.job.veins.all fun x => x.stages.zipIdx.all fun y =>
    y.1.tile != s.tile || !stageReady c d x y.2 y.1 || decide (turnDistance last v.vein st ≤ turnDistance last x.vein y.2)

/-- A ready stage takes its turn (R446, R449); `kind` restricts the stage's kind. -/
def stageTurn (c : Ctl) (d : Plane) (v st : Nat) (kind : Option Nat) : Plane :=
  match c.veinRec v with
  | none => d
  | some r => match r.stages[st]? with
    | none => d
    | some s =>
      if kind.any (· != s.kind) || !stageReady c d r st s || !hasTurn c d r st s then d
      else
        let d := { d with turns := SMap.put 0 d.turns s.tile (1 + 12 * v + st) }
        if r.binding = 3 then runTurn c d r st s else streamTurn c d r st s

/-- Credit has returned to a receive stream: the parked packets of a queue pair go on (R455). -/
def resumeSteered (c : Ctl) (d : Plane) (q n : Nat) : Plane :=
  if (d.qp n).home = q ∧ (d.qp n).resident then unpark c n missRoom d else d

/-! ### Waits that end, faults and aborts -/

/-- A stage's translation wait ends with RETRY: a run's input is read on at once. -/
def retryStage (c : Ctl) (d : Plane) (v st : Nat) : Plane :=
  match c.veinRec v with
  | some r => if st = runInput then settleRun c r (feedRun c r 64 d) else d
  | none => d

/-- A stage's access fails with TRANSLATION_FAULT (R203, R475). -/
def failStage (c : Ctl) (d : Plane) (v st : Nat) : Plane :=
  match c.veinRec v with
  | none => d
  | some r =>
    let through := if st = runInput then 0 else st + 1
    let at_ := if st = runInput then 0 else st
    settleRun c r (feedRun c r 64 (stopRun d v through at_ veTranslation 0 (taken d v at_)))

/-- A run stops with its units dropped: what it has written stays. -/
def abandonRun (c : Ctl) (d : Plane) (v : VeinRec) : Plane :=
  let d := onRun d v.vein fun r => { r with stopped := true }
  settleRun c v ((List.range v.stages.length).foldl (fun d i => dropStage d v.vein i) d)

/-- The entry of a VEIN_RUN is aborted (R238). -/
def abortRun (c : Ctl) (d : Plane) (k : Nat) (i : BitVec 16) (v : Nat) : Plane :=
  match (d.vein v).runs, c.veinRec v with
  | r :: rs, some x =>
    if r.ring = k ∧ r.index = i then abandonRun c d x
    else
      finishEntry c (d.onVein v fun y => { y with runs := r :: rs.filter fun z => !(z.ring == k && z.index == i) }) k i
        { status := stAborted }
  | _, _ => failEntry c d k i stAborted

/-- A computational fault in a tile: the unit in each of its stages ends PARITY (R475, R476, R524). -/
def tileParity (c : Ctl) (d : Plane) (tile : Nat) : Plane :=
  c.job.veins.foldl (fun d v =>
    v.stages.zipIdx.foldl (fun d s =>
      let k := veinQueue v.vein s.2
      if c.tileOf s.1.tile ≠ some tile ∨ (d.queue k).items.isEmpty then d
      else if v.binding = 3 then
        settleRun c v (feedRun c v 64 (stopRun d v.vein (s.2 + 1) s.2 veParity 0 (taken d v.vein s.2)))
      else
        let q := d.queue k
        match q.items with
        | [] => d
        | x :: xs =>
          let qp := match x.steered with | some t => t.qp | none => 0
          (venError d v.vein s.2 veParity x.index qp).setQueue k { q with
            items := { x with err := (veDetail veParity s.2 x.index).toNat } :: xs }) d) d

end Sys2Proof.Machine
end

