-- ==== Sys2Proof/Machine/Entries.lean ====
section
/-! DEFINITION. Work entries (R226, R238 to R244, R387 to R392): fetching, the checks at fetch, starting, launch points,
shutdown, receive descriptors, INVALIDATE, PREFETCH and ADVISE (R206 to R211), and what resolving a fault slot does (R203). -/
namespace Sys2Proof.Machine

/-! ### Sizes and flags (R241) -/

/-- What R241 gives for an opcode: base units, and whether TIMED, INLINE and NOCOMP are permitted. -/
structure OpShape where
  base : Nat
  timed : Bool := false
  inline : Bool := false
  nocomp : Bool := true
  deriving DecidableEq, Repr

/-- The table of R241, NOP apart. -/
def opShape : Nat → Option OpShape
  | 0x01 | 0x02 | 0x04 => some { base := 2, timed := true, inline := true }
  | 0x03 => some { base := 2, timed := true }
  | 0x05 | 0x06 => some { base := 2, timed := true, nocomp := false }
  | 0x10 => some { base := 2, nocomp := false }
  | 0x11 | 0x18 | 0x30 => some { base := 1 }
  | 0x19 | 0x1A => some { base := 2 }
  | 0x20 | 0x28 => some { base := 2, timed := true }
  | _ => none

/-- UNITS plus one. -/
def entryUnits (raw : List Byte) : Nat := getByte raw 1 % 8 + 1

/-- The units that R241 expects; only the flags permitted for the opcode count (R243). -/
def wantUnits (raw : List Byte) (o : OpShape) : Nat :=
  let fl := getByte raw 1
  if o.inline && nbit fl 6 then 2 + ceilDiv (getLe raw 12 4 + 16 * b2n (nbit fl 3)) 32
  else o.base + b2n (o.timed && nbit fl 3)

/-! ### Reserved bytes (R242) -/

/-- The byte ranges of an opcode that carry fields, in order. -/
def fieldsOf : Nat → List (Nat × Nat)
  | 0x01 | 0x02 | 0x03 => [(8, 4), (12, 4), (16, 8), (24, 4), (28, 4), (32, 8)]
  | 0x04 => [(8, 4), (12, 4), (16, 8), (24, 4)]
  | 0x05 | 0x06 => [(8, 4), (12, 1), (24, 4), (32, 8), (40, 8), (48, 8)]
  | 0x10 => [(8, 4), (12, 1), (13, 1), (16, 8), (24, 8), (32, 4), (36, 4)]
  | 0x11 => [(8, 4)]
  | 0x18 => [(8, 1), (16, 8), (24, 8)]
  | 0x19 | 0x1A => [(8, 1), (16, 8), (24, 8), (32, 8)]
  | 0x20 => [(8, 2), (10, 1), (11, 1), (12, 1), (13, 1), (16, 8), (24, 8), (32, 8), (40, 8), (48, 8), (56, 8)]
  | 0x28 => [(8, 1), (16, 8), (24, 8), (32, 8), (40, 8), (48, 8)]
  | _ => []

/-- The bits of an opcode's fields that R242 does not define, as (offset, width, bits that must be zero). -/
def rsvBits (op : Nat) : List (Nat × Nat × Nat) :=
  if 1 ≤ op ∧ op ≤ 6 then [(8, 4, 0xFF000000)]
  else if op = 0x10 then [(8, 4, 0xFFF00000), (12, 1, 0xF8), (32, 4, 0xFFF00000), (36, 4, 0xFF000000)]
  else []

/-- The first reserved byte that is not zero (R242): bytes 8 up to the INLINE data or the TIMED tail. -/
def rsvByteAt (raw : List Byte) (o : OpShape) : Option Nat :=
  let op := getByte raw 0
  let fl := getByte raw 1
  let last := if o.inline && nbit fl 6 then 64 else if nbit fl 3 then raw.length - 16 else raw.length
  (List.range last).find? fun i =>
    decide (8 ≤ i) && !((fieldsOf op).any fun f => decide (f.1 ≤ i) && decide (i < f.1 + f.2)) && getByte raw i != 0

/-- The first field with a reserved bit set. -/
def rsvBitAt (raw : List Byte) : Option Nat :=
  ((rsvBits (getByte raw 0)).find? fun x => getLe raw x.1 x.2.1 &&& x.2.2 != 0).map (·.1)

def leastOf (a b : Option Nat) : Option Nat :=
  match a, b with
  | some x, some y => some (min x y)
  | some x, none => some x
  | none, y => y

/-! ### Fields (R240, R242, R402 to R404, R459) -/

def page64 : Nat := 65536

/-- The first of some checks that fails: its offset. -/
def failing (l : List (Nat × Bool)) : Option Nat := (l.find? fun x => !x.2).map (·.1)

def vaOk (raw : List Byte) (o : Nat) : Bool := decide (getLe raw o 8 < 2 ^ 57)

/-- Checks of the fields of an opcode that depend on the entry alone, in the order of their offsets. -/
def fieldChecks (raw : List Byte) : List (Nat × Bool) :=
  let op := getByte raw 0
  let fl := getByte raw 1
  let len := getLe raw 12 4
  let tail := raw.length - 16
  let timed : List (Nat × Bool) :=
    if nbit fl 3 then [(tail + 8, getLe raw (tail + 8) 8 == 2 ^ 64 - 1 || decide (getLe raw tail 8 < getLe raw (tail + 8) 8))]
    else []
  let own : List (Nat × Bool) :=
    if 1 ≤ op ∧ op ≤ 3 then
      [(12, op == 2 || len != 0), (16, vaOk raw 16 && (!nbit fl 6 || getLe raw 16 8 == 0)), (28, op == 2 || getLe raw 28 4 == 0)]
    else if op = 4 then [(16, vaOk raw 16 && (!nbit fl 6 || getLe raw 16 8 == 0))]
    else if op = 5 ∨ op = 6 then
      let size := if getByte raw 12 = 1 then 8 else 4
      [(12, decide (getByte raw 12 ≤ 1)), (32, getLe raw 32 8 % size == 0),
       (40, getByte raw 12 == 1 || decide (getLe raw 40 8 < 2 ^ 32)),
       (48, op == 6 || getLe raw 48 8 == 0)]
    else if op = 0x10 then
      let scope := getByte raw 13
      [(12, getByte raw 12 % 8 != 0), (13, decide (scope ≤ 2)), (16, vaOk raw 16 && getLe raw 16 8 % 64 == 0),
       (24, decide (64 ≤ getLe raw 24 8) && decide (getLe raw 24 8 ≤ 2 ^ 44) && getLe raw 24 8 % 64 == 0),
       (32, scope == 1 || getLe raw 32 4 == 0), (36, scope == 2 || getLe raw 36 4 == 0)]
    else if op = 0x18 then
      let scope := getByte raw 8
      [(8, decide (scope ≤ 1)),
       (16, if scope = 1 then getLe raw 16 8 == 0 else vaOk raw 16 && getLe raw 16 8 % page64 == 0),
       (24, if scope = 1 then getLe raw 24 8 == 0 else getLe raw 24 8 != 0 && getLe raw 24 8 % page64 == 0)]
    else if op = 0x19 ∨ op = 0x1A then
      let kind := getByte raw 8
      [(8, kind == 0 || (op == 0x1A && kind == 1)), (16, vaOk raw 16 && getLe raw 16 8 % page64 == 0),
       (24, getLe raw 24 8 != 0 && getLe raw 24 8 % page64 == 0), (32, kind != 1 || getLe raw 32 8 == 0)]
    else if op = 0x20 then
      let o := getByte raw 10
      let fi := getByte raw 11
      let fo := getByte raw 12
      let n := getLe raw 16 6
      let bar := o == opBarrier
      let moves := o == opAllGather || o == opBroadcast || o == opAllToAll || o == opDispatch
      let fmt (f : Nat) : Bool := decide (1 ≤ f) && decide (f ≤ 9)
      let whole (f : Nat) : Bool := decide (opAllToAll < o) || n * fmtWidth f % 8 == 0
      [(10, decide (1 ≤ o) && decide (o ≤ 8)), (11, if bar then fi == 0 else fmt fi),
       (12, if bar then fo == 0 else fmt fo && (!moves || fo == fi)),
       (13, decide (getByte raw 13 ≤ 1) && (!(bar || moves) || getByte raw 13 == 0)),
       (16, if bar then getLe raw 16 8 == 0 else
          decide (1 ≤ n) && decide (n ≤ 2 ^ 40) && (o == opBroadcast || getLe raw 22 2 == 0) && whole fi && whole fo),
       (24, if bar then getLe raw 24 8 == 0 else vaOk raw 24 && getLe raw 24 8 % 64 == 0),
       (32, if bar then getLe raw 32 8 == 0 else vaOk raw 32 && getLe raw 32 8 % 64 == 0),
       (48, vaOk raw 48 && getLe raw 48 8 % 64 == 0), (56, getByte raw 13 == 1 || getLe raw 56 8 == 0)]
    else if op = 0x28 then
      [(16, vaOk raw 16 && getLe raw 16 8 % 64 == 0), (24, getLe raw 24 8 != 0), (32, vaOk raw 32 && getLe raw 32 8 % 64 == 0)]
    else []
  own ++ timed

/-! ### Checks that depend on a queue pair, a communicator or a vein (R243, R451, R457 to R459) -/

/-- Whether a vein that an entry needs is READY. -/
def veinReady (d : Plane) (v : VeinRec) : Bool := (d.vein v.vein).state == .ready

/-- Bytes of the chunks of a COLLECTIVE in a format (R415, R458). -/
def chunkSizes (raw : List Byte) (f : Nat) : List Nat :=
  let k := max 1 (chunkElems (getByte raw 11) (getByte raw 12))
  let n := getLe raw 16 6
  (if k ≤ n then [elemBytes f k] else []) ++ (if n % k = 0 then [] else [elemBytes f (n % k)])

/-- The first of these checks that fails: its cause and offset, and whether NOT_READY sets. -/
def dependChecks (c : Ctl) (d : Plane) (part : Nat) (raw : List Byte) : Option (Nat × Nat × Bool) :=
  let op := getByte raw 0
  if 1 ≤ op ∧ op ≤ 6 then
    let n := getLe raw 8 4 % 2 ^ 24
    let q := d.qp n
    if 2 ^ 20 ≤ n ∨ q.state = .free ∨ q.part ≠ part then some (7, 8, false)
    else match c.boundVein 1 n with
      | none => none
      | some v =>
        if !veinReady d v then some (8, 8, true)
        else if op = 1 ∨ op = 2 ∨ op = 4 then
          if getLe raw 12 4 % max 1 (veinIn v) ≠ 0 then some (6, 12, false)
          else if q.payload % max 1 (veinOut v) ≠ 0 then some (6, 8, false)
          else none
        else none
  else if op = 0x20 then
    let o := getByte raw 10
    let comm := getLe raw 8 2
    match commOf c comm part with
    | none => some (8, 8, false)
    | some (rank, nodes) =>
      let src := c.commVein comm 0
      let res := c.commVein comm 1
      if (src.any fun v => !veinReady d v) || (res.any fun v => !veinReady d v) then some (8, 8, true)
      else if o = opBroadcast ∧ nodes.length ≤ getLe raw 22 2 then some (6, 16, false)
      else if o = opBroadcast ∧ getLe raw 22 2 ≠ rank ∧ getLe raw 24 8 ≠ 0 then some (6, 24, false)
      else if o = opBarrier then none
      else if (src.isSome || res.isSome) && (o == opDispatch || o == opCombine) then some (6, 10, false)
      else
        let outF := if sums o then getByte raw 12 else getByte raw 11
        if (src.any fun v => (chunkSizes raw (getByte raw 11)).any fun b => b % max 1 (veinOut v) != 0)
            || (res.any fun v => (chunkSizes raw outF).any fun b => b % max 1 (veinIn v) != 0) then some (6, 16, false)
        else none
  else if op = 0x28 then
    match c.veinRec (getByte raw 8) with
    | none => some (8, 8, false)
    | some v =>
      if v.binding ≠ 3 ∨ v.part ≠ part then some (8, 8, false)
      else if !veinReady d v then some (8, 8, true)
      else
        let n := max 1 (veinIn v) * (match v.stages with | s :: _ => if s.kind = kReduce then max 1 (s.le 8 4) else 1 | [] => 1)
        let scatter := (v.stages.getLast?.map (·.kind)) == some kScatter
        if getLe raw 24 8 % n ≠ 0 then some (6, 24, false)
        else if scatter ∧ getLe raw 40 8 ≠ 0 then some (6, 40, false)
        else none
  else none

/-- What the checks of R243 find in an entry whose units are `raw`, cut off at the end of the ring: cause and offset, and
whether NOT_READY sets. -/
def entryBad (c : Ctl) (d : Plane) (part : Nat) (raw : List Byte) : Option (Nat × Nat × Bool) :=
  let op := getByte raw 0
  let fl := getByte raw 1
  let straddles := decide (raw.length < 32 * entryUnits raw)
  if op = 0 then
    if straddles then some (3, 0xFF, false) else if fl / 8 ≠ 0 then some (4, 1, false) else none
  else match opShape op with
    | none => some (1, 0, false)
    | some o =>
      if entryUnits raw ≠ wantUnits raw o then some (2, 1, false)
      else if straddles then some (3, 0xFF, false)
      else if (nbit fl 3 && !o.timed) || (nbit fl 6 && !o.inline) || (nbit fl 7 && !o.nocomp) then some (4, 1, false)
      else match leastOf (rsvByteAt raw o) (rsvBitAt raw) with
        | some off => some (5, off, false)
        | none => match failing (fieldChecks raw) with
          | some off => some (6, off, false)
          | none => dependChecks c d part raw

/-! ### Fetching (R227, R237, R238, R243, R249) -/

/-- An entry of a ring that is not legal, or is fetched during a shutdown, completes without having run. -/
def completeUnrun (c : Ctl) (d : Plane) (k : Nat) (i : BitVec 16) (raw : List Byte) (status : Nat) : Plane :=
  let e : Fetched := { index := i, raw := raw }
  let d := writeComp c d (d.wrgCq k)
    { tag := e.tag, status := status, solicited := e.solicit, opcode := e.opcode, ring := k, result := e.resultWith 0
      qp := e.qp, index := i }
  traceEntry c d true k e status 0

/-- Read the next entry's bytes: `none` when the read fails, `some none` while PRODUCER does not cover the entry. -/
def nextEntry (c : Ctl) (d : Plane) (k : Nat) (ok : Bool) : Option (Option (List Byte)) × Plane :=
  let r := d.ring k
  let x := readUnits c d k r.consumer 1
  match x.1 with
  | none => (none, x.2)
  | some first =>
    if !ok then (none, x.2)
    else
      let room := min (entryUnits first) (d.wrgSize k - r.consumer.toNat % d.wrgSize k)
      if span r.producer r.consumer < room ∧ r.state ≠ .stopping then (some none, x.2)
      else
        let y := readUnits c x.2 k r.consumer (min room (span r.producer r.consumer))
        match y.1 with
        | none => (none, y.2)
        | some bs => (some (some bs), y.2)

/-- A COLLECTIVE for which a LATE notice is kept completes LATE at its fetch (R390). -/
def fetchedLate (c : Ctl) (d : Plane) (k : Nat) (e : Fetched) : Plane :=
  if e.opcode ≠ 0x20 then d
  else
    let comm := getLe e.raw 8 2
    let ident := BitVec.ofNat 64 (getLe e.raw 40 8)
    match keptLate d comm ident with
    | none => d
    | some n =>
      let d := { d with col := { d.col with kept := d.col.kept.filter (· != n) } }
      let d := d.keep { comm := comm, ident := ident, engine := engineOf d (d.wrgPart k), answers := true }
      failEntry c d k e.index stLate (lateDetail n.node)

/-- Fetch the next entry of a work ring (R243): its slot is reserved first (R249), then its bytes are read and checked. -/
def fetchEntry (c : Ctl) (d : Plane) (k : Nat) (ok : Bool) : Plane :=
  let r := d.ring k
  if d.wrgKind k || !mayFetch c r then d
  else
    let s := reserveSlot d k
    if !s.1 then s.2
    else
      let x := nextEntry c s.2 k ok
      match x.1 with
      | some none => x.2.releaseSlot (d.wrgCq k)
      | none => fetchFails c (x.2.releaseSlot (d.wrgCq k)) k
      | some (some raw) =>
        let i := r.consumer
        let used := BitVec.ofNat 16 (raw.length / 32)
        let d := x.2
        let pass (d : Plane) : Plane := (d.onRing k fun r => { r with consumer := r.consumer + used }).settleRing k
        if r.state = .stopping then
          if getByte raw 0 = 0 then pass (d.releaseSlot (d.wrgCq k)) else pass (completeUnrun c d k i raw stAborted)
        else match entryBad c d (d.wrgPart k) raw with
          | some (cause, off, notReady) =>
            let d := if notReady then d.venStick .notReady else d
            ringError c (pass (completeUnrun c d k i raw stMalformed)) k cause i off (getByte raw 0)
          | none =>
            if getByte raw 0 = 0 then pass (d.releaseSlot (d.wrgCq k))
            else
              let e : Fetched := { index := i, raw := raw }
              fetchedLate c ((pass d).onRing k fun r => { r with fetched := r.fetched ++ [e] }) k e

/-- The next entry is a NOP. -/
def nextIsNop (c : Ctl) (d : Plane) (k : Nat) : Bool :=
  match (nextEntry c d k true).1 with
  | some (some raw) => getByte raw 0 == 0
  | _ => false

/-- A NOP completes at its fetch and releases its slot (R241). -/
def fetchNop (c : Ctl) (d : Plane) (k : Nat) : Plane := if nextIsNop c d k then fetchEntry c d k true else d

/-! ### Starting (R240, R241, R296, R387 to R389) -/

/-- An earlier entry of the same ring names the same queue pair and has not started. -/
def behindQp (r : Ring) (e : Fetched) : Bool :=
  decide (1 ≤ e.opcode ∧ e.opcode ≤ 6) &&
    (r.fetched.takeWhile (·.index != e.index)).any fun x =>
      decide (1 ≤ x.opcode ∧ x.opcode ≤ 6) && x.qp == e.qp && (x.phase == .fetched || x.phase == .timed)

/-- A fetched entry that may start: not yet started, and nothing earlier holds it back. -/
def ready? (d : Plane) (k : Nat) (i : BitVec 16) (phase : Phase) : Option Fetched :=
  match d.entry k i with
  | none => none
  | some e => if e.phase = phase ∧ canStart (d.ring k) e ∧ !behindQp (d.ring k) e then some e else none

/-- An untimed entry of an opcode starts with its operation, when it may. -/
def startEntry (c : Ctl) (d : Plane) (k : Nat) (i : BitVec 16) (fits : Fetched → Bool) (op : Ctl → Plane → Nat → Fetched → Plane) :
    Plane :=
  match ready? d k i .fetched with
  | none => d
  | some e => if !e.timed && fits e then op c d k e else d

/-- Entries of one opcode. -/
def ofOp (op : Nat) (e : Fetched) : Bool := e.opcode == op

/-- COLLECTIVE entries of one operation. -/
def ofColl (op : Nat) (e : Fetched) : Bool := e.opcode == 0x20 && getByte e.raw 10 == op

/-- A FENCE starts once every earlier entry has completed, and is then complete (R241). -/
def runFence (c : Ctl) (d : Plane) (k : Nat) (e : Fetched) : Plane :=
  finishEntry c (traceEntry c d false k e 0 0) k e.index {}

/-- The longest lead in ticks (R388). -/
def maxLead (d : Plane) : Nat := bits (d.reg Reg.lodCfg) 31 16 * 4000000

/-- A timed entry completes LATE at its launch point; a COLLECTIVE tells the other members (R388, R390). -/
def goLate (c : Ctl) (d : Plane) (k : Nat) (e : Fetched) (reason : Nat) : Plane :=
  let d := if e.opcode = 0x20 then
      sendLate c (d.keep { comm := getLe e.raw 8 2, ident := BitVec.ofNat 64 (getLe e.raw 40 8)
                           engine := engineOf d (d.wrgPart k), answers := true }) (d.wrgPart k) e.raw
    else d
  failEntry c d k e.index stLate (BitVec.ofNat 32 reason)

/-- A timed entry's queue pair lets it reach its launch point: READY, or in a state that completes it (R296, R387). -/
def qpSettled (d : Plane) (e : Fetched) : Bool :=
  !decide (1 ≤ e.opcode ∧ e.opcode ≤ 6) || (d.qp e.qp).state != .connecting

/-- The launch point of a timed entry (R387, R388). -/
def launchPoint (c : Ctl) (d : Plane) (k : Nat) (i : BitVec 16) : Plane :=
  match ready? d k i .fetched with
  | none => d
  | some e =>
    if !e.timed || !qpSettled d e then d
    else if 1 ≤ e.opcode ∧ e.opcode ≤ 6 ∧ (d.qp e.qp).state ≠ .ready then startQpEntry c d k e
    else
      let lead : Int := (e.launch : Int) - c.now
      if lead < 8000 then goLate c d k e 0
      else if (maxLead d : Int) < lead then goLate c d k e 1
      else d.onEntry k i fun e => { e with phase := .timed }

/-- The tick of a waiting timed entry arrives and it starts (R389). -/
def timedStart (c : Ctl) (d : Plane) (k : Nat) (i : BitVec 16) : Plane :=
  match d.entry k i with
  | none => d
  | some e =>
    if e.phase ≠ .timed ∨ c.now < e.launch ∨ behindQp (d.ring k) e then d
    else if e.opcode = 0x20 then postColl c d k e
    else if e.opcode = 0x28 then startVein c d k e
    else startQpEntry c d k e

/-- A deadline arrives before its entry has completed (R392). -/
def deadlineArrives (c : Ctl) (d : Plane) (k : Nat) (i : BitVec 16) : Plane :=
  match d.entry k i with
  | none => d
  | some e =>
    if !e.hasDeadline || e.missed || decide (c.now < e.deadline) then d
    else (missDeadline c d k e).onEntry k i fun e => { e with missed := true }

/-! ### INVALIDATE (R206, R207) -/

/-- Transfers of a partition issued with a translation of a range, and not finished: placements, responses being read,
units on their way to a translated output, and accesses through remote leaves that are not acknowledged (R207). -/
def inFlight (c : Ctl) (d : Plane) (p va n : Nat) : Bool :=
  let hits (a k : Nat) : Bool := decide (a < va + n) && decide (va < a + k)
  d.qps.any (fun x => x.2.part == p &&
      (x.2.places.any (fun y => hits y.va (max 1 y.bytes.length)) || x.2.resps.any (fun r => r.original.isNone)
        || !x.2.hostAtomics.isEmpty))
    || d.stg.any (fun x => x.2.items.any fun i => match i.steered with | some s => (d.qp s.qp).part == p | none => false)
    || c.job.veins.any fun v => v.part == p &&
        (d.vein v.vein).remote.any fun r => r.ended.isNone && hits r.va (max 1 r.bytes.length)

/-- The range of an INVALIDATE. -/
def invRange (e : Fetched) : Nat × Nat := if getByte e.raw 8 = 1 then (0, 2 ^ 57) else (getLe e.raw 16 8, getLe e.raw 24 8)

/-- INVALIDATE drops the cached translations of its scope and waits for the drain (R206); a range past the 57-bit space is
LOCAL_ACCESS (R189, R242). -/
def runInvalidate (c : Ctl) (d : Plane) (k : Nat) (e : Fetched) : Plane :=
  let p := d.wrgPart k
  let r := invRange e
  if 2 ^ 57 < r.1 + r.2 then failEntry c d k e.index stLocalAccess
  else
    let d := if getByte e.raw 8 = 1 then d.dropPart p else d.dropRange p r.1 r.2
    (traceEntry c d false k e 0 0).onEntry k e.index fun e => { e with phase := .running }

/-- Every transfer issued with a dropped translation has drained (R207). -/
def invDrained (c : Ctl) (d : Plane) (k : Nat) (i : BitVec 16) : Plane :=
  match d.entry k i with
  | none => d
  | some e =>
    let r := invRange e
    if e.opcode ≠ 0x18 ∨ e.phase = .fetched ∨ inFlight c d (d.wrgPart k) r.1 r.2 then d else finishEntry c d k i {}

/-! ### PREFETCH and ADVISE (R209 to R211) -/

/-- The local address of the leaf entry that maps a virtual address, by the walk of R190. -/
def leafEntryFrom (c : Ctl) (d : Plane) (p va : Nat) : List Level → Nat → Option Nat
  | [], _ => none
  | v :: vs, table =>
    let a := table + 16 * ((va / 2 ^ v.shift) % v.entries)
    match readEntry c d p a with
    | none => none
    | some (lo, hi) =>
      let e := pteOf lo hi
      if e.valid && e.leaf && v.page.isSome then some a else leafEntryFrom c d p va vs e.off

def leafEntry (c : Ctl) (d : Plane) (p va : Nat) : Option Nat := leafEntryFrom c d p va levels (rootTable d p)

/-- Rewrite the low half of a leaf entry. -/
def writeLeaf (c : Ctl) (d : Plane) (p va : Nat) (lo : DWord) : Plane :=
  match leafEntry c d p va with
  | some a => writeLocal c d (ownerFn d p) a (leBytes 8 lo.toNat)
  | none => d

/-- Bit 6 of a leaf entry, MOVING (R191). -/
def movingBit : DWord := 0x40

/-- Whether the mover may take a leaf: local, of the kind of memory the entry moves from, wholly in its range, with its
destination in the memory it moves to (R209, R210). -/
def moveOk (c : Ctl) (p : Nat) (e : Fetched) (l : Leaf) : Bool :=
  let va := getLe e.raw 16 8
  let n := getLe e.raw 24 8
  let dst := getLe e.raw 32 8 + e.progress
  let out := e.opcode == 0x1A
  l.pte.kind == 0 && decide (l.va = va + e.progress) && decide (l.va + l.size ≤ va + n) && dst % l.size == 0
    && decide (regionOf l.pte.off = (if out then .stacked else .host))
    && (if out then decide (regionOf dst = .host) && decide (regionOf (dst + l.size - 1) = .host) else c.ownsStacked p dst l.size)

/-- The mover takes the next leaf of a PREFETCH or EVICT: MOVING set, cached copies dropped (R209 step 1). -/
def moveNext (c : Ctl) (d : Plane) (k : Nat) (i : BitVec 16) : Plane :=
  match d.entry k i with
  | none => d
  | some e =>
    let p := d.wrgPart k
    let va := getLe e.raw 16 8 + e.progress
    let stop (d : Plane) (status : Nat) : Plane := finishEntry c d k i { status := status, bytes := min e.bytes 0xFFFFFFFF }
    let wait (k' : Cause) : Plane :=
      if k' = .walkError then stop (d.raise 0x280 0x03 (some p)) stTranslationFault
      else (faultAccess c d (accessOf .mover p va true) k' (.entry k i)).onEntry k i fun e => { e with phase := .faulted }
    match walk c d p va with
    | .fault x => wait x
    | .leaf l =>
      if !moveOk c p e l then stop d stLocalAccess
      else if l.pte.moving then wait .moving
      else
        ((writeLeaf c d p va (l.lo ||| movingBit)).dropLeaves p l.va l.size).onEntry k i fun e => { e with phase := .running }

/-- The range of a PREFETCH or ADVISE lies in the 57-bit space (R189). -/
def rangeOk (e : Fetched) : Bool := decide (getLe e.raw 16 8 + getLe e.raw 24 8 ≤ 2 ^ 57)

/-- PREFETCH and EVICT start (R209, R210). -/
def runMove (c : Ctl) (d : Plane) (k : Nat) (e : Fetched) : Plane :=
  if rangeOk e then moveNext c (traceEntry c d false k e 0 0) k e.index else failEntry c d k e.index stLocalAccess

/-- WARM loads the leaves of a range into the caches of every slice; `fuel` bounds its pages (R210). -/
def warmFrom (c : Ctl) (k : Nat) (i : BitVec 16) : Nat → Plane → Plane
  | 0, d => d
  | fuel + 1, d =>
    match d.entry k i with
    | none => d
    | some e =>
      let p := d.wrgPart k
      let va := getLe e.raw 16 8 + e.progress
      if getLe e.raw 24 8 ≤ e.progress then finishEntry c d k i {}
      else match walk c d p va with
        | .leaf l =>
          let path := pointersFrom c d p va levels (rootTable d p)
          let d := (List.range 4).foldl (fun d q => d.remember q p l path) d
          warmFrom c k i fuel (d.onEntry k i fun e => { e with
            phase := .running, progress := e.progress + (l.va + l.size - va) })
        | .fault x =>
          if x = .walkError then failEntry c (d.raise 0x280 0x03 (some p)) k i stTranslationFault
          else (faultAccess c d (accessOf .mover p va false) x (.entry k i)).onEntry k i fun e => { e with phase := .faulted }

def runWarm (c : Ctl) (d : Plane) (k : Nat) (e : Fetched) : Plane :=
  if rangeOk e then warmFrom c k e.index (getLe e.raw 24 8 / page64 + 1) (traceEntry c d false k e 0 0)
  else failEntry c d k e.index stLocalAccess

/-! ### Waits that end (R203) -/

/-- A fetched entry whose access waited goes on. -/
def resumeEntry (c : Ctl) (d : Plane) (k : Nat) (i : BitVec 16) : Plane :=
  match d.entry k i with
  | none => d
  | some e =>
    let d := d.onEntry k i fun e => { e with phase := if e.phase == .faulted then .running else e.phase }
    if 1 ≤ e.opcode ∧ e.opcode ≤ 6 then kick c (d.onQp e.qp fun q => { q with stalled := false }) e.qp
    else if e.opcode = 0x19 ∨ (e.opcode = 0x1A ∧ getByte e.raw 8 = 0) then moveNext c d k i
    else if e.opcode = 0x1A then warmFrom c k i (getLe e.raw 24 8 / page64 + 1) d
    else if e.opcode = 0x20 then resumeColl c d k i
    else d

/-- A fetched entry whose access waited completes TRANSLATION_FAULT. -/
def failWaiting (c : Ctl) (d : Plane) (k : Nat) (i : BitVec 16) : Plane :=
  match d.entry k i with
  | none => d
  | some e =>
    if 1 ≤ e.opcode ∧ e.opcode ≤ 6 then
      kick c (failEntry c (d.onQp e.qp fun q => dropUnsent q k i) k i stTranslationFault) e.qp
    else if e.opcode = 0x20 then
      match collOfEntry d k i with
      | some x => collEnd c d x stTranslationFault 0 {}
      | none => failEntry c d k i stTranslationFault
    else finishEntry c d k i { status := stTranslationFault, bytes := min e.bytes 0xFFFFFFFF }

/-- A waiter of a slot goes on, or fails. -/
def endWait (c : Ctl) (ok : Bool) (d : Plane) (w : Waiter) : Plane :=
  match w with
  | .entry k i => if ok then resumeEntry c d k i else failWaiting c d k i
  | .stage v st => if ok then retryStage c d v st else failStage c d v st
  | .other => d

/-- A slot is resolved: it frees, with RETRY after dropping the cached translations of its page, and its waiters go on or
fail; then the accesses that wait without a slot take it (R199, R203). -/
def resolveSlot (c : Ctl) (d : Plane) (k : Nat) (retry : Bool) : Plane :=
  let s := d.slot k
  if !s.isOpen then d
  else
    let d := d.setSlot k {}
    let d := if retry then d.dropLeaves s.part s.va 65536 else d
    let d := s.waiters.foldl (endWait c retry) d
    seatSlotless c s.part d.slotless.length d

/-- The copy of a page is complete: the leaf is rewritten, cached copies are dropped, writes that wait under MOVING go on,
and the next leaf is taken (R209, R211). -/
def pageMoved (c : Ctl) (d : Plane) (k : Nat) (i : BitVec 16) : Plane :=
  match d.entry k i with
  | none => d
  | some e =>
    let p := d.wrgPart k
    let va := getLe e.raw 16 8 + e.progress
    if !(e.opcode == 0x19 || (e.opcode == 0x1A && getByte e.raw 8 == 0)) || e.phase == .fetched || e.phase == .faulted then d
    else match walk c d p va with
      | .fault _ => d
      | .leaf l =>
        if !l.pte.moving || inFlight c d p l.va l.size then d
        else
          let dst := getLe e.raw 32 8 + e.progress
          let x := readLocal c d (ownerFn d p) l.pte.off l.size
          match x.1 with
          | none =>
            finishEntry c (writeLeaf c x.2 p va (l.lo &&& ~~~movingBit)) k i
              { status := stLocalAccess, bytes := min e.bytes 0xFFFFFFFF }
          | some bs =>
            let d := writeLocal c x.2 (ownerFn d p) dst bs
            let keep : DWord := BitVec.ofNat 64 (l.lo.toNat % 512) &&& ~~~movingBit
            let lo := keep ||| BitVec.ofNat 64 (l.pte.node * 2 ^ 44 + dst)
            let d := (writeLeaf c d p va lo).dropLeaves p l.va l.size
            let d := d.onEntry k i fun e => { e with progress := e.progress + l.size, bytes := e.bytes + l.size }
            let held := (slotsOf p).filter fun s =>
              (d.slot s).isOpen && (d.slot s).cause == 6 && decide (l.va ≤ (d.slot s).va) && decide ((d.slot s).va < l.va + l.size)
            let d := held.foldl (fun d s => resolveSlot c d s true) d
            let waits (x : Parked) : Bool :=
              x.access.part.val == p && x.cause == 6 && decide (l.va ≤ x.access.va.toNat) && decide (x.access.va.toNat < l.va + l.size)
            let seats := d.slotless.filter waits
            let d := seats.foldl (fun d x => endWait c true d x.waiter) { d with slotless := d.slotless.filter fun x => !waits x }
            if e.phase = .aborting then finishEntry c d k i { status := stAborted, bytes := min (e.bytes + l.size) 0xFFFFFFFF }
            else if getLe e.raw 24 8 ≤ e.progress + l.size then
              finishEntry c d k i { bytes := min (e.bytes + l.size) 0xFFFFFFFF }
            else moveNext c d k i

/-! ### Shutdown (R238) -/

/-- One fetched entry of a ring being shut down: what has issued nothing completes ABORTED at once; the rest is marked, and
completes ABORTED when its last transfer ends. -/
def abortEntry (c : Ctl) (k : Nat) (d : Plane) (e : Fetched) : Plane :=
  let i := e.index
  let now (d : Plane) : Plane := finishEntry c d k i { status := stAborted, bytes := min e.bytes 0xFFFFFFFF }
  if e.phase = .fetched ∨ e.phase = .timed then now d
  else
    let d := d.onEntry k i fun e => { e with phase := .aborting }
    if 1 ≤ e.opcode ∧ e.opcode ≤ 6 then
      let d := d.onQp e.qp fun q => dropUnsent q k i
      let d := if (d.qp e.qp).msgs.any fun m => m.ring == k && m.index == i then completeDone c d e.qp 0 else now d
      kick c d e.qp
    else if e.opcode = 0x20 then
      match collOfEntry d k i with
      | some x => if x.state = .waiting then collEnd c d x stAborted 0 {} else collCheck c d x
      | none => now d
    else if e.opcode = 0x28 then abortRun c d k i (getByte e.raw 8)
    else if e.opcode = 0x18 then d
    else if (e.opcode = 0x19 ∨ e.opcode = 0x1A) ∧ e.phase = .running then d
    else now d

/-- SHUTDOWN of a work ring (R237, R238). -/
def wrgShutdown (c : Ctl) (d : Plane) (k : Nat) : Plane :=
  let r := d.ring k
  if r.state ≠ .enabled ∧ r.state ≠ .error then d
  else
    let d := checkLow c (d.setRing k { r with state := .stopping, descs := [], stall := false }) k
    let d := r.descs.foldl (fun d x => endDesc c d k x stAborted) d
    (r.fetched.foldl (abortEntry c k) d).settleRing k

end Sys2Proof.Machine
end

