-- ==== Sys2Proof/Machine/QpCmds.lean ====
section
/-! DEFINITION. The queue-pair commands of XPT_QP_CMD and the residency of contexts (R293, R297 to R308). -/
namespace Sys2Proof.Machine

/-! ### Command status (R306, R307) -/

def Plane.qpCmd (d : Plane) (f : Nat) : CmdStat := SMap.find {} d.xpt.cmds f
def Plane.setQpCmd (d : Plane) (f : Nat) (x : CmdStat) : Plane := { d with xpt := { d.xpt with cmds := SMap.put {} d.xpt.cmds f x } }

def cmdCreate : Nat := 1
def cmdModify : Nat := 2
def cmdQuery : Nat := 3
def cmdConnect : Nat := 4
def cmdReset : Nat := 5
def cmdDestroy : Nat := 6
def cmdEvict : Nat := 7
def cmdFetch : Nat := 8

def resOk : Nat := 0
def resWrongState : Nat := 1
def resBadQp : Nat := 2
def resBadField : Nat := 3
def resPinLimit : Nat := 4
def resNoBacking : Nat := 5
def resBufferError : Nat := 6
def resNotEvictable : Nat := 7

/-- A command ends. -/
def qpCmdEnd (d : Plane) (f cmd result : Nat) (off : Nat := 255) : Plane :=
  d.setQpCmd f { last := cmd, result := result, fieldOff := off }

/-- The image buffer of a function: LOC and address (R304, R508). -/
def qpBufOf (d : Plane) (f : Nat) : Bool × Nat :=
  let a := if f = 0 then Reg.qpBuf else Reg.vf (f - 1) 0x30008
  (flag (d.reg a) 0, (d.reg (a + 4)).toNat * 2 ^ 32 + bits (d.reg a) 31 6 * 2 ^ 6)

/-- A virtual function's buffer in stacked memory lies in its partition's units (R510). -/
def bufAllowed (c : Ctl) (d : Plane) (f n : Nat) : Bool :=
  let b := qpBufOf d f
  f = 0 || !b.1 || c.ownsStacked (d.vf (f - 1)).part b.2 n

def readImage (c : Ctl) (d : Plane) (f : Nat) : Option (List Byte) × Plane :=
  let b := qpBufOf d f
  if bufAllowed c d f 256 then readLoc c d f b.1 b.2 256 else (none, d)

/-- Write an image to the buffer; `false` when the write fails. -/
def writeImage (c : Ctl) (d : Plane) (f : Nat) (bs : List Byte) : Bool × Plane :=
  let b := qpBufOf d f
  if !bufAllowed c d f 256 || (!b.1 && !c.dev.pcieUp) || (b.1 && decide (regionOf b.2 ≠ .stacked)) then (false, d)
  else (true, writeLoc c d f b.1 b.2 bs)

/-- The partition in which a function may name a queue pair: any partition's quota for the physical function, its own for
a virtual function. -/
def qpQuota (d : Plane) (f q : Nat) : Option Nat :=
  if 2 ^ 20 ≤ q then none
  else match partOfQp d q with
    | none => none
    | some p => if f = 0 then some p else if (d.vf (f - 1)).bound && (d.vf (f - 1)).part == p then some p else none

/-! ### The commands on a resident context -/

/-- CREATE (R306). -/
def qpCreate (c : Ctl) (d : Plane) (f n part : Nat) : Plane :=
  if (d.qp n).state ≠ .free then qpCmdEnd d f cmdCreate resWrongState
  else if !(regionOfQp d n).1 then qpCmdEnd d f cmdCreate resNoBacking
  else
    let r := readImage c d f
    match r.1 with
    | none => qpCmdEnd r.2 f cmdCreate resBufferError
    | some bs =>
      match qpFieldBad c r.2 part false bs with
      | some off => qpCmdEnd r.2 f cmdCreate resBadField off
      | none =>
        let q := qpFromImage bs
        if q.pin && decide (pinRoom ≤ pinned r.2 q.home) then qpCmdEnd r.2 f cmdCreate resPinLimit
        else
          -- A pinned context is resident at once where its slice has an entry, else once it has been fetched into one.
          let now := q.pin && decide (residents r.2 q.home < residentRoom r.2 q.home)
          let d := (r.2.setQp n { q with resident := now, usedAt := c.ns }).setFlow n {}
          let d := if now then d else writeContext c d n
          if q.pin && !now then (fetchQp d n).setQpCmd f { busy := true, last := cmdCreate, target := n, acted := true }
          else qpCmdEnd d f cmdCreate resOk

/-- MODIFY (R297, R298). In INIT it may move the context to another slice, where it is resident if an entry is free, or is fetched
into one when it is pinned. -/
def qpModify (c : Ctl) (d : Plane) (f n part : Nat) : Plane :=
  let q := d.qp n
  let r := readImage c d f
  match r.1 with
  | none => qpCmdEnd r.2 f cmdModify resBufferError
  | some bs =>
    let y := qpFromImage bs
    let d := r.2
    let connected := q.version != 0
    if q.state ≠ .init ∧ qpSoft connected y ≠ qpSoft connected q then qpCmdEnd d f cmdModify resWrongState
    else match qpFieldBad c d part connected bs with
      | some off => qpCmdEnd d f cmdModify resBadField off
      | none =>
        let moves := q.state == .init && y.home != q.home
        if y.pin && (!q.pin || moves) && decide (pinRoom ≤ pinned d y.home) then qpCmdEnd d f cmdModify resPinLimit
        else if q.state = .init then
          let stays := !moves || decide (residents d y.home < residentRoom d y.home)
          let d := d.setQp n { y with resident := stays, usedAt := c.ns }
          let d := if stays then d else writeContext c d n
          if y.pin && !stays then (fetchQp d n).setQpCmd f { busy := true, last := cmdModify, target := n, acted := true }
          else freeRoom (qpCmdEnd d f cmdModify resOk) q.home
        else
          -- R350: another TC or ENTROPY is another path, whose base is measured anew.
          let path := y.tc != q.tc || y.entropy != q.entropy
          freeRoom (qpCmdEnd (d.setQp n { q with
            tc := y.tc, entropy := y.entropy, pin := y.pin
            baseCur := if path then none else q.baseCur, basePrev := if path then none else q.basePrev
            epochAt := if path then c.ns else q.epochAt }) f cmdModify resOk) q.home

/-- QUERY (R306). -/
def qpQuery (c : Ctl) (d : Plane) (f n : Nat) : Plane :=
  let r := writeImage c d f (qpImage (d.qp n))
  qpCmdEnd r.2 f cmdQuery (if r.1 then resOk else resBufferError)

/-- CONNECT and RESET (R293). -/
def qpConnect (c : Ctl) (d : Plane) (f n : Nat) : Plane :=
  if (d.qp n).state = .init then qpCmdEnd (connectQp c d n) f cmdConnect resOk else qpCmdEnd d f cmdConnect resWrongState

def qpResetCmd (c : Ctl) (d : Plane) (f n : Nat) : Plane :=
  if (d.qp n).state = .error then qpCmdEnd (((drainOver c d n).onQp n resetQp).setFlow n {}) f cmdReset resOk
  else qpCmdEnd d f cmdReset resWrongState

/-- Functions whose running command waits for a context. -/
def cmdsOn (d : Plane) (n : Nat) : List Nat := (d.xpt.cmds.filter fun x => x.2.busy && x.2.target == n).map (·.1)

/-- A context goes to FREE once its drain has ended (R293, R308): a READY one tells its peer, parked packets are answered NO_QP by the
context's addresses, and the command completes. -/
def destroyEnd (c : Ctl) (d : Plane) (n : Nat) : Plane :=
  if !d.xpt.destroying.contains n then d
  else
    let slice := (d.qp n).home
    let gone := (d.parked slice).filter (·.1 == n)
    let d := d.setParked slice ((d.parked slice).filter (·.1 != n))
    let d := { d with xpt := { d.xpt with destroying := d.xpt.destroying.erase n } }
    let d := failQp c d n stAborted none stAborted 0 true
    let d := gone.foldl (fun d x => sendNoQp c d { parsePkt x.2.raw with payload := x.2.payload } 0 x.2.since x.2.back) d
    let d := (d.setQp n {}).setFlow n {}
    let d := { d with xpt := { d.xpt with
      fetching := d.xpt.fetching.erase n, writeback := d.xpt.writeback.erase n, cancelled := d.xpt.cancelled.erase n } }
    freeRoom (((cmdsOn d n).filter fun f => (d.qpCmd f).last == cmdDestroy).foldl (fun d f => qpCmdEnd d f cmdDestroy resOk) d) slice

/-- A context goes to FREE at once, with all it has outstanding (R503). -/
def destroyNow (c : Ctl) (d : Plane) (n : Nat) : Plane :=
  destroyEnd c { d with xpt := { d.xpt with destroying := n :: d.xpt.destroying.erase n } } n

/-- DESTROY (R293, R306): the context's entries drain as R238 drains them, and it completes when none is left. -/
def destroyQp (c : Ctl) (d : Plane) (f n : Nat) : Plane :=
  let d := drainQp c (d.setQpCmd f { busy := true, last := cmdDestroy, target := n }) n
  let d := { d with xpt := { d.xpt with destroying := d.xpt.destroying ++ [n] } }
  if (d.qp n).msgs.isEmpty then destroyEnd c d n else kick c d n

/-- A command on a context that is resident, or on a FREE number. -/
def qpCommandNow (c : Ctl) (d : Plane) (f cmd n part : Nat) : Plane :=
  if cmd = cmdCreate then qpCreate c d f n part
  else if (d.qp n).state = .free then
    (if cmd = cmdQuery then qpQuery c d f n else qpCmdEnd d f cmd resWrongState)
  else
    let d := touchQp c d n
    if cmd = cmdModify then qpModify c d f n part
    else if cmd = cmdQuery then qpQuery c d f n
    else if cmd = cmdConnect then qpConnect c d f n
    else if cmd = cmdReset then qpResetCmd c d f n
    else if cmd = cmdDestroy then destroyQp c d f n
    else qpCmdEnd d f cmd resOk

/-- EVICT (R299, R306): the write-back starts when the context qualifies. -/
def qpEvictCmd (d : Plane) (f n : Nat) : Plane :=
  if evictable d n (d.qp n) && !d.xpt.cancelled.contains n then
    ({ d with xpt := { d.xpt with writeback := d.xpt.writeback ++ [n] } }).setQpCmd f { busy := true, last := cmdEvict, target := n }
  else qpCmdEnd d f cmdEvict resNotEvictable

/-- A command written to XPT_QP_CMD by a function (R306). One that needs a context that is not resident waits for its
fetch (R301). -/
def qpCommand (c : Ctl) (d : Plane) (f cmd n : Nat) : Plane :=
  if (d.qpCmd f).busy then d
  else match qpQuota d f n with
    | none => qpCmdEnd d f cmd resBadQp
    | some p =>
      let q := d.qp n
      if cmd = cmdEvict then (if q.state = .free then qpCmdEnd d f cmd resWrongState else qpEvictCmd d f n)
      else if cmd = cmdCreate ∨ q.state = .free ∨ q.resident then qpCommandNow c d f cmd n p
      else (fetchQp d n).setQpCmd f { busy := true, last := cmd, target := n }

/-! ### Fetches and write-backs (R300 to R303) -/

/-- A command that waited for its context runs; one that only waited for an entry ends. -/
def waitedCmd (c : Ctl) (d : Plane) (n f : Nat) : Plane :=
  let x := d.qpCmd f
  if x.acted then qpCmdEnd d f x.last resOk
  else match qpQuota d f n with
    | none => qpCmdEnd d f x.last resBadQp
    | some p => qpCommandNow c d f x.last n p

/-- A context fetch ends (R301 to R303): the context is resident, a fence that came while it was evicted acts, the parked packets are
handled in arrival order, and then commands, timers and waiting entries go on; or it fails. -/
def contextFetched (c : Ctl) (d : Plane) (n : Nat) (ok : Bool) : Plane :=
  if !d.xpt.fetching.contains n || !fetchRuns d n then d
  else
    let q := d.qp n
    let r := readLoc c d 0 (regionOfQp d n).2.1 (contextAddr d n) 1024
    let good := ok && r.1.isSome
    let d := { r.2 with xpt := { r.2.xpt with fetching := r.2.xpt.fetching.erase n } }
    let d := d.onQp n fun q => { q with resident := true, usedAt := c.ns, fenceDue := none }
    let d :=
      if good then
        let d := match q.fenceDue with
          | some e => fenceQp c d n (match fenceOf c d q.peerNode with | some r => r.epoch | none => e)
          | none => d
        unpark c n missRoom d
      else
        let d := d.setParked q.home ((d.parked q.home).filter (·.1 != n))
        (failQp c (d.rxStick .fetchFail) n stAborted none stAborted 0 false).raise (0x1C0 + q.home) 0x0E
    let d := (cmdsOn d n).foldl (fun d f => waitedCmd c d n f) d
    if good then kick c (startWaiting c (connRetry c (reorderFires c (ackDelayFires c d n) n) n) n) n else d

/-- A write-back ends (R300): the entry frees, or, when a use has cancelled the eviction, another context is evicted. -/
def contextWritten (c : Ctl) (d : Plane) (n : Nat) : Plane :=
  let evicting := (cmdsOn d n).filter fun f => (d.qpCmd f).last == cmdEvict
  if d.xpt.writeback.contains n then
    let d := writeContext c d n
    let d := { d with xpt := { d.xpt with writeback := d.xpt.writeback.erase n } }
    evicting.foldl (fun d f => qpCmdEnd d f cmdEvict resOk) (d.onQp n fun q => { q with resident := false })
  else if d.xpt.cancelled.contains n then
    let d := writeContext c d n
    let d := { d with xpt := { d.xpt with cancelled := d.xpt.cancelled.erase n } }
    freeRoom (evicting.foldl (fun d f => qpCmdEnd d f cmdEvict resNotEvictable) d) (d.qp n).home
  else d

/-- A write to a half of XPT_QPC_REGION_r is discarded while a queue pair of the region is not FREE (R305). -/
def regionWrite (d : Plane) (r : Nat) (hi : Bool) (v : Word) : Plane :=
  if d.qps.any fun x => x.1 / 65536 == r && x.2.state != .free then d
  else d.writeReg (Reg.region r + if hi then 4 else 0) v

/-- XPT_QP_CMD_STATUS (R307). DESIGN CHOICE (log 149): the Reset columns disagree, 0 for the register in R304 and 0xFF for
FIELD_OFFSET in R307; the model takes the field's. -/
def qpStatusWord (x : CmdStat) : Word :=
  field (b2n x.busy) 1 0 ||| field x.last 4 4 ||| field x.result 8 8 ||| field x.fieldOff 8 16

end Sys2Proof.Machine
end

