-- ==== Sys2Proof/Machine/Parts.lean ====
section
/-! DEFINITION. Partitions and virtual functions (R498 to R512): the PAR commands, partition resets, and the rings that a
reset abandons (R89, R237). -/
namespace Sys2Proof.Machine

/-! ### Ranges (R498, R511) -/

/-- The four range kinds: register offset, fields, table size in units. -/
structure RangeKind where
  off : Nat
  baseHi : Nat
  countLo : Nat
  countHi : Nat
  size : Nat
  deriving DecidableEq, Repr

def rkRings : RangeKind := ⟨0x0, 6, 8, 15, 128⟩
def rkQps : RangeKind := ⟨0x4, 9, 10, 20, 1024⟩
def rkWins : RangeKind := ⟨0x8, 9, 10, 20, 1024⟩
def rkKeys : RangeKind := ⟨0xC, 7, 8, 16, 256⟩

/-- The range that a register of partition `p` holds. -/
def rangeReg (d : Plane) (p : Nat) (k : RangeKind) : Range :=
  let w := d.reg (Reg.par p k.off)
  { base := bits w k.baseHi 0, count := bits w k.countHi k.countLo }

/-- The ranges and weight of a partition as its registers hold them. -/
def regRanges (d : Plane) (p : Nat) : Part :=
  { rings := rangeReg d p rkRings, qps := rangeReg d p rkQps, wins := rangeReg d p rkWins, keys := rangeReg d p rkKeys
    weight := bits (d.reg (Reg.par p 0x10)) 7 0 }

/-- A range lies within its table, and a non-zero count starts on a base in range (R501). -/
def Range.fits (r : Range) (size : Nat) : Bool := decide (r.base + r.count ≤ size) && (r.count == 0 || decide (r.base < size))

def Range.overlaps (a b : Range) : Bool :=
  decide (0 < a.count) && decide (0 < b.count) && decide (a.base < b.base + b.count) && decide (b.base < a.base + a.count)

/-- RANGE of R501 and R502. -/
def rangesFit (x : Part) : Bool :=
  x.rings.fits rkRings.size && x.qps.fits rkQps.size && x.wins.fits rkWins.size && x.keys.fits rkKeys.size

/-- A partition whose ranges are in effect (R499). -/
def PartState.holds (s : PartState) : Bool := s == .active || s == .resetting

/-- OVERLAP of R501 and R502: with another partition whose ranges are in effect. -/
def rangesClash (d : Plane) (p : Nat) (x : Part) : Bool :=
  d.parts.any fun y => y.1 != p && y.2.state.holds &&
    (x.rings.overlaps y.2.rings || x.qps.overlaps y.2.qps || x.wins.overlaps y.2.wins || x.keys.overlaps y.2.keys)

/-- A RESIZE keeps each base and raises counts only (R502). -/
def Range.grows (a b : Range) : Bool := a.base == b.base && decide (a.count ≤ b.count)

/-! ### Functions (R504 to R507) -/

/-- The virtual functions bound to a partition, lowest first. -/
def boundTo (d : Plane) (p : Nat) : List Nat := (d.vfs.filter fun x => x.2.bound && x.2.part == p).map (·.1)

/-- The primary function of a partition: 0 the physical function, 1 + v a virtual function (R505). -/
def primaryOf (d : Plane) (p : Nat) : Nat := match boundTo d p with | v :: _ => 1 + v | [] => 0

/-- Whether ring `k` lies in the ring range of a partition that is being reset: BAR writes and doorbells for it are dropped
(R503). -/
def ringHeldUp (c : Ctl) (d : Plane) (k : Nat) : Bool :=
  (d.parts.any fun x => x.2.state == .resetting && d.ringInPart x.1 k)
    || c.dev.funcReset.any fun f => match f with | .pf => true | .vf v => d.holder k == 1 + v.val

/-! ### Abandoning rings (R89, R237, R503) -/

/-- Drop the collectives of some rings without completions. -/
def dropColls (d : Plane) (f : Nat → Bool) : Plane :=
  (d.col.colls.filter fun x => f x.ring).foldl (fun d x => (if x.state = .waiting then d else clearSlot d x).dropColl x) d

/-- Drop everything that a vein holds. -/
def emptyVein (d : Plane) (v stages : Nat) : Plane :=
  ((List.range stages).foldl (fun d i => dropStage d v i) d).onVein v fun x => { x with taken := [], gather := [], remote := [] }

/-- Drop the VEIN_RUNs of some rings without completions; the next run of a vein goes on. -/
def dropRuns (c : Ctl) (d : Plane) (f : Nat → Bool) : Plane :=
  c.job.veins.foldl (fun d v =>
    match (d.vein v.vein).runs with
    | [] => d
    | r :: _ =>
      let d := if f r.ring then emptyVein d v.vein v.stages.length else d
      let d := d.onVein v.vein fun x => { x with runs := x.runs.filter fun y => !f y.ring }
      if f r.ring then feedRun c v 64 d else d) d

/-- Rings of a set are DISABLED and what they held is gone, with no completion. -/
def abandonRings (c : Ctl) (d : Plane) (f : Nat → Bool) : Plane :=
  let d := { d with rings := d.rings.filter fun x => !f x.1, cqs := d.cqs.filter fun x => !f x.1 }
  dropRuns c (dropColls d f) f

/-! ### Partition reset (R503) -/

/-- Units of a partition's receive streams are dropped with the rest. -/
def dropStreams (c : Ctl) (d : Plane) (p : Nat) : Plane :=
  c.job.veins.foldl (fun d v => if v.part = p ∧ v.binding = 0 then emptyVein d v.vein v.stages.length else d) d

/-- The sampler stops and the counter block takes its reset values (R559). -/
def resetCounters (d : Plane) (p : Nat) : Plane :=
  let lo := Reg.pc p 0
  { d with
    regs := d.regs.filter fun x => !(decide (lo ≤ x.1) && decide (x.1 < lo + 0x100))
    obs := { d.obs with
      partSeq := SMap.put 0 d.obs.partSeq p 0, counts := SMap.put {} d.obs.counts p {}, smpAt := SMap.put 0 d.obs.smpAt (1 + p) 0
      edges := d.obs.edges.filter fun x => x.1 / 512 != 1 + p } }

/-- A partition reset does its steps; the partition stays RESETTING until the reset is complete. -/
def resetPart (c : Ctl) (d : Plane) (p : Nat) : Plane :=
  let x := d.part p
  let d := d.setPart p { x with state := .resetting }
  let d := abandonRings c d fun k => d.ringInPart p k
  let mine := (d.qps.filter fun q => d.qpInPart p q.1 && q.2.state != .free).map (·.1)
  let d := mine.foldl (fun d n => destroyNow c d n) d
  let d := dropStreams c d p
  let d := (d.wins.filter fun w => decide (x.wins.base * 1024 ≤ w.1) && decide (w.1 < (x.wins.base + x.wins.count) * 1024)).foldl
    (fun d w => closeWindow d w.1) d
  let d := (slotsOf p).foldl (fun d k => d.setSlot k {}) d
  let d := { d.dropPart p with slotless := d.slotless.filter fun y => y.access.part.val != p }
  let d := d.setEvent p { d.event p with held := [] }
  let d := resetCounters d p
  { d with keys := d.keys.filter fun k => !(decide (x.keys.base * 256 ≤ k.1) && decide (k.1 < (x.keys.base + x.keys.count) * 256)) }

/-! ### Commands (R500 to R502, R506, R512) -/

def parEnableCmd : Nat := 1
def parResizeCmd : Nat := 2
def parResetCmd : Nat := 3
def parDisableCmd : Nat := 4
def parBindCmd : Nat := 5
def parUnbindCmd : Nat := 6

def parOk : Nat := 0
def parWrongState : Nat := 1
def parRange : Nat := 2
def parOverlap : Nat := 3
def parInUse : Nat := 4
def parRingConflict : Nat := 5

/-- A PAR command ends. -/
def parEnd (d : Plane) (cmd result : Nat) : Plane := { d with par := { last := cmd, result := result } }

/-- ENABLE (R501). -/
def parEnable (d : Plane) (p : Nat) : Plane :=
  let x := regRanges d p
  if (d.part p).state ≠ .idle then parEnd d parEnableCmd parWrongState
  else if !rangesFit x || x.weight == 0 then parEnd d parEnableCmd parRange
  else if rangesClash d p x then parEnd d parEnableCmd parOverlap
  else
    let d := { d with obs := { d.obs with counts := SMap.put {} d.obs.counts p {} } }
    parEnd ((d.setPart p { x with state := .active }).setReg (Reg.partWeight p) (field x.weight 8 0)) parEnableCmd parOk

/-- RESIZE (R502). -/
def parResize (d : Plane) (p : Nat) : Plane :=
  let x := regRanges d p
  let y := d.part p
  if y.state ≠ .active then parEnd d parResizeCmd parWrongState
  else if !(y.rings.grows x.rings && y.qps.grows x.qps && y.wins.grows x.wins && y.keys.grows x.keys) then
    parEnd d parResizeCmd parInUse
  else if !rangesFit x then parEnd d parResizeCmd parRange
  else if rangesClash d p x then parEnd d parResizeCmd parOverlap
  else parEnd (d.setPart p { y with rings := x.rings, qps := x.qps, wins := x.wins, keys := x.keys }) parResizeCmd parOk

/-- RESET and DISABLE (R500, R503): BUSY until the partition reset ends. -/
def parReset (c : Ctl) (d : Plane) (p : Nat) (disable : Bool) : Plane :=
  let cmd := if disable then parDisableCmd else parResetCmd
  if (d.part p).state ≠ .active then parEnd d cmd parWrongState
  else if disable && !(boundTo d p).isEmpty then parEnd d cmd parInUse
  else
    let d := resetPart c d p
    { d.setPart p { d.part p with disabling := disable } with par := { busy := true, last := cmd, target := p } }

/-- BIND (R506). -/
def parBind (d : Plane) (p v : Nat) : Plane :=
  let first := bits (d.reg (Reg.vfCfg v)) 28 16
  let count := bits (d.reg (Reg.vfRings v)) 10 0
  let clash := d.vfs.any fun y => y.2.bound && y.2.part == p && ({ base := first, count := count : Range }).overlaps ⟨y.2.first, y.2.count⟩
  if (d.part p).state ≠ .active ∨ (d.vf v).bound then parEnd d parBindCmd parWrongState
  else if !((List.range count).all fun j => d.ringInPart p (first + j)) || clash then parEnd d parBindCmd parRingConflict
  else parEnd (d.setVf v { bound := true, part := p, first := first, count := count }) parBindCmd parOk

/-- UNBIND (R506). -/
def parUnbind (d : Plane) (p v : Nat) : Plane :=
  let x := d.vf v
  let live := (List.range x.count).any fun j =>
    (d.ring (x.first + j)).state != .disabled || (d.cq (x.first + j)).enabled
  if (d.part p).state ≠ .active ∨ !x.bound ∨ x.part ≠ p then parEnd d parUnbindCmd parWrongState
  else if live then parEnd d parUnbindCmd parInUse
  else parEnd (d.setVf v {}) parUnbindCmd parOk

/-- A PAR command, discarded while another one runs (R512). -/
def parCommand (c : Ctl) (d : Plane) (cmd p v : Nat) : Plane :=
  if d.par.busy then d
  else if cmd = parEnableCmd then parEnable d p
  else if cmd = parResizeCmd then parResize d p
  else if cmd = parResetCmd then parReset c d p false
  else if cmd = parDisableCmd then parReset c d p true
  else if cmd = parBindCmd then parBind d p v
  else if cmd = parUnbindCmd then parUnbind d p v
  else d

/-- A partition reset is complete (R500, R503). -/
def partResetDone (d : Plane) (p : Nat) : Plane :=
  let x := d.part p
  if x.state ≠ .resetting then d
  else
    let d := d.setPart p (if x.disabling then { state := .idle } else { x with state := .active })
    if d.par.busy ∧ d.par.target = p then parEnd d d.par.last parOk else d

/-- What an applied image does to the partitions (R500): IDLE with a record, ABSENT without one. -/
def partsOfImage (recs : List PartRec) (d : Plane) : Plane :=
  (List.range 32).foldl (fun d p =>
    let has := recs.any (·.part == p)
    let x := d.part p
    if !has then d.setPart p {} else if x.state = .absent then d.setPart p { state := .idle } else d) d

/-! ### Status (R511, R512) -/

def PartState.num : PartState → Nat
  | .absent => 0 | .idle => 1 | .active => 2 | .resetting => 3

/-- PAR_STATE of 16 partitions from `first`. -/
def parStateWord (d : Plane) (first : Nat) : Word :=
  (List.range 16).foldl (fun w i => w ||| field (d.part (first + i)).state.num 2 (2 * i)) 0

def parStatusCmd (d : Plane) : Word := field (b2n d.par.busy) 1 0 ||| field d.par.last 4 4 ||| field d.par.result 8 8

/-- PAR_p_STATUS. -/
def parStatusWord (d : Plane) (p : Nat) : Word :=
  let x := d.part p
  let r := regRanges d p
  let fs := boundTo d p
  let pending := decide (¬ (r.rings = x.rings ∧ r.qps = x.qps ∧ r.wins = x.wins ∧ r.keys = x.keys ∧ r.weight = x.weight))
  field fs.length 11 0 ||| field (match fs with | v :: _ => v | [] => 0) 10 11
    ||| bitIf (fs.isEmpty && x.state != .absent) 21 ||| bitIf pending 22

/-- PAR_VF_v_STATUS. -/
def vfStatusWord (d : Plane) (v : Nat) : Word :=
  let x := d.vf v
  bitIf x.bound 0 ||| bitIf (x.bound && primaryOf d x.part == 1 + v) 1

/-! ### Function resets (R89, R90, R508) -/

/-- The words of a virtual function's own registers that a reset clears. -/
def clearVfRegs (d : Plane) (v : Nat) : Plane :=
  let lo := Reg.vf v 0
  let d := { d with regs := d.regs.filter fun x => !(decide (lo ≤ x.1) && decide (x.1 < lo + 0x100000)) }
  (d.setQpCmd (1 + v) {}).setCipCmd (1 + v) {}

/-- A ring context at its reset value. -/
def clearRingRegs (d : Plane) (k : Nat) : Plane :=
  [0, 4, 8, 12].foldl (fun d o => (d.setReg (Reg.wrg k o) 0).setReg (Reg.cmp k o) 0) d

/-- Function reset of the physical function: every ring is abandoned, and the MSI-X tables are reset (R89). -/
def resetPf (c : Ctl) (d : Plane) : Plane :=
  let d := abandonRings c d fun _ => true
  { d with regs := d.regs.filter fun x => !(decide (Reg.vf 0 0 ≤ x.1) && decide (0x80000 ≤ (x.1 - Reg.vf 0 0) % 0x100000)) }

/-- Function reset of one virtual function (R89). -/
def resetVf (c : Ctl) (d : Plane) (v : Nat) : Plane :=
  let x := d.vf v
  let held (k : Nat) : Bool := x.bound && decide (x.first ≤ k) && decide (k < x.first + x.count)
  let d := abandonRings c d held
  let d := if x.bound then (List.range x.count).foldl (fun d j => clearRingRegs d (x.first + j)) d else d
  clearVfRegs d v

/-- The queue pairs that a function reset takes to ERROR: all of them for the physical function; for a virtual function
those of the partition it is primary of, and those that still hold work of its rings. -/
def funcQps (d : Plane) (f : Func) : List Nat :=
  let live (q : Qp) : Bool := q.state == .init || q.state == .connecting || q.state == .ready
  match f with
  | .pf => (d.qps.filter fun x => live x.2).map (·.1)
  | .vf v =>
    let w := d.vf v.val
    (d.qps.filter fun x => live x.2 && w.bound && x.2.part == w.part &&
      (primaryOf d w.part == 1 + v.val
        || x.2.msgs.any fun m => decide (w.first ≤ m.ring) && decide (m.ring < w.first + w.count))).map (·.1)

/-- The transfers of a function reset have drained: its queue pairs pass to ERROR (R90). -/
def funcDrained (c : Ctl) (d : Plane) (f : Func) : Plane :=
  (funcQps d f).foldl (fun d n => failQp c d n stAborted none stAborted 0 false) d

/-- A partition reset runs on a partition of a function: the function reset completes after it (R503). -/
def funcBlocked (d : Plane) (f : Func) : Bool :=
  match f with
  | .pf => d.parts.any (·.2.state == .resetting)
  | .vf v => (d.vf v.val).bound && (d.part (d.vf v.val).part).state == .resetting

end Sys2Proof.Machine
end

