-- ==== Sys2Proof/Machine/Time.lean ====
section
/-! DEFINITION. Lodestone time (R367 to R386): the counter, the servo, the election of a parent, the time states, and the
IEEE 1588 slave of a lodestone. -/
namespace Sys2Proof.Machine

/-! ### The counter (R367, R369) -/

def pptOne : Int := 1000000000000

/-- The LOD cycles of one MGT cycle of 4 ns: two at the nominal frequency, with the steered part carried over. -/
def lodCycle (l : Lod) : Lod :=
  let p := l.part + 2 * l.freq
  let extra : Int := if pptOne ≤ p then 1 else if p ≤ -pptOne then -1 else 0
  { l with tick := l.tick + BitVec.ofInt 64 (8 * (2 + extra)), part := p - extra * pptOne }

/-- One MGT cycle passes (log 2): local time, and the counters whose clocks run. -/
def tickCycle (s : State) : State :=
  let up := s.ctl.dev.rails && !s.ctl.dev.inReset
  let l := if up && s.ctl.dev.locks.lod then lodCycle s.ctl.lod else s.ctl.lod
  { s with
    ctl := { s.ctl with ns := s.ctl.ns + 4, lod := l }
    pl := if up && s.ctl.dev.locks.xpt then { s.pl with obs := { s.pl.obs with cycle := s.pl.obs.cycle + 6 } } else s.pl }

/-! ### The servo (R374, R385) -/

/-- Offsets and delays are in half ticks, so that R374's halves stay exact. -/
def halfTicks (t : Nat) : Int := 2 * t

/-- A difference of two stamps, signed. -/
def stampDiff (a b : DWord) : Int := (a - b).toInt

/-- Half a tick's number as whole ticks, toward zero. -/
def wholeTicks (h : Int) : Int := Int.tdiv h 2

/-- The unit of a filtered delay after `n` samples: 2^-(4n - 3) tick, so that it starts in half ticks and each sample's
sixteenth is exact. -/
def filterStep (n : Nat) (fdelay delay : Int) : Int :=
  if n = 0 then delay else 15 * fdelay + delay * 16 ^ (n - 1)

/-- |delay - fdelay| > 16 ticks. -/
def filterFar (n : Nat) (fdelay delay : Int) : Bool := decide (halfTicks 16 * 16 ^ (n - 1) < (delay * 16 ^ (n - 1) - fdelay).natAbs)

def clampInt (lo hi v : Int) : Int := if v < lo then lo else if hi < v then hi else v

/-- What a servo run asks for beside the new servo state. -/
structure ServoOut where
  lod : Lod
  stepped : Bool := false
  rejected : Bool := false
  deriving DecidableEq, Repr

/-- One run of R374's steps after the delay filter: a step of the counter, or the loop. Rates are in ppt; `interval` is the
time between runs in ticks and `limit` the clamp. -/
def servo (l : Lod) (offset : Int) (interval : Nat) (limit : Int) : ServoOut :=
  let l := { l with offset := offset }
  if !l.served && decide (halfTicks 4000 < offset.natAbs) then
    let t : Int := l.tick.toNat + wholeTicks offset
    { lod := { l with tick := BitVec.ofNat 64 t.toNat, good := 0 }, stepped := true }
  else
    let rate := Int.tdiv (offset * pptOne) (2 * max 1 interval : Nat)
    let integ := l.integ + Int.tdiv rate 64
    { lod := { l with
        integ := integ, recent := (l.recent ++ [integ]).drop (l.recent.length + 1 - 64)
        freq := clampInt (-limit) limit (integ + Int.tdiv rate 4) } }

/-- freq in holdover: the mean of integ over the last 64 complete exchanges (R374), within the ±250 ppm of the LOD PLL (R369). -/
def holdFreq (l : Lod) : Int :=
  if l.recent.isEmpty then l.freq else clampInt (-250000000) 250000000 (Int.tdiv l.recent.sum l.recent.length)

/-! ### Advertisements and the parent (R376, R377) -/

/-- An advertisement that is usable now. -/
def usableAd (c : Ctl) (d : Plane) (n : Nat) : Option Advert :=
  let p := d.port n
  match p.advert with
  | none => none
  | some a =>
    if p.group && p.peerOk && decide (c.ns ≤ a.since + 500000) && decide (2 ≤ a.state) && decide (a.state ≤ 4)
        && decide (a.distance < c.group.maxHops) && (fenceOf c d a.node).isNone && (fenceOf c d a.sender).isNone
    then some a else none

/-- Order of keys: priority, then serial. -/
def keyBefore (a b : Nat × Nat) : Bool := decide (a.1 < b.1) || (a.1 == b.1 && decide (a.2 < b.2))

def Advert.key (a : Advert) : Nat × Nat := (a.priority, a.serial.toNat)

def Ctl.ownKey (c : Ctl) : Nat × Nat := (c.group.priority, c.flash.serial.toNat)

/-- The usable advertisement with the lowest (key, DISTANCE, port) on a port other than `skip`. -/
def bestAd (c : Ctl) (d : Plane) (skip : Option Nat := none) : Option (Nat × Advert) :=
  ((List.range 48).filter fun n => some n != skip).foldl (fun best n =>
    match usableAd c d n with
    | none => best
    | some a => match best with
      | none => some (n, a)
      | some (_, b) =>
        if keyBefore a.key b.key || (a.key == b.key && decide (a.distance < b.distance)) then some (n, a) else best) none

/-- The best advertisement that may give a parent: better than the device's own key when the device is a candidate. -/
def parentAd (c : Ctl) (d : Plane) (skip : Option Nat := none) : Option (Nat × Advert) :=
  match bestAd c d skip with
  | none => none
  | some x => if c.candidate && !keyBefore x.2.key c.ownKey then none else some x

/-! ### Time states (R379) -/

/-- The local time from which something counts; 0 means that it does not. -/
def countFrom (c : Ctl) : Nat := max 1 c.ns

/-- LOD_LODE takes a value; LODE_CHANGE when it differs from the one before. -/
def setLode (s : State) (node priority : Nat) (serial : DWord) : State :=
  let l := s.ctl.lod
  let s := onLod (fun l => { l with lodeNode := node, lodePriority := priority, lodeSerial := serial }) s
  if l.lodeNode = node ∧ l.lodePriority = priority ∧ l.lodeSerial = serial then s
  else { s with pl := s.pl.lodStick .lodeChange }

/-- Entry to a time state; UNCERTAIN clears in LOCKED and LODESTONE. -/
def enterTime (s : State) (t : TimeState) : State :=
  onLod (fun l => { l with
    state := t, uncertain := l.uncertain && !(t == .locked || t == .lodestone), good := 0 }) s

/-- The parent is port `n` with advertisement `a`; a new parent port restarts the samples (R374). -/
def setParent (s : State) (n : Nat) (a : Advert) (changed : Bool) : State :=
  let new := s.ctl.lod.parent != some n
  let s := onLod (fun l =>
    let l := { l with parent := some n, distance := min 15 (a.distance + 1) }
    if new then { l with samples := 0, good := 0, lastAt := s.ctl.ns } else l) s
  let s := if new && changed then { s with pl := s.pl.lodStick .parentChange } else s
  setLode s a.node a.priority a.serial

/-- HOLDOVER: no parent, freq held (R374, R379). -/
def toHoldover (s : State) (note : Bool) : State :=
  let s := onLod (fun l => { l with parent := none, distance := 15, freq := holdFreq l, holdAt := s.ctl.ns }) s
  let s := enterTime s .holdover
  if note then { s with pl := s.pl.lodStick .holdoverEntered } else s

/-- Since when there has been no usable advertisement in ACQUIRING (R376), and no better one for a candidate (R379). -/
def quietTimes (s : State) : State :=
  let none_ := (bestAd s.ctl s.pl).isNone
  let s := onLod (fun l => { l with
    claimAt := if l.state == .acquiring && none_ then (if l.claimAt = 0 then countFrom s.ctl else l.claimAt) else 0
    candidate := l.candidate && l.state == .acquiring && none_ }) s
  let quiet := s.ctl.candidate && (parentAd s.ctl s.pl).isNone
  onLod (fun l => { l with quietAt := if quiet then (if l.quietAt = 0 then countFrom s.ctl else l.quietAt) else 0 }) s

/-- The parent port of a LOCKED device is lost: PEER_OK is gone, 500 µs have passed without a complete exchange (R379), or its
advertisement is no longer usable, as a parent's must be (R377, log 139). -/
def parentLost (c : Ctl) (d : Plane) : Bool :=
  match c.lod.parent with
  | none => true
  | some n => !(d.port n).peerOk || decide (c.lod.lastAt + 500000 ≤ c.ns) || (usableAd c d n).isNone

/-- What the advertisements held now do to the parent and the time state (R377, R379). A lost parent port is left for
another one, without PARENT_CHANGE (R379). -/
def elect (s : State) : State :=
  if s.ctl.lod.state = .free ∨ !s.ctl.maySpeak then s
  else
    let s := quietTimes s
    let c := s.ctl
    let lost := c.lod.state == .locked && parentLost c s.pl
    match parentAd c s.pl (if lost then c.lod.parent else none) with
    | none =>
      if lost then toHoldover s true
      else if c.lod.state = .acquiring then onLod (fun l => { l with parent := none, distance := 15 }) s
      else s
    | some (n, a) =>
      match c.lod.state with
      | .acquiring => setParent s n a false
      | .locked => setParent s n a (!lost)
      | .holdover | .lodestone =>
        enterTime (setParent s n a false) (if c.lod.served then .locked else .acquiring)
      | .free => s

/-- A candidate that has seen nothing better for 4 periods of 125 µs becomes LODESTONE (R379). -/
def claimLode (s : State) : State :=
  let s := elect s
  let c := s.ctl
  let st := c.lod.state
  if (st = .acquiring ∨ st = .locked ∨ st = .holdover) ∧ c.maySpeak ∧ c.lod.quietAt ≠ 0 ∧ c.lod.quietAt + 500000 ≤ c.ns then
    let s := onLod (fun l => { l with
      parent := none, distance := 0, samples := 0, quietAt := 0, ptpAt := c.ns, ptpSets := 0 }) s
    let s := enterTime (setLode s c.selfNode c.group.priority c.flash.serial) .lodestone
    { s with pl := s.pl.lodStick .lodeChange }
  else s

/-- An ACQUIRING device has held no usable advertisement for 1 ms: it is a candidate (R376). -/
def candidateDue (s : State) : State :=
  let s := elect s
  let l := s.ctl.lod
  if l.state = .acquiring ∧ l.claimAt ≠ 0 ∧ l.claimAt + 1000000 ≤ s.ctl.ns then
    elect (onLod (fun l => { l with candidate := true }) s)
  else s

/-- An advertisement of a port is 500 µs old (R377). -/
def expireAd (s : State) (n : Nat) : State :=
  match (s.pl.port n).advert with
  | none => s
  | some a =>
    if s.ctl.ns ≤ a.since + 500000 then s
    else elect { s with pl := s.pl.onPort n fun p => { p with advert := none } }

/-- HOLDOVER_LIMIT_MS have passed in HOLDOVER (R379). -/
def holdoverOver (s : State) : State :=
  let l := s.ctl.lod
  if l.state = .holdover ∧ !l.uncertain ∧ l.holdAt + bits (s.pl.reg Reg.lodCfg) 15 0 * 1000000 ≤ s.ctl.ns then
    let s := onLod (fun l => { l with uncertain := true }) s
    { s with pl := (s.pl.lodStick .holdoverLimit).raise 0x281 0x08 }
  else s

/-- QUARANTINE stops the exchanges; a device that had the time holds over (R379). -/
def timeQuarantine (s : State) : State :=
  match s.ctl.lod.state with
  | .locked | .lodestone => toHoldover s false
  | .free | .acquiring | .holdover => s

/-! ### Complete exchanges (R373, R374, R379) -/

/-- PRT_n_TIME_ASYM, two's complement. -/
def asymOf (d : Plane) (n : Nat) : Int := ((d.reg (Reg.timeAsym n)).setWidth 16 : BitVec 16).toInt

/-- After a step every exchange under way has mixed stamps: it is incomplete and dropped (R373). -/
def dropExchanges (d : Plane) : Plane := d.eachPort fun p => { p with exch := [] }

/-- What the offset of a parent's complete exchange does to the time state (R379), whatever the servo does with it. -/
def judgeOffset (s : State) : State :=
  let l := s.ctl.lod
  match l.state with
  | .acquiring =>
    let good := if l.offset.natAbs ≤ 16 then l.good + 1 else 0
    let s := onLod (fun l => { l with good := good }) s
    if 8 ≤ good then enterTime s .locked else s
  | .locked => if 160 < l.offset.natAbs then { s with pl := (s.pl.lodStick .offsetHigh).raise 0x281 0x08 } else s
  | _ => s

/-- A time exchange is complete on a port with its four stamps. -/
def completeExchange (s : State) (n : Nat) (t1 t2 t3 t4 : DWord) : State :=
  let c := s.ctl
  let delay := stampDiff t4 t1 - stampDiff t3 t2
  let p := s.pl.port n
  let mark (d : Plane) : Plane := d.onPort n fun p => { p with exchAt := c.ns, exchDone := true }
  let filter (d : Plane) (k : Nat) : Plane := d.onPort n fun p => { p with fdelay := filterStep k p.fdelay delay, fsamples := k + 1 }
  if c.lod.parent ≠ some n ∨ !(c.lod.state == .acquiring || c.lod.state == .locked) then
    { s with pl := filter (mark s.pl) p.fsamples }
  else
    let s := onLod (fun l => { l with lastAt := c.ns }) { s with pl := mark s.pl }
    let offset := stampDiff t2 t1 - stampDiff t4 t3 - 2 * asymOf s.pl n
    let s := onLod (fun l => { l with offset := offset }) s
    if 8 ≤ c.lod.samples ∧ filterFar p.fsamples p.fdelay delay then judgeOffset { s with pl := s.pl.lodStick .delayReject }
    else
      let s := { s with pl := filter s.pl (if c.lod.samples = 0 then 0 else p.fsamples) }
      let o := servo { s.ctl.lod with samples := c.lod.samples + 1 } offset 500000 250000000
      let s := onLod (fun _ => o.lod) s
      judgeOffset (if o.stepped then { s with pl := dropExchanges (s.pl.lodStick .stepped) } else s)

/-! ### IEEE 1588 (R383 to R386) -/

/-- A PTP timestamp in ticks, with LOD_PTP_OFFSET (R385). -/
def ptpTicks (regs : List Word) (m : Ptp) (correction : Int) : DWord :=
  BitVec.ofInt 64 (((m.seconds * 1000000000 + m.nanos : Nat) : Int) * 4 + correction * 4)
    + (ptpWord regs 5 ++ ptpWord regs 4)

/-- An accepted Sync: the registers as they stand apply from it (R397), and its arrival stamp is t2. -/
def takeSync (s : State) (m : Ptp) : State :=
  let t := stampNow s.ctl s.pl
  onLod (fun l => { l with ptpEff := ptpRegs s.pl, ptpSeq := some m.seqId, ptpT1 := none, ptpT2 := t.1
                           ptpInterval := m.intervalTicks }) { s with pl := t.2 }

/-- A Delay_Req (R384); its layout is IEEE 1588's. -/
def delayReqMsg (c : Ctl) (n domain : Nat) (seq : BitVec 16) : List Byte :=
  [0x01, 0x02, 0, 44] ++ beBytes 1 domain ++ List.replicate 15 0 ++ leBytes 8 (ptpClock c n).toNat ++ [0, 1] ++ beBytes 2 seq.toNat
    ++ [1, 0x7F] ++ List.replicate 10 0

/-- LOD_PTP_SRC_IP, octet i at bits [8i + 7 : 8i]. -/
def ptpSrcIp (d : Plane) : List Byte := ((List.range 4).map fun i => leBytes 4 (d.reg (Reg.ptpIp + 4 * i)).toNat).flatten

/-- The frame of a Delay_Req by TRANSPORT (R384). -/
def delayReqFrame (c : Ctl) (d : Plane) (n transport domain : Nat) (seq : BitVec 16) : Frame :=
  let msg := delayReqMsg c n domain seq
  let f : Frame := { da := 0x011B19000000, sa := c.mac n, tags := c.tagFor n 7, etype := 0x88F7, body := msg }
  if transport = 0 then padFrame f
  else if transport = 1 then
    padFrame { f with
      da := 0x01005E000181, etype := 0x0800
      body := ipHeaders false 0 319 319 (ptpSrcIp d) (List.replicate 12 0 ++ [224, 0, 1, 129]) msg ++ msg }
  else
    padFrame { f with
      da := 0x333300000181, etype := 0x86DD
      body := ipHeaders true 0 319 319 (ptpSrcIp d) ([0xFF, 0x0E] ++ List.replicate 12 0 ++ [0x01, 0x81]) msg ++ msg }

/-- An accepted Follow_Up: t1, and one Delay_Req goes out, where the device may send it (R109, R110, R384). -/
def takeFollowUp (s : State) (m : Ptp) : State :=
  let l := s.ctl.lod
  let s := onLod (fun l => { l with ptpT1 := some (ptpTicks l.ptpEff m m.correction), ptpReq := none, ptpT3 := none, ptpAt := s.ctl.ns }) s
  if !s.ctl.maySend then s
  else
    let ctrl := ptpWord l.ptpEff 0
    let seq := l.ptpReqNext
    let s := onLod (fun l => { l with ptpReq := some seq, ptpReqNext := seq + 1 }) s
    { s with pl := s.pl.queue7 m.port.val (delayReqFrame s.ctl s.pl m.port.val (bits ctrl 8 7) (bits ctrl 23 16) seq) }

/-- An accepted Delay_Resp gives t4 and completes the set: the servo runs with the Sync interval and the ±10 ppm clamp (R385).
The offset is the master's time minus the device's own, as R374 defines an offset. -/
def takeDelayResp (s : State) (m : Ptp) : State :=
  let l := s.ctl.lod
  match l.ptpT1, l.ptpT3 with
  | none, _ | _, none => s
  | some t1, some t3 =>
    let t2 := l.ptpT2
    let t4 := ptpTicks l.ptpEff m (-m.correction)
    let delay := stampDiff t4 t1 - stampDiff t3 t2
    let offset := stampDiff t4 t3 - stampDiff t2 t1
    let sets := if offset.natAbs ≤ 80 then l.ptpSets + 1 else 0
    let s := onLod (fun l => { l with
      ptpT1 := none, ptpOffset := offset, ptpSets := sets, ptpLocked := l.ptpLocked || decide (8 ≤ sets) }) s
    if 8 ≤ l.samples ∧ filterFar l.samples l.fdelay delay then { s with pl := s.pl.lodStick .delayReject }
    else
      let x := { s.ctl.lod with fdelay := filterStep l.samples l.fdelay delay, samples := l.samples + 1 }
      let o := servo x offset l.ptpInterval 10000000
      let s := onLod (fun _ => o.lod) s
      if o.stepped then { s with pl := dropExchanges (s.pl.lodStick .stepped) } else s

/-- A PTP message at the time block (R384): each accepted one has its use, and every other one is discarded. -/
def takePtp (s : State) (m : Ptp) : State :=
  match ptpKind s.ctl s.pl m with
  | .sync => takeSync s m
  | .followUp => takeFollowUp s m
  | .delayResp => takeDelayResp s m
  | .none =>
    let s := if m.kind = 0 then onLod (fun l => { l with ptpEff := ptpRegs s.pl }) s else s
    { s with pl := s.pl.lodStick .ptpDiscard }

/-- 3 s without an accepted Follow_Up (R386). -/
def loseMaster (s : State) : State :=
  let l := s.ctl.lod
  if l.state = .lodestone ∧ flag (s.pl.reg Reg.ptpCtrl) 0 ∧ l.ptpAt + 3000000000 ≤ s.ctl.ns then
    let s := onLod (fun l => { l with ptpLocked := false, ptpSets := 0, freq := holdFreq l, ptpAt := s.ctl.ns }) s
    { s with pl := s.pl.lodStick .ptpLost }
  else s

/-- The departure stamp of the Delay_Req of the set under way. -/
def departedDelayReq (s : State) (seq : BitVec 16) (t3 : DWord) : State :=
  onLod (fun l => if l.ptpReq = some seq then { l with ptpT3 := some t3 } else l) s

/-! ### Registers (R396 to R398) -/

/-- A number as two's complement of 32 bits, saturating. -/
def sat32 (v : Int) : Word := BitVec.ofInt 32 (clampInt (-2147483648) 2147483647 v)

/-- LOD_STATUS (R397). DESIGN CHOICE (log 149): the Reset columns disagree, 0 for the register in R396 and 0x3F and 0xF for PARENT and
DISTANCE in R397; the model takes the fields'. -/
def lodStatusWord (l : Lod) : Word :=
  field l.state.num 3 0 ||| field (match l.parent with | some n => n | none => 0x3F) 6 3 ||| field l.distance 4 9
    ||| bitIf l.uncertain 13 ||| bitIf l.served 14 ||| bitIf l.ptpLocked 15

/-- A filtered delay in whole ticks. -/
def filterTicks (n : Nat) (fdelay : Int) : Nat := (fdelay / (2 * 16 ^ (n - 1) : Nat)).toNat

/-- PRT_n_TIME_STATUS. -/
def timeStatusWord (c : Ctl) (d : Plane) (n : Nat) : Word :=
  let p := d.port n
  bitIf (p.exchDone && decide (c.ns ≤ p.exchAt + 500000)) 0 ||| bitIf (c.lod.parent == some n) 1
    ||| field (min 0xFFFF (filterTicks p.fsamples p.fdelay)) 16 2

end Sys2Proof.Machine
end

