-- ==== Sys2Proof/Machine/Reset.lean ====
section
/-! DEFINITION. Pins, power, resets and device states (R83 to R91, R105, R106, R119 to R142, R562, R566). -/
namespace Sys2Proof.Machine

/-! ### What a reset keeps (R89) -/

/-- Memory, the records of what has left the device, and the generations of windows survive a device reset; every block of
the data side takes its reset values, but for the registers of `kept` (log 4, log 9). -/
def resetPlane (kept : Nat → Bool) (d : Plane) : Plane :=
  let d := d.wins.foldl (fun d w => closeWindow d w.1) d
  { seq := d.seq, regs := d.regs.filter fun x => kept x.1, bus := d.bus, mem := d.mem, host := d.host, hostBad := d.hostBad, portPart := d.portPart, poison := d.poison
    wins := d.wins, wire := d.wire, msix := d.msix, obsOut := d.obsOut, effects := d.effects }

/-- PWR_EVENTS keeps its value over a device reset (R142). -/
def keptByReset (a : Nat) : Bool := a == Reg.pwrEvents

/-- The PWR and FLT blocks keep their values over a rail-off reset (R89). -/
def keptByRailOff (a : Nat) : Bool := (decide (0x30000 ≤ a) && decide (a < 0x40000)) || (decide (0x80000 ≤ a) && decide (a < 0xC0000))

/-- History, first error and pending bits survive (R521); every recovery ends. -/
def resetFlt (f : Flt) : Flt :=
  { hist := f.hist, seq := f.seq, first := f.first, pend := f.pend, poweredAt := f.poweredAt }

/-- The OWN block over a device reset (R99, R100, R104). -/
def resetOwn (o : Own) : Own :=
  { owner := o.owner, lapsed := o.lapsed, leaseEnd := o.leaseEnd, claimedAt := o.claimedAt, reject := o.reject, inbandNode := o.inbandNode
    inbandValid := o.inbandValid
    session := { lockedOut := o.session.lockedOut, fails := o.session.fails, retryWait := o.session.retryWait
                 retryAt := o.session.retryAt } }

/-- The OWN block over a rail-off reset keeps its values; a running command is abandoned (R104), and the session ends. -/
def railOffOwn (o : Own) : Own :=
  let o := { o with
    inbandStore := false
    session := { lockedOut := o.session.lockedOut, fails := o.session.fails, retryWait := o.session.retryWait
                 retryAt := o.session.retryAt } }
  if o.busy then { o with busy := false, lastCmd := 0, result := 0, data := [], dataLen := 0 } else o

/-! ### Live conditions (R137 to R142) -/

def throttleLimit : SensorKind → Nat
  | .tile => 95 | .stack => 90 | .laser => 70 | .coolant => 45
def tripLimit : SensorKind → Nat
  | .tile => 105 | .stack => 100 | .laser => 80 | .coolant => 55

def reading (r : Readings) : SensorKind → Nat
  | .tile => r.tile | .stack => r.stack | .laser => r.laser | .coolant => r.coolant

def setReading (r : Readings) (k : SensorKind) (v : Nat) : Readings :=
  match k with
  | .tile => { r with tile := v } | .stack => { r with stack := v } | .laser => { r with laser := v }
  | .coolant => { r with coolant := v }

def sensorKinds : List SensorKind := [.tile, .stack, .laser, .coolant]

/-- Some sensor is at or above its throttle limit. -/
def tooHot (r : Readings) : Bool := sensorKinds.any fun k => decide (throttleLimit k ≤ reading r k)
/-- Every sensor is 3 °C or more below its throttle limit. -/
def coolEnough (r : Readings) : Bool := sensorKinds.all fun k => decide (reading r k + 3 ≤ throttleLimit k)
/-- Some sensor is at or above its trip limit. -/
def atTrip (r : Readings) : Bool := sensorKinds.any fun k => decide (tripLimit k ≤ reading r k)

/-- The present tile issue duty: the lower of the two rules' (R140). -/
def Dev.dutyNow (x : Dev) : Nat := min x.duty x.dutyPower

/-- PWR_STATUS (R142). -/
def pwrStatusWord (x : Dev) : Word :=
  bitIf (decide (x.sensors.vin < 22500)) 0 ||| bitIf (decide (x.duty < 16)) 1 ||| bitIf (decide (x.dutyPower < 16)) 2
    ||| bitIf (decide (40 < x.sensors.coolant)) 3 ||| bitIf (!x.pins.refclk) 4 ||| bitIf (!x.pins.pcieRefclk) 5
    ||| bitIf (atTrip x.sensors) 6

/-- A change of the device's conditions: each condition that arises sets its bit of PWR_EVENTS (R142). -/
def withConditions (f : Dev → Dev) (s : State) : State :=
  let old := pwrStatusWord s.ctl.dev
  let s := onDev f s
  { s with pl := s.pl.stick Reg.pwrEvents (pwrStatusWord s.ctl.dev &&& ~~~old) }

/-! ### PLLs (R38 to R41, R562) -/

def setLock (l : Locks) (p : Pll) (v : Bool) : Locks :=
  match p with
  | .core => { l with core := v } | .xpt => { l with xpt := v } | .hif => { l with hif := v } | .lod => { l with lod := v }
  | .obs => { l with obs := v }
  | .stack k => { l with stackPlls := if v then l.stackPlls ||| BitVec.ofNat 20 (2 ^ k.val) else l.stackPlls &&& ~~~BitVec.ofNat 20 (2 ^ k.val) }

def getLock (l : Locks) : Pll → Bool
  | .core => l.core | .xpt => l.xpt | .hif => l.hif | .lod => l.lod | .obs => l.obs
  | .stack k => l.stackPlls.getLsbD k.val

/-- The PLLs that BOOT and the end of a reset wait for. -/
def bootLocks (l : Locks) : Bool := l.core && l.xpt && l.lod && l.stackPlls == 0xFFFFF

/-- PWR_CLK_LOCK (R39). -/
def clkLockWord (l : Locks) : Word := bitIf l.core 0 ||| bitIf l.xpt 1 ||| bitIf l.hif 2 ||| bitIf l.lod 3 ||| bitIf l.obs 4

/-- UNLOCK register and bit of a PLL. -/
def unlockBit : Pll → Nat × Nat
  | .core => (Reg.clkUnlock, 0) | .xpt => (Reg.clkUnlock, 1) | .hif => (Reg.clkUnlock, 2) | .lod => (Reg.clkUnlock, 3)
  | .obs => (Reg.clkUnlock, 4) | .stack k => (Reg.hbmUnlock, k.val)

/-- Fault source of a PLL (R513). -/
def pllSource : Pll → Nat
  | .core => 0x290 | .xpt => 0x291 | .hif => 0x292 | .lod => 0x293 | .obs => 0x294
  | .stack k => 0x140 + k.val

/-- A PLL in use, one that has locked, loses lock (R41). -/
def loseLock (s : State) (p : Pll) : State :=
  if !getLock s.ctl.dev.locks p then s
  else
    let s := onDev (fun x => { x with locks := setLock x.locks p false }) s
    { s with pl := (s.pl.stick (unlockBit p).1 (bitIf true (unlockBit p).2)).raise (pllSource p) 0x05 }

/-- The PLLs that REFCLK feeds. -/
def refclkPlls : List Pll :=
  [.core, .xpt, .lod, .obs] ++ (List.range 20).map fun k => .stack ⟨k % 20, Nat.mod_lt _ (by decide)⟩

/-! ### Device states -/

/-- BOOT and later states. -/
def DevState.booted (t : DevState) : Bool := !(t == .off || t == .standby)

/-- Static mode of ALERT_N. -/
def DevState.static (t : DevState) : Bool := t == .service || t == .degraded

/-- The device enters a state; a change of the mode of ALERT_N starts a half-period (R132). -/
def enterState (s : State) (t : DevState) : State :=
  onDev (fun x =>
    let x' := { x with state := t, enteredAt := s.ctl.ns }
    if x.state = .off ∨ x.state.static ≠ t.static then { x' with alertLow := false, alertAt := s.ctl.ns } else x') s

/-- The observation session ends: unsent trace is discarded and the OBS PLL stops (R25, R116). -/
def closeSession (s : State) : State :=
  let s := onOwn (fun o => { o with session := { o.session with isOpen := false, method := false, openedAt := 0 } }) s
  let s := onDev (fun x => { x with locks := { x.locks with obs := false } }) s
  { s with pl := { s.pl with obs := { s.pl.obs with trace := [] } } }

/-- Everything that any reset from BOOT onward does to the control side: no image, no time, no PCIe link, dark outputs. -/
def resetCtl (cause : BitVec 4) (c : Ctl) : Ctl :=
  { c with
    dev := { c.dev with
      resetCause := cause, timeFault := false, pcieUp := false, lit := false, funcReset := []
      locks := { c.dev.locks with obs := false } }
    inEffect := [], snaps := [], held := [], lat := {}, image := none, lod := {}, flt := resetFlt c.flt, hbm := [] }

/-- A device reset begins, or a further cause joins the one that runs (R89, R566). -/
def startReset (s : State) (cause : BitVec 4) : State :=
  if !s.ctl.dev.state.booted || s.ctl.dev.inReset then s
  else
    let c := resetCtl cause s.ctl
    let c := { c with own := resetOwn c.own, dev := { c.dev with inReset := true, duty := 16, dutyPower := 16 } }
    enterState { s with ctl := c, pl := resetPlane keptByReset s.pl } .boot

/-- The incarnation after another one (R88). -/
def nextIncarnation (n : BitVec 16) : BitVec 16 := if n = 0xFFFF then 1 else n + 1

/-! ### Spare tiles that an image or a switch brings in (R16, R533, R560) -/

/-- The reserve tile of a quadrant with the lowest number. -/
def reserveTile (f : Flash) (q : Nat) : Option Nat :=
  ((List.range 68).map (68 * q + ·)).find? fun t => SMap.find (if t % 68 < 64 then 0 else 1) f.tileState t == 1

def setTileState (f : Flash) (t : Nat) (v : BitVec 2) : Flash :=
  { f with tileState := SMap.put (if t % 68 < 64 then 0 else 1) f.tileState t v }

def setTileOf (f : Flash) (l : Nat) (t : Option Nat) : Flash :=
  { f with tileOf := SMap.put (some (68 * (l / 64) + l % 64)) f.tileOf l t }

/-- A reserve tile takes logical tile `l`, when its quadrant has one. -/
def serveTile (f : Flash) (l : Nat) : Flash :=
  match reserveTile f (l / 64) with
  | none => f
  | some t => setTileOf (setTileState f t 0) l (some t)

/-- The logical tiles without a tile. -/
def unserved (f : Flash) : List Nat := (f.tileOf.filter (·.2.isNone)).map (·.1)

/-- The near store of a tile that takes over from a failed one reads zero (R533). -/
def clearNear (d : Plane) (l : Nat) : Plane :=
  let lo := nearBase + l * 2 ^ 22
  { d with mem := d.mem.filter fun x => !(decide (lo ≤ x.1) && decide (x.1 < lo + 2 ^ 22)) }

/-- BOOT, APPLY and a job switch assign reserve tiles: first to unserved logical tiles, then in place of tiles that wait to
be retired for wear, whose near store moves with the logical number. -/
def assignTiles (s : State) : State :=
  let failed := unserved s.ctl.flash
  let s := failed.foldl (fun s l =>
    let s := onFlash (fun f => serveTile f l) s
    if (s.ctl.tileOf l).isSome then { s with pl := clearNear s.pl l } else s) s
  let worn := (List.range 256).filter fun l =>
    match s.ctl.tileOf l with | some t => SMap.find false s.ctl.flt.retirePending t | none => false
  worn.foldl (fun s l =>
    match s.ctl.tileOf l with
    | none => s
    | some t =>
      if (reserveTile s.ctl.flash (l / 64)).isNone then s
      else
        let s := onFlash (fun f => serveTile (setTileState f t 2) l) s
        onFlt (fun x => { x with retirePending := SMap.put false x.retirePending t false }) s) s

/-- Tiles in service for IDN_UNITS_SERVICE: a quadrant counts short of the unserved tiles that no reserve can take (R48). -/
def tilesInService (f : Flash) : Nat :=
  256 - ((List.range 4).map fun q =>
    let open_ := ((unserved f).filter fun l => l / 64 == q).length
    let left := (((List.range 68).map (68 * q + ·)).filter fun t => SMap.find (if t % 68 < 64 then 0 else 1) f.tileState t == 1).length
    open_ - left).sum

def unitsInService (f : Flash) : Word :=
  field (tilesInService f) 16 0 ||| field 20 8 16 ||| field (48 - (f.portsRetired.filter (·.2)).length) 8 24

/-! ### Entering BOOT (R84, R87, R88) -/

/-- BOOT begins: the incarnation advances, the flash copies are loaded, and the check of the active slot starts. -/
def beginBoot (s : State) : State :=
  let s := onFlash (fun f => { f with incarnation := nextIncarnation f.incarnation }) s
  let f := s.ctl.flash
  let s := onOwn (fun o => { o with inbandNode := f.inbandNode, inbandValid := f.inbandValid }) s
  let s := onDev (fun x => { x with inReset := false, incarnation := f.incarnation, joinPending := f.quarantine }) s
  let s := onLat (fun _ => { phase := .firstPass, reading := 0, slotB := f.activeB }) s
  enterState { s with pl := { s.pl with xpt := { s.pl.xpt with banksLost := f.banksLost } } } .boot

/-- Power, clock and reset pins let BOOT begin (R87, R122, R130, R566). -/
def bootReady (x : Dev) : Bool := x.pins.vinOk && x.pins.pwrEn && x.pins.refclk && x.rails && bootLocks x.locks

/-- RESET_N has risen. -/
def resetHigh (s : State) : State := onDev (fun x => { x with pins := { x.pins with resetN := true } }) s

/-- STANDBY becomes BOOT (R84, R87). -/
def bootEntry (s : State) : State :=
  if s.ctl.dev.state = .standby ∧ bootReady s.ctl.dev then beginBoot (resetHigh s) else s

/-- The main rails are off: no PLL of theirs is locked. -/
def railsOff (s : State) : State := onDev (fun x => { x with rails := false, locks := {} }) s

/-- A sensor at its trip limit in BOOT or a later state trips the device once (R139): the fault is raised, and the main rails
stay off with the reset that follows until every sensor is below its throttle limit. -/
def tripCheck (s : State) : State :=
  if !atTrip s.ctl.dev.sensors || !s.ctl.dev.state.booted || s.ctl.dev.tripped then s
  else
    let s := onDev (fun x => { x with tripped := true }) s
    railsOff { s with pl := s.pl.raise 0x283 0x0A }

/-- New readings. -/
def measure (s : State) (r : Readings) : State := tripCheck (withConditions (fun x => { x with sensors := r }) s)

/-- A device reset completes and BOOT begins (R566): after a thermal trip only once every sensor is below its throttle
limit. A reading at a trip limit completes no reset: it trips the device (R139). -/
def resetComplete (s : State) (r : Readings) : State :=
  if atTrip r then measure s r
  else if s.ctl.dev.inReset ∧ s.ctl.dev.state = .boot ∧ bootReady s.ctl.dev ∧ (!s.ctl.dev.tripped ∨ !tooHot r) then
    beginBoot (resetHigh (withConditions (fun x => { x with sensors := r, tripped := false }) s))
  else s

/-! ### Power (R119 to R123) -/

/-- The input has left its range: everything but flash goes. -/
def powerOff (s : State) : State :=
  let c := s.ctl
  { s with
    ctl := { ns := c.ns, flash := c.flash
             dev := { state := .off, inReset := false, rails := false, enteredAt := c.ns, pwrEnFellAt := c.dev.pwrEnFellAt
                      pins := { c.dev.pins with vinOk := false }, sensors := c.dev.sensors } }
    pl := { seq := s.pl.seq, bus := s.pl.bus, host := s.pl.host, hostBad := s.pl.hostBad, portPart := s.pl.portPart, wire := s.pl.wire, msix := s.pl.msix, obsOut := s.pl.obsOut
            effects := s.pl.effects } }

/-- The input is in range: STANDBY after a power-on (R119, R127). -/
def powerOn (s : State) (slot : BitVec 4) : State :=
  if s.ctl.dev.state ≠ .off then s
  else
    let f := s.ctl.flash
    let s := onDev (fun x => { x with pins := { x.pins with vinOk := true }, slotId := slot, incarnation := f.incarnation }) s
    let s := onOwn (fun o => { o with inbandNode := f.inbandNode, inbandValid := f.inbandValid }) s
    enterState (onFlt (fun x => { x with poweredAt := s.ctl.ns }) s) .standby

/-- PWR_EN rises (R122). -/
def pwrEnRises (s : State) : State := onDev (fun x => { x with pins := { x.pins with pwrEn := true } }) s

/-- The main rails are in regulation: with PWR_EN high, 20 ms after it last fell (R123), and after a thermal trip only once
every sensor is below its throttle limit (R139). -/
def railsGood (s : State) : State :=
  let x := s.ctl.dev
  if x.pins.vinOk ∧ x.pins.pwrEn ∧ (x.pwrEnFellAt = 0 ∨ x.pwrEnFellAt + 20000000 ≤ s.ctl.ns) ∧ (!x.tripped ∨ !tooHot x.sensors) then
    onDev (fun x => { x with rails := true }) s
  else s

/-- PWR_EN falls: a rail-off reset from BOOT or a later state (R84, R89, R122). The FLT block keeps its values. A device reset
that was running, after a thermal trip too, ends with it: R139 does not say what PWR_EN does to a trip (DESIGN CHOICE,
log 135). -/
def pwrEnFalls (s : State) : State :=
  let s := onDev (fun x => { x with pins := { x.pins with pwrEn := false }, pwrEnFellAt := max 1 s.ctl.ns }) s
  if !s.ctl.dev.state.booted then railsOff s
  else
    let c := resetCtl 5 s.ctl
    let old := s.ctl.flt
    let c := { c with
      own := railOffOwn c.own, dev := { c.dev with inReset := false, tripped := false }
      flt := { c.flt with laserDrift := old.laserDrift, tileSlow := old.tileSlow, retirePending := old.retirePending } }
    railsOff (enterState { s with ctl := c, pl := resetPlane keptByRailOff s.pl } .standby)

/-! ### Clocks (R41, R130, R562) -/

/-- A PLL achieves lock: its supply and its reference are there, and the OBS PLL runs only for a session. -/
def pllLocks (s : State) (p : Pll) : State :=
  let x := s.ctl.dev
  if !x.rails || (p == .obs && !s.ctl.own.session.isOpen) then s
  else
    onDev (fun x => { x with
      locks := setLock x.locks p true
      pins := if p == .hif then { x.pins with pcieRefclk := true } else { x.pins with refclk := true } }) s

/-- REFCLK is lost (R41, R130): the PWR block reports REFCLK, and every PLL it feeds its own loss of lock. -/
def refclkLost (s : State) : State :=
  let s := withConditions (fun x => { x with pins := { x.pins with refclk := false } }) s
  if s.ctl.dev.state = .off then s
  else refclkPlls.foldl loseLock { s with pl := s.pl.raise 0x283 0x0F }

/-- The PCIe link is down: what is outstanding is lost (R108). -/
def linkDown (s : State) : State :=
  let s := onDev (fun x => { x with pcieUp := false }) s
  { s with pl := loseEntries s.pl }

/-- PCIE_REFCLK is lost (R130). -/
def pcieRefclkLost (s : State) : State :=
  loseLock (linkDown (withConditions (fun x => { x with pins := { x.pins with pcieRefclk := false } }) s)) .hif

/-- The PCIe link has trained (R87); the link of a HIF PLL that recovers waits (R524). The host then gives BAR4 its size, a
free power of two from 1 GiB to 1 TiB (R42, log 118). -/
def linkUp (s : State) : State :=
  let x := s.ctl.dev
  if x.state.booted && !x.inReset && x.rails && x.pins.pcieRefclk && x.locks.hif
      && !(s.ctl.domains.any fun y => y.level == 0 && y.unit == 0x292) then
    let (v, d) := s.pl.draw
    onDev (fun x => { x with pcieUp := true, bar4 := 2 ^ (30 + v.toNat % 11) }) { s with pl := d }
  else s

/-! ### Temperature and power (R137 to R142) -/

/-- The duty moves by one sixteenth every 1 ms (R138, R140). -/
def dutyStep (s : State) (r : Readings) : State :=
  if !s.ctl.dev.state.booted || !s.ctl.dev.rails || decide (s.ctl.ns < s.ctl.dev.dutyAt + 1000000) then s
  else
    let above := decide ((s.pl.reg Reg.pwrLimit).toNat < r.watts)
    tripCheck <| withConditions (fun x => { x with
      sensors := r
      dutyAt := s.ctl.ns
      duty := if tooHot r then max 4 (x.duty - 1) else if coolEnough r then min 16 (x.duty + 1) else x.duty
      dutyPower := if above then max 4 (x.dutyPower - 1) else min 16 (x.dutyPower + 1) }) s

/-- A sensor has reached its trip limit (R139). -/
def thermalTrip (s : State) (k : SensorKind) (celsius : Nat) : State :=
  if celsius < tripLimit k ∨ !s.ctl.dev.state.booted then s
  else tripCheck (withConditions (fun x => { x with sensors := setReading x.sensors k celsius }) s)

/-! ### ALERT_N (R131, R132) -/

/-- A fault is uncleared while its pending bit is set (R522). -/
def Flt.uncleared (f : Flt) : Bool := f.pend.any fun x => x.2 != 0

/-- Whether ALERT_N is driven low. -/
def alertLow (c : Ctl) : Bool :=
  if c.dev.state == .off then false
  else if c.flt.uncleared then true
  else if c.dev.state.static then false else c.dev.alertLow

/-- A half-period of 500 µs ends (R132). -/
def alertToggle (s : State) : State :=
  let x := s.ctl.dev
  if x.state = .off ∨ x.state.static ∨ s.ctl.flt.uncleared ∨ s.ctl.ns < x.alertAt + 500000 then s
  else onDev (fun x => { x with alertLow := !x.alertLow, alertAt := s.ctl.ns }) s

/-! ### CONFIGURED to SERVICE (R84, R106, R152) -/

/-- The laser bank is biased: lasers are enabled and training begins (R84, R379). -/
def laserBiased (s : State) : State :=
  if s.ctl.dev.state ≠ .configured then s
  else
    let s := enterState s .training
    let s := onDev (fun x => { x with lit := true }) s
    let s := quietTimes (onLod (fun l => if l.state = .free then { l with state := .acquiring } else l) s)
    { s with pl := (List.range 48).foldl (fun d n => lightPort s.ctl d n) s.pl }

/-- Time-locked for R84 (R379). -/
def timeLocked (l : Lod) : Bool := l.state == .locked || l.state == .lodestone

/-- Every port of mode 1 or 2 is trained or reported failed. -/
def portsTrained (d : Plane) : Bool :=
  (List.range 48).all fun n => let p := d.port n; !p.inUse || p.link == .up || p.link == .paused || p.failed

/-- TRAINING ends (R84, R368). -/
def trainingDone (s : State) : State :=
  if s.ctl.dev.state = .training ∧ portsTrained s.pl ∧ timeLocked s.ctl.lod then
    onLod (fun l => { l with served := true }) (enterState s (if s.ctl.flash.short then .degraded else .service))
  else s

/-- 5 s in TRAINING without time lock (R84). -/
def acquisitionTimeout (s : State) : State :=
  let x := s.ctl.dev
  if x.state = .training ∧ !x.timeFault ∧ x.enteredAt + 5000000000 ≤ s.ctl.ns ∧ !timeLocked s.ctl.lod then
    let s := onDev (fun x => { x with timeFault := true }) s
    { s with pl := s.pl.raise 0x281 0x08 }
  else s

/-! ### Function resets (R89, R90) -/

/-- A function reset begins; the HIF block of the physical function resets with every function. -/
def funcResetBegins (s : State) (f : Func) : State :=
  if !s.ctl.dev.state.booted then s
  else
    let s := onDev (fun x => { x with funcReset := if x.funcReset.contains f then x.funcReset else x.funcReset ++ [f] }) s
    { s with pl := match f with | .pf => resetPf s.ctl s.pl | .vf v => resetVf s.ctl s.pl v.val }

/-- The transfers have drained: the function reset completes, after a partition reset that runs (R90, R503). -/
def funcResetDone (s : State) (f : Func) : State :=
  if !s.ctl.dev.funcReset.contains f || funcBlocked s.pl f then s
  else
    onDev (fun x => { x with funcReset := x.funcReset.filter (· != f) }) { s with pl := funcDrained s.ctl s.pl f }

/-! ### QUARANTINE (R84, R109, R343) -/

/-- Every fetched entry completes ABORTED; what it had begun is dropped, as the device sends nothing more. -/
def abortFetched (c : Ctl) (d : Plane) : Plane :=
  let d := c.job.veins.foldl (fun d v =>
    (emptyVein d v.vein v.stages.length).onVein v.vein fun x => { x with runs := [] }) d
  let d := dropColls d fun _ => true
  let d := d.qps.foldl (fun d x => if x.2.msgs.isEmpty then d else (stopFlow d x.1).onQp x.1 fun q => { q with
    msgs := [], psns := [], timerOn := false, timerLeft := none, stalled := false }) d
  let d := (d.rings.map fun r => r.2.fetched.map fun e => (r.1, e.index)).flatten.foldl
    (fun d x => finishEntry c d x.1 x.2 { status := stAborted }) d
  d.xpt.destroying.foldl (fun d n => destroyEnd c d n) d

/-- A fenced device enters QUARANTINE and records it in flash. -/
def enterQuarantine (s : State) : State :=
  if !s.ctl.maySpeak then s
  else
    let s := timeQuarantine s
    let s := { s with pl := abortFetched s.ctl s.pl }
    enterState (onFlash (fun f => { f with quarantine := true }) s) .quarantine

end Sys2Proof.Machine
end

