-- ==== Sys2Proof/Machine/Faults.lean ====
section
/-! DEFINITION. Fault collection, containment and the reserve seam (R513 to R543, R567, R568). -/
namespace Sys2Proof.Machine

/-! ### Sources, causes and levels (R513 to R516) -/

def srcStack (s : Nat) : Nat := 0x140 + s
def srcPort (n : Nat) : Nat := 0x180 + n
def srcSlice (q : Nat) : Nat := 0x1C0 + q
def srcColl (q : Nat) : Nat := 0x1C4 + q
def srcLaser (q : Nat) : Nat := 0x1C8 + q
def srcXlat : Nat := 0x280
def srcLod : Nat := 0x281
def srcLoader : Nat := 0x282
def srcPwr : Nat := 0x283
def srcFlash : Nat := 0x284
def srcHif : Nat := 0x292
def srcObs : Nat := 0x294

/-- The kinds of assigned sources, with the number of the unit. -/
inductive Source where
  | tile (t : Nat) | stack (s : Nat) | port (n : Nat) | slice (q : Nat) | coll (q : Nat) | laser (q : Nat) | link (k : Nat)
  | core (n : Nat) | compat (q : Nat) | xlat | lod | loader | pwr | flash | pll (d : Nat)
  deriving DecidableEq, Repr

/-- The source of a number; `none` when it is unassigned (R513). -/
def sourceOf (n : Nat) : Option Source :=
  if n < 272 then some (.tile n)
  else if 0x140 ≤ n ∧ n < 0x154 then some (.stack (n - 0x140))
  else if 0x180 ≤ n ∧ n < 0x1B0 then some (.port (n - 0x180))
  else if 0x1C0 ≤ n ∧ n < 0x1C4 then some (.slice (n - 0x1C0))
  else if 0x1C4 ≤ n ∧ n < 0x1C8 then some (.coll (n - 0x1C4))
  else if 0x1C8 ≤ n ∧ n < 0x1CC then some (.laser (n - 0x1C8))
  else if 0x1D0 ≤ n ∧ n < 0x1D6 then some (.link (n - 0x1D0))
  else if 0x200 ≤ n ∧ n < 0x268 then some (.core (n - 0x200))
  else if 0x268 ≤ n ∧ n < 0x26C then some (.compat (n - 0x268))
  else if n = srcXlat then some .xlat
  else if n = srcLod then some .lod
  else if n = srcLoader then some .loader
  else if n = srcPwr then some .pwr
  else if n = srcFlash then some .flash
  else if 0x290 ≤ n ∧ n < 0x295 then some (.pll (n - 0x290))
  else none

/-- The quadrant that a source lies in (R17, R513, R529). -/
def quadOf (n : Nat) : Option Nat :=
  match sourceOf n with
  | some (.tile t) => some (t / 68)
  | some (.stack s) => some (s / 5)
  | some (.port n) => some (n / 12)
  | some (.slice q) | some (.coll q) | some (.laser q) | some (.compat q) => some q
  | some (.core n) => some (n / 26)
  | _ => none

/-- The default level of a source; `none` is the table's None (R513, R567). -/
def defaultLevel (n : Nat) (part : Option Nat) : Option Nat :=
  match sourceOf n with
  | some (.stack _) | some (.slice _) => some 2
  | some (.link _) | some .pwr => some 3
  | some .xlat => some (if part.isSome then 1 else 3)
  | some .lod | some .loader | some .flash | none => none
  | some (.pll d) => some (if d = 2 ∨ d = 4 then 0 else 3)
  | some (.tile _) | some (.port _) | some (.coll _) | some (.laser _) | some (.core _) | some (.compat _) => some 0

def classCorrected : Nat := 0
def classReport : Nat := 1
def classContain : Nat := 2
def classWire : Nat := 3

/-- The class that a cause fixes (R514). -/
def classOf (cause : Nat) : Option Nat :=
  if cause = 0x02 ∨ cause = 0x0C then some classCorrected
  else if [0x03, 0x07, 0x08, 0x09, 0x0B, 0x0D, 0x0E, 0x10].contains cause then some classReport
  else if [0x01, 0x04, 0x05, 0x0A, 0x0F].contains cause then some classContain
  else if cause = 0x06 then some classWire
  else none

/-- MIN_LEVEL of the source's FAULT_POLICY record. -/
def Ctl.policyOf (c : Ctl) (source : Nat) : Option Nat := (c.static.policy.find? (·.1 == source)).map (·.2)

/-- The effective level of a containing fault; `none` for a source of level None that no record names (R516, R567). -/
def Ctl.effLevel (c : Ctl) (source : Nat) (part : Option Nat) : Option Nat :=
  match defaultLevel source part, c.policyOf source with
  | some a, some b => some (max a b)
  | some a, none => some a
  | none, b => b

/-! ### Domains (R524, R526 to R529) -/

/-- The logical tile that a physical tile serves (R16). -/
def Ctl.logicalOf (c : Ctl) (t : Nat) : Option Nat :=
  ((List.range 64).map (64 * (t / 68) + ·)).find? fun l => c.tileOf l == some t

/-- The partition that holds a tile under the running image (R18). -/
def Ctl.partOfTile (c : Ctl) (t : Nat) : Option Nat :=
  match c.logicalOf t with
  | none => none
  | some l => (c.static.parts.find? fun r => r.tileGroups.getLsbD (l / 4)).map (·.part)

/-- Whether a partition holds a tile group or a stacked unit of a quadrant. -/
def PartRec.holdsIn (r : PartRec) (q : Nat) : Bool :=
  ((List.range 16).any fun g => r.tileGroups.getLsbD (16 * q + g))
    || (decide (r.hbmFirst < 225 * (q + 1)) && decide (225 * q < r.hbmFirst + r.hbmUnits) && decide (0 < r.hbmUnits))

/-- Whether everything a partition holds lies in a quadrant. -/
def PartRec.within (r : PartRec) (q : Nat) : Bool :=
  r.holdsIn q && (List.range 4).all fun j => j == q || !r.holdsIn j

def Domain.same (a b : Domain) : Bool := a.level == b.level && a.unit == b.unit

/-- Whether domain `a` lies strictly within domain `b`. -/
def Ctl.inside (c : Ctl) (a b : Domain) : Bool :=
  if b.level = 3 then decide (a.level < 3)
  else if b.level = 2 then
    (a.level == 0 && quadOf a.unit == some b.unit)
      || (a.level == 1 && (match c.partRec a.unit with | some r => r.within b.unit | none => false))
  else if b.level = 1 then a.level == 0 && decide (a.unit < 272) && c.partOfTile a.unit == some b.unit
  else false

/-- The quadrant of a source as a domain; the device for a source of no quadrant. -/
def quadDomain (unit source : Nat) : Domain :=
  match quadOf unit with
  | some q => { level := 2, unit := q, source := source }
  | none => { level := 3, unit := 0, source := source }

/-- The partition of a tile as a domain, or its quadrant without a record. -/
def Ctl.tileDomain (c : Ctl) (t source : Nat) : Domain :=
  match (if t < 272 then c.partOfTile t else none) with
  | some p => { level := 1, unit := p, source := source }
  | none => quadDomain t source

/-- The domain of a fault at a level. -/
def Ctl.domainAt (c : Ctl) (level source : Nat) (part : Option Nat) : Domain :=
  if level = 0 then { level := 0, unit := source, source := source }
  else if level = 1 then
    match part with
    | some p => { level := 1, unit := p, source := source }
    | none => c.tileDomain source source
  else if level = 2 then quadDomain source source
  else { level := 3, unit := 0, source := source }

/-- The domain one level below in R524's table, to which a domain escalates (R529). -/
def Ctl.escalated (c : Ctl) (x : Domain) (source : Nat) : Domain :=
  if x.level = 0 then c.tileDomain x.unit source
  else if x.level = 1 then quadDomain source source
  else { level := 3, unit := 0, source := source }

/-! ### Recording (R517 to R522) -/

/-- MGT cycles since the last power-on (R519). -/
def Ctl.cycle (c : Ctl) : Word := BitVec.ofNat 32 ((c.ns - c.flt.poweredAt) / 4)

/-- Record one event (R519, R520, R522). -/
def recordEvent (s : State) (source cause cls : Nat) (dom : Domain) (forced escalated absorbed : Bool) : State :=
  let f := s.ctl.flt
  let e : FltEvent :=
    { tick := s.ctl.lod.tick, cycle := s.ctl.cycle, source := BitVec.ofNat 16 source, cls := cls, level := dom.level
      cause := BitVec.ofNat 8 cause, forced := forced, escalated := escalated, absorbed := absorbed, seq := f.seq
      domain := if dom.level = 3 then 0 else dom.unit }
  onFlt (fun f => { f with
    hist := (e :: f.hist).take 32, seq := f.seq + 1
    first := if cls = 0 then f.first else match f.first with | some x => some x | none => some e
    pend := if cls = 0 then f.pend else
      SMap.put 0 f.pend (source / 32) (SMap.find 0 f.pend (source / 32) ||| bitIf true (source % 32)) }) s

/-- Level 0 of a source, as classes 0 and 1 are recorded. -/
def selfDomain (source : Nat) : Domain := { level := 0, unit := source, source := source }

/-- The cause of the last containing fault of a source. -/
def Flt.lastCause (f : Flt) (source : Nat) : Nat :=
  match f.hist.find? fun e => e.source.toNat == source && decide (2 ≤ e.cls) with
  | some e => e.cause.toNat
  | none => 0x04

/-! ### What containment does to a domain (R524) -/

/-- Every unfinished request of a cipher core is discarded (R493). -/
def loseCore (c : Ctl) (d : Plane) (core : Nat) : Plane :=
  let d := { d with cip := { d.cip with reqs := d.cip.reqs.map fun (r : CipReq) =>
    if r.core == core && !r.finished then { r with finished := true, lost := true } else r } }
  drainCipher c (d.cip.reqs.length + 1) (d.cipStick .coreParity)

/-- A chunk this member produces that some member has not released. -/
def Coll.pendingChunk (x : Coll) : Nat :=
  ((x.owned.filter fun i => !(x.prods.any fun p => p.chunk == i && p.result.isSome)
      || (x.sending.any fun s => s.chunk == i && s.code != 0) || (x.toSend.any (·.1 == i))).min?).getD 0

/-- Every active collective of an engine starts its closing exchange with POISON, reason 0. -/
def poisonEngine (c : Ctl) (d : Plane) (e : Nat) : Plane :=
  (d.col.colls.filter fun x => x.engine == e && x.state == .active).foldl (fun d x =>
    closeColl c d x (causePoison x.pendingChunk (x.consumed x.pendingChunk)) 0) d

/-- The partition reset of a containment; an IDLE or ABSENT partition holds nothing to reset. -/
def containPart (c : Ctl) (d : Plane) (p : Nat) : Plane :=
  if (d.part p).state.holds then
    let d := resetPart c d p
    d.setPart p { d.part p with contained := true }
  else d

/-- The 12 ports of a quadrant. -/
def portsOf (q : Nat) : List Nat := (List.range 12).map (12 * q + ·)

/-- What the containment of a quadrant does on the data side. Collectives of other partitions on its engine close as the
engine's own containment closes them (log 158). -/
def containQuad (c : Ctl) (d : Plane) (q : Nat) : Plane :=
  let d := (portsOf q).foldl (fun d n => darkPort c d n) d
  let live (x : Qp) : Bool := x.state == .init || x.state == .connecting || x.state == .ready
  let d := ((d.qps.filter fun x => x.2.home == q && live x.2).map (·.1)).foldl
    (fun d n => failQp c d n stAborted none stAborted 0 false) d
  let d := (c.static.parts.filter (·.holdsIn q)).foldl (fun d r => containPart c d r.part) d
  poisonEngine c d q

/-- The outcomes of an engine-level recovery on the unit. -/
def containUnit (s : State) (source : Nat) : State :=
  let c := s.ctl
  match sourceOf source with
  | some (.tile t) => { s with pl := tileParity c s.pl t }
  | some (.port n) =>
    let p := s.pl.port n
    if p.link == .up || p.link == .paused then { s with pl := retrainPort c s.pl n } else s
  | some (.coll q) => { s with pl := poisonEngine c s.pl q }
  | some (.core n) => { s with pl := loseCore c s.pl n }
  | some (.compat q) => { s with pl := loseCore c s.pl (104 + q) }
  | some (.pll 2) => linkDown s
  | some (.pll 4) => closeSession s
  | _ => s

/-- A recovery starts: the outcomes of R524 for its domain. -/
def beginRecovery (s : State) (x : Domain) : State :=
  if x.level = 0 then containUnit s x.unit
  else if x.level = 1 then { s with pl := containPart s.ctl s.pl x.unit }
  else { s with pl := containQuad s.ctl s.pl x.unit }

/-! ### The collector's slots and queue (R526 to R529) -/

def Flt.slot (f : Flt) (i : Nat) : Option Domain := SMap.find none f.slots i
def Flt.setSlot (f : Flt) (i : Nat) (x : Option Domain) : Flt := { f with slots := SMap.put none f.slots i x }
def slotNums : List Nat := [0, 1, 2, 3]

/-- The sources whose faults are in a recovery or in the queue. -/
def Flt.sources (f : Flt) : List Nat := (slotNums.filterMap f.slot ++ f.queue).map (·.source)

/-- A wire pair that reads equal is healthy again once its fault is in no recovery and no queue (R518). -/
def releasePairs (s : State) : State :=
  onFlt (fun f => { f with
    pairs := f.pairs.filter fun x => f.sources.contains x.1
    wireLatch := f.wireLatch.filter fun x => f.sources.contains x.1 }) s

/-- Queued faults start in the slots that are free (R527); `fuel` bounds the slots. -/
def startQueued : Nat → State → State
  | 0, s => s
  | fuel + 1, s =>
    match slotNums.find? (fun i => (s.ctl.flt.slot i).isNone), s.ctl.flt.queue with
    | some i, x :: rest =>
      let s := onFlt (fun f => { f.setSlot i (some x) with queue := rest }) s
      startQueued fuel (beginRecovery s x)
    | _, _ => s

/-- The partitions that a contained reset holds and that no recovery covers any more return to ACTIVE (R525). -/
def resumeParts (s : State) : State :=
  let c := s.ctl
  let covered (p : Nat) : Bool := c.domains.any fun m =>
    (m.level == 1 && m.unit == p) || (m.level == 2 && (match c.partRec p with | some r => r.holdsIn m.unit | none => false))
  { s with pl := (List.range 32).foldl (fun d p =>
      if (d.part p).contained && !covered p then
        let d := partResetDone d p
        d.setPart p { d.part p with contained := false }
      else d) s.pl }

/-- Containment at device level: every recovery ends and the queue empties (R529). -/
def containDevice (s : State) : State := startReset (onFlt (fun f => { f with slots := [], queue := [] }) s) 4

/-- A domain takes slot `i`: the other recoveries and queued faults inside it end (R528). -/
def seizeSlot (s : State) (i : Nat) (x : Domain) : State :=
  let s := onFlt (fun f =>
    let f := slotNums.foldl (fun f j =>
      match f.slot j with
      | some y => if j ≠ i ∧ s.ctl.inside y x then f.setSlot j none else f
      | none => f) f
    { f.setSlot i (some x) with queue := f.queue.filter fun y => !s.ctl.inside y x && !y.same x }) s
  startQueued 4 (beginRecovery s x)

/-- Slot `i` escalates by one level on a fault of `source` (R529). A new domain that equals another recovering domain, or
lies in one, takes no recovery of its own. -/
def escalate (s : State) (i : Nat) (x : Domain) (source cause : Nat) (forced : Bool) : State :=
  let y := s.ctl.escalated x source
  let cls := if cause = 0x06 then classWire else classContain
  let others := (slotNums.filter (· != i)).filterMap s.ctl.flt.slot
  let covered := others.any fun z => z.same y || s.ctl.inside y z
  let s := recordEvent s source cause cls y forced true covered
  if y.level = 3 then containDevice s
  else if covered then startQueued 4 (onFlt (fun f => f.setSlot i none) s)
  else seizeSlot s i y

/-- A containing fault meets the collector (R524, R526 to R529). -/
def contain (s : State) (source cause cls : Nat) (x : Domain) (forced : Bool) : State :=
  let c := s.ctl
  let f := c.flt
  let note (absorbed : Bool) : State := recordEvent s source cause cls x forced false absorbed
  if c.dev.inReset then note true
  else if !c.dev.state.booted then note false
  else if x.level = 3 then containDevice (note false)
  else
    match slotNums.find? fun i => (match f.slot i with | some y => y.same x | none => false) with
    | some i => escalate (note false) i ((f.slot i).getD x) source cause forced
    | none =>
      if (slotNums.filterMap f.slot ++ f.queue).any (c.inside x) || f.queue.any (·.same x) then note true
      else
        match slotNums.find? fun i => (match f.slot i with | some y => c.inside y x | none => false) with
        | some i => seizeSlot (note false) i x
        | none =>
          if f.queue.any (fun y => c.inside y x) then
            let q := modFirst (fun y => c.inside y x) (fun _ => x) f.queue
            onFlt (fun f => { f with queue := q.filter fun y => !c.inside y x }) (note false)
          else
            match slotNums.find? fun i => (f.slot i).isNone with
            | some i => seizeSlot (note false) i x
            | none =>
              if f.queue.length < 32 then onFlt (fun f => { f with queue := f.queue ++ [x] }) (note false)
              else containDevice (note false)

/-- Record a fault of class CORRECTED or REPORT. -/
def report (s : State) (source cause cls : Nat) (forced : Bool := false) : State :=
  recordEvent s source cause cls (selfDomain source) forced false false

/-! ### The reserve seam (R530 to R539) -/

/-- A unit needs a spare and none remains: EXHAUSTED, and DEGRADED from SERVICE (R84, R532). -/
def exhaust (s : State) (source : Nat) : State :=
  let s := onFlash (fun f => { f with short := true }) (report s source 0x0D classReport)
  if s.ctl.dev.state = .service then enterState s .degraded else s

/-- Reserve tiles of a quadrant, and the failed and worn tiles that wait for one. -/
def tileSupply (c : Ctl) (q : Nat) : Nat × Nat :=
  let tiles := (List.range 68).map (68 * q + ·)
  ((tiles.filter fun t => c.tileState t == 1).length,
    (tiles.filter fun t => SMap.find false c.flt.retirePending t).length + ((unserved c.flash).filter fun l => l / 64 == q).length)

/-- Tiles of a quadrant that need a spare and find none. -/
def tilesShort (c : Ctl) (q : Nat) : Nat := (tileSupply c q).2 - (tileSupply c q).1

/-- Every VEIN_RUN of a vein ends POISONED and the vein is FAILED (R451, R533). -/
def failVein (c : Ctl) (d : Plane) (v : VeinRec) : Plane :=
  let x := d.vein v.vein
  let st := (v.stages.findIdx? fun s => (c.tileOf s.tile).isNone).getD 0
  let d := (emptyVein d v.vein v.stages.length).onVein v.vein fun x => { x with
    state := if x.state == .absent then x.state else .failed, runs := [] }
  x.runs.foldl (fun d r => finishEntry c d r.ring r.index { status := stPoisoned, detail := veDetail veParity st 0 }) d

/-- A tile is retired (R533). When more tiles then need a spare than before and none remains, the units in service fall and
EXHAUSTED is recorded (R48, R532): a serving tile without a spare, or a reserve tile that another one waits for. -/
def retireTile (s : State) (t : Nat) : State :=
  if s.ctl.tileState t ≠ 0 ∧ s.ctl.tileState t ≠ 1 then s
  else
    let l := s.ctl.logicalOf t
    let short := tilesShort s.ctl (t / 68)
    let s := onFlash (fun f => setTileState f t 2) s
    let s := onFlt (fun f => { f with retirePending := SMap.put false f.retirePending t false }) s
    let s := match l with
      | none => s
      | some l =>
        let s := onFlash (fun f => setTileOf f l none) s
        { s with pl := (s.ctl.job.veins.filter fun v => v.stages.any (·.tile == l)).foldl (fun d v => failVein s.ctl d v) s.pl }
    if short < tilesShort s.ctl (t / 68) then exhaust s t else s

/-- A cipher core is retired and a reserve core takes its place (R537). -/
def retireCore (s : State) (n : Nat) : State :=
  let old := s.ctl.coreState n
  if old = 2 then s
  else
    let s := onFlash (fun f => { f with coreState := SMap.put (if n < 96 then 0 else 1) f.coreState n 2 }) s
    let s := { s with pl := loseCore s.ctl s.pl n }
    if old ≠ 0 then s
    else
      match (List.range 104).find? fun k => s.ctl.coreState k == 1 with
      | some k => onFlash (fun f => { f with coreState := SMap.put (if k < 96 then 0 else 1) f.coreState k 0 }) s
      | none => exhaust s (0x200 + n)

/-- State of a laser (R568). -/
def Ctl.laserState (c : Ctl) (l : Nat) : BitVec 2 := SMap.find (if l % 20 < 16 then 0 else 1) c.flash.laserState l
def setLaser (s : State) (l : Nat) (v : BitVec 2) : State :=
  onFlash (fun f => { f with laserState := SMap.put (if l % 20 < 16 then 0 else 1) f.laserState l v }) s
def Ctl.reserveLaser (c : Ctl) (q : Nat) : Option Nat :=
  ((List.range 20).map (20 * q + ·)).find? fun l => c.laserState l == 1

/-- One laser has been measured (R540): a drift past LASER_DRIFT or a lost output starts a swap, or records EXHAUSTED once. -/
def laserCheck (s : State) (l drift : Nat) (lost : Bool) : State :=
  let q := l / 20
  let s := onFlt (fun f => { f with laserDrift := SMap.put 0 f.laserDrift l (min 1023 drift) }) s
  if s.ctl.laserState l ≠ 0 ∨ (!lost ∧ drift ≤ s.ctl.static.laserDrift * 10) then s
  else if (SMap.find none s.ctl.flt.swapFrom q).isSome then s
  else if (s.ctl.reserveLaser q).isSome then
    let wear := decide (s.ctl.static.laserDrift * 10 < drift)
    onFlt (fun f => { f with swapFrom := SMap.put none f.swapFrom q (some l), swapLost := SMap.put false f.swapLost q !wear }) s
  else
    let key := if lost then 100 + l else l
    if SMap.find false s.ctl.flt.noted key then s
    else exhaust (onFlt (fun f => { f with noted := SMap.put false f.noted key true }) s) (srcLaser q)

/-- The reserve laser takes the modulators of the old one (R536); a swap for wear is recorded (R531). -/
def laserSwap (s : State) (q : Nat) : State :=
  match SMap.find none s.ctl.flt.swapFrom q, s.ctl.reserveLaser q with
  | some l, some r =>
    let lost := SMap.find false s.ctl.flt.swapLost q
    let s := onFlt (fun f => { f with swapFrom := SMap.put none f.swapFrom q none, swapLost := SMap.put false f.swapLost q false })
      (setLaser (setLaser s l 2) r 0)
    if lost then s else report s (srcLaser q) 0x0C classCorrected
  | _, _ => s

/-- A port of a quadrant whose laser is lost and not replaced may never align: a fabric port is retired (R532). -/
def Ctl.laserGone (c : Ctl) (n : Nat) : Bool :=
  (List.range 20).any fun i => SMap.find false c.flt.noted (100 + 20 * (n / 12) + i)

/-- The ring oscillator of a tile has been measured (R540). -/
def tileCheck (s : State) (t slow : Nat) : State :=
  let s := onFlt (fun f => { f with tileSlow := SMap.put 0 f.tileSlow t (min 1023 slow) }) s
  if slow ≤ s.ctl.static.tileSlow ∨ s.ctl.tileState t ≠ 0 ∨ SMap.find false s.ctl.flt.retirePending t then s
  else
    let short := tilesShort s.ctl (t / 68)
    let s := onFlt (fun f => { f with retirePending := SMap.put false f.retirePending t true }) s
    if short < tilesShort s.ctl (t / 68) then exhaust s t else report s t 0x0C classCorrected

def Ctl.pcMap (c : Ctl) (k : Nat) : PcMap := SMap.find {} c.flash.pcMaps k
def Ctl.stackHbm (c : Ctl) (k : Nat) : Hbm := SMap.find {} c.hbm k
def setHbm (s : State) (k : Nat) (h : Hbm) : State := onCtl (fun c => { c with hbm := SMap.put {} c.hbm k h }) s

/-- The logical pseudo-channel that a physical one serves (R222). -/
def PcMap.logical (m : PcMap) (pc : Nat) : Option Nat :=
  if pc = 30 then m.spare30
  else if pc = 31 then m.spare31
  else if m.spare30 == some pc || m.spare31 == some pc then none
  else some pc

/-- The lower-numbered free spare of a stack. -/
def PcMap.free (m : PcMap) : Option Nat :=
  if m.spare30.isNone && !m.dead30 then some 30 else if m.spare31.isNone then some 31 else none

/-- Spares of a stack that are left. -/
def PcMap.left (m : PcMap) : Nat := b2n (m.spare30.isNone && !m.dead30) + b2n m.spare31.isNone

/-- A copy of a pseudo-channel starts (R534). -/
def startCopy (s : State) (k pc logical : Nat) : State :=
  setHbm s k { s.ctl.stackHbm k with copying := some pc, done := false, copyFrom := logical, mib := 0, copyAt := s.ctl.ns }

/-- MiB copied: 2 of the 32 slots of a stack read and write 117.1875 bytes each ns, half of them read (R535). -/
def Hbm.copied (c : Ctl) (h : Hbm) : Nat :=
  if h.copying.isSome then min 1536 ((c.ns - h.copyAt) * 1875 / 32 / 2 ^ 20) else h.mib

/-- A pseudo-channel has crossed a trigger of R530: a copy starts or waits, or the stack is short (R532). -/
def replacePc (s : State) (k pc : Nat) (fault : Bool) : State :=
  let m := s.ctl.pcMap k
  let h := s.ctl.stackHbm k
  let noted (s : State) : State :=
    if fault then setHbm s k { s.ctl.stackHbm k with faulty := pc :: (s.ctl.stackHbm k).faulty } else s
  match m.logical pc with
  | none => s
  | some l =>
    if h.copying == some pc || h.waiting.contains pc then s
    else if m.left ≤ b2n h.copying.isSome + h.waiting.length then
      if SMap.find false s.ctl.flash.hbmShort k then s
      else exhaust (onFlash (fun f => { f with hbmShort := SMap.put false f.hbmShort k true }) s) (srcStack k)
    else if h.copying.isSome then noted (setHbm s k { h with waiting := h.waiting ++ [pc] })
    else noted (startCopy s k pc l)

/-- The correctable errors of a pseudo-channel over the last 60 min have been checked (R540). -/
def ceCheck (s : State) (k pc errors : Nat) : State :=
  let h := s.ctl.stackHbm k
  let s := setHbm s k { h with ce := SMap.put 0 h.ce pc (min 0xFFFFFFFF errors) }
  if errors ≤ s.ctl.static.hbmCeRate then s else replacePc s k pc false

/-- A copy completes (R534): the remap takes effect and the next copy starts; a spare brought in by wear is recorded, one
that a fault brought in has been recorded with the fault (R531). -/
def copyDone (s : State) (k : Nat) (bad : List Nat) : State :=
  let h := s.ctl.stackHbm k
  let m := s.ctl.pcMap k
  match h.copying, m.free with
  | some pc, some spare =>
    let m := if pc = 30 then { m with spare30 := none, dead30 := true } else m
    let m := if spare = 30 then { m with spare30 := some h.copyFrom } else { m with spare31 := some h.copyFrom }
    let s := onFlash (fun f => { f with pcMaps := SMap.put {} f.pcMaps k m }) s
    let s := setHbm s k { h with
      copying := none, done := true, mib := 1536, waiting := h.waiting.drop 1, faulty := h.faulty.filter (· != pc) }
    let lines := bad.filter fun l => decide (l * 64 < stackedEnd) && stackOf (l * 64) == k
    let s := { s with pl := { s.pl with poison := s.pl.poison ++ lines.filter fun l => !s.pl.poison.contains l } }
    let s := if h.faulty.contains pc then s else report s (srcStack k) 0x0C classCorrected
    match h.waiting with
    | pc :: _ => match m.logical pc with | some l => startCopy s k pc l | none => s
    | [] => s
  | _, _ => s

def Flash.used (m : SMap Nat) (k : Nat) : Nat := SMap.find 0 m k

/-- A MEM_UE of a stack: the second of one pseudo-channel within 24 h brings in a spare (R530). The event names none, so from
the second of the stack on a free value says whether one has had two, and which (log 99). -/
def stackUe (s : State) (k : Nat) : State :=
  let h := s.ctl.stackHbm k
  let recent := h.ueTimes.filter fun t => decide (s.ctl.ns < t + 86400000000000)
  let s := setHbm s k { h with ueTimes := s.ctl.ns :: recent }
  if recent.isEmpty then s
  else
    let r := s.pl.draw
    let serving := (List.range 32).filter fun pc => ((s.ctl.pcMap k).logical pc).isSome
    let s := { s with pl := r.2 }
    match serving[r.1.toNat / 2 % serving.length]? with
    | some pc => if r.1.getLsbD 0 then replacePc s k pc true else s
    | none => s

/-- The contexts of a bank leave it (R538): each is written back, pinned ones are fetched again at once, and others when next
needed. Which of a slice's contexts lie in a bank of 256 is free (log 100). -/
def emptyBank (c : Ctl) (d : Plane) (q : Nat) : Plane :=
  let r := d.drawBytes 4096
  let here := (((inSlice d q).filter (·.2.resident)).zip r.1).filterMap fun x => if x.2.getLsbD 0 then some x.1.1 else none
  (here.take 256).foldl (fun d n =>
    let d := contextWritten c { d with xpt := { d.xpt with writeback := n :: d.xpt.writeback.erase n } } n
    if (d.qp n).pin then fetchQp d n else d) r.2

/-- A context bank of a slice is retired: a spare bank serves in its place, or the capacity falls (R530, R532, R538). -/
def sliceUe (s : State) (q : Nat) : State :=
  let s := { s with pl := emptyBank s.ctl s.pl q }
  let n := SMap.find 0 s.ctl.flash.banksUsed q
  if n < 2 then onFlash (fun f => { f with banksUsed := SMap.put 0 f.banksUsed q (n + 1) }) s
  else
    let m := SMap.find 0 s.ctl.flash.banksLost q + 1
    let s := onFlash (fun f => { f with banksLost := SMap.put 0 f.banksLost q m }) s
    exhaust { s with pl := { s.pl with xpt := { s.pl.xpt with banksLost := SMap.put 0 s.pl.xpt.banksLost q m } } } (srcSlice q)

/-- A MEM_UE in a row of a tile: a spare row, or the tile is retired (R530, R532). -/
def tileUe (s : State) (t : Nat) : State :=
  let n := SMap.find 0 s.ctl.flash.rowsUsed t
  if n < 128 then onFlash (fun f => { f with rowsUsed := SMap.put 0 f.rowsUsed t (n + 1) }) s
  else if s.ctl.tileState t = 0 ∨ s.ctl.tileState t = 1 then retireTile (exhaust s t) t
  else s

/-- A PARITY fault of a cipher core: the third within 1 h retires it (R530). -/
def coreParity (s : State) (n : Nat) : State :=
  let recent := (SMap.find [] s.ctl.flt.coreTimes n).filter fun t => decide (s.ctl.ns < t + 3600000000000)
  let s := onFlt (fun f => { f with coreTimes := SMap.put [] f.coreTimes n (s.ctl.ns :: recent) }) s
  if 2 ≤ recent.length then retireCore s n else s

/-- A MEM_CE of a slice or a tile (R530): 16 within 1 h in one bank or row bring in a spare. The event names no bank and no
row, so from the 16th on a free value says whether one of them has had 16 (log 6). -/
def ceSeen (s : State) (source : Nat) (worn : State → State) : State :=
  let recent := (SMap.find [] s.ctl.flt.ceTimes source).filter fun t => decide (s.ctl.ns < t + 3600000000000)
  let s := onFlt (fun f => { f with ceTimes := SMap.put [] f.ceTimes source (s.ctl.ns :: recent) }) s
  if recent.length < 15 then s
  else
    let r := s.pl.draw
    if r.1.getLsbD 0 then worn { s with pl := r.2 } else { s with pl := r.2 }

/-- A context bank has crossed its trigger of wear: WEAR is recorded when a spare bank is left (R531, R532). -/
def sliceWorn (s : State) (q : Nat) : State :=
  sliceUe (if SMap.find 0 s.ctl.flash.banksUsed q < 2 then report s (srcSlice q) 0x0C classCorrected else s) q

/-- A row of a tile has crossed its trigger of wear. -/
def tileWorn (s : State) (t : Nat) : State :=
  tileUe (if SMap.find 0 s.ctl.flash.rowsUsed t < 128 then report s t 0x0C classCorrected else s) t

/-- What the reserve seam does on an event of a source (R530). -/
def seam (s : State) (source cause : Nat) : State :=
  match sourceOf source with
  | some (.stack k) => if cause = 0x03 then stackUe s k else s
  | some (.slice q) => if cause = 0x03 then sliceUe s q else if cause = 0x02 then ceSeen s source (sliceWorn · q) else s
  | some (.tile t) => if cause = 0x03 then tileUe s t else if cause = 0x02 then ceSeen s source (tileWorn · t) else s
  | some (.core n) => if cause = 0x01 then coreParity s n else s
  | _ => s

/-! ### Reports and recoveries -/

/-- A fault reaches the collector with its cause (R514 to R517, R567). -/
def collectFault (s : State) (source cause : Nat) (part : Option Nat) (forced : Bool) : State :=
  match sourceOf source, classOf cause with
  | some x, some cls =>
    let part := if x = .xlat then part else none
    let s :=
      if cls = classCorrected ∨ cls = classReport then report s source cause cls forced
      else
        match s.ctl.effLevel source part with
        | none => report s source cause classReport forced
        | some l => contain s source cause cls (s.ctl.domainAt l source part) forced
    releasePairs (seam s source cause)
  | _, _ => s

/-- The parity of an adder or accumulator (R434, R514): class REPORT. -/
def adderReport (s : State) (engine : Nat) : State := report s (srcColl engine) 0x01 classReport

/-- A pair has read equal for three cycles (R518). -/
def wireReport (s : State) (source : Nat) : State :=
  if (sourceOf source).isNone || SMap.find false s.ctl.flt.wireLatch source then s
  else
    collectFault (onFlt (fun f => { f with
      pairs := SMap.put 1 f.pairs source 3, wireLatch := SMap.put false f.wireLatch source true }) s) source 0x06 none false

/-- A source drives its pair to (1, 0) (R517): the pair has read unequal again. -/
def faultReport (s : State) (source cause : Nat) (part : Option Nat) : State :=
  collectFault (onFlt (fun f => { f with
    pairs := SMap.put 1 f.pairs source 1, wireLatch := SMap.put false f.wireLatch source false }) s) source cause part false

/-- A source that FLT_FORCE may name (R523). -/
def Ctl.forceOk (c : Ctl) (source : Nat) : Bool :=
  match sourceOf source with
  | some (.tile t) => c.tileState t != 2
  | some _ => true
  | none => false

/-- FLT_FORCE with MODE 1: one MGT cycle (R523). -/
def forceFault (s : State) (source cause : Nat) : State :=
  if s.ctl.ns < s.ctl.flt.forceTill ∨ !s.ctl.forceOk source ∨ (classOf cause).isNone then s
  else collectFault (onFlt (fun f => { f with forceTill := s.ctl.ns + 4 }) s) source cause none true

/-- FLT_FORCE with MODE 2: four MGT cycles with both wires at 1 (R518, R523). -/
def forceWire (s : State) (source : Nat) : State :=
  if s.ctl.ns < s.ctl.flt.forceTill ∨ !s.ctl.forceOk source then s
  else
    let s := onFlt (fun f => { f with forceTill := s.ctl.ns + 16 }) s
    if SMap.find false s.ctl.flt.wireLatch source then s else collectFault s source 0x06 none true

/-- The unit of a failed self-test that the reserve seam covers is retired; the others escalate (R525). -/
def retireUnit (s : State) (source : Nat) : Option State :=
  match sourceOf source with
  | some (.tile t) => some (retireTile s t)
  | some (.core n) => some (retireCore s n)
  | _ => none

/-- A recovery ends: its slot frees, its domain resumes and queued faults start (R525, R527). -/
def endRecovery (s : State) (i : Nat) (x : Domain) : State :=
  let s := resumeParts (onFlt (fun f => f.setSlot i none) s)
  let s := if x.level = 2 ∧ s.ctl.dev.lit then { s with pl := (portsOf x.unit).foldl (fun d n => lightPort s.ctl d n) s.pl } else s
  releasePairs (startQueued 4 s)

/-- Reinitialisation and self-test of the domain in a slot end (R524, R525). -/
def recoveryDone (s : State) (i : Nat) (passed : Bool) : State :=
  match s.ctl.flt.slot i with
  | none => s
  | some x =>
    let waits := x.level = 0 ∧ x.unit = srcHif ∧ !(s.ctl.dev.pins.pcieRefclk && s.ctl.dev.locks.hif)
    if waits then s
    else if passed then endRecovery s i x
    else
      match retireUnit s (if x.level = 0 then x.unit else x.source) with
      | some s => endRecovery s i x
      | none => releasePairs (escalate s i x x.source (s.ctl.flt.lastCause x.source) false)

/-- The owner writes 1 to bits of FLT_PEND_k (R522). When the last fault clears, ALERT_N starts a half-period (R132). -/
def clearPending (s : State) (k : Nat) (v : Word) : State :=
  let held : Word := (List.range 32).foldl (fun w j =>
    let source := 32 * k + j
    w ||| bitIf (s.ctl.flt.sources.contains source || SMap.find 1 s.ctl.flt.pairs source != 1) j) 0
  let was := s.ctl.flt.uncleared
  let s := onFlt (fun f => { f with pend := SMap.put 0 f.pend k (SMap.find 0 f.pend k &&& ~~~(v &&& ~~~held)) }) s
  if was && !s.ctl.flt.uncleared then onDev (fun x => { x with alertLow := false, alertAt := s.ctl.ns }) s else s

/-- A rebuild from parity has lasted 10 s (R532). -/
def rebuildTimeout (s : State) (n : Nat) : State :=
  let p := s.pl.port n
  if p.group ∧ p.spared.isSome ∧ !p.rebuildNoted ∧ p.sparedAt + 10000000000 ≤ s.ctl.ns then
    exhaust { s with pl := s.pl.setPort n { p with rebuildNoted := true } } (srcPort n)
  else s

/-- A port has been 500 ms in TRAINING: it is reported failed, and a fabric port without its laser is retired. -/
def trainTimeout (s : State) (n : Nat) : State :=
  let p := s.pl.port n
  if p.link ≠ .training ∨ s.ctl.ns < p.since + 500000000 then s
  else
    let s := { s with pl := s.pl.setPort n { p with failed := true } }
    if p.fabric ∧ s.ctl.laserGone n then onFlash (fun f => { f with portsRetired := SMap.put false f.portsRetired n true }) s else s

/-! ### Words of the FLT and HBM registers (R519, R541 to R543) -/

/-- Word `w` of an event. -/
def FltEvent.word (e : FltEvent) (w : Nat) : Word :=
  if w = 0 then e.tick.setWidth 32
  else if w = 1 then (e.tick >>> 32).setWidth 32
  else if w = 2 then e.cycle
  else if w = 3 then
    field e.source.toNat 16 0 ||| field e.cls 2 16 ||| field e.level 2 18 ||| field e.cause.toNat 8 20 ||| bitIf e.forced 28
      ||| bitIf e.escalated 29 ||| bitIf e.absorbed 30 ||| bitIf true 31
  else field e.seq.toNat 16 0 ||| field e.domain 16 16

def eventWord (e : Option FltEvent) (w : Nat) : Word := match e with | some e => e.word w | none => 0

/-- FLT_HIST_READ: the words of one entry go to the snapshot (R541). -/
def histRead (s : State) (age : Nat) : State :=
  let e := s.ctl.flt.hist[age]?
  { s with pl := (List.range 5).foldl (fun d w => d.setReg (Reg.histSnap w) (eventWord e w)) s.pl }

def fltStatusWord (c : Ctl) : Word :=
  let f := c.flt
  bitIf f.uncleared 0 ||| field (slotNums.filterMap f.slot).length 3 1 ||| field f.queue.length 6 4 ||| bitIf f.first.isSome 10
    ||| bitIf (decide (c.ns < f.forceTill)) 11 ||| field f.hist.length 6 16

def sparesWord (c : Ctl) : Word :=
  let tiles := ((List.range 272).filter fun t => c.tileState t == 1).length
  let pcs := ((List.range 20).map fun k => (c.pcMap k).left).sum
  let lasers := ((List.range 80).filter fun l => c.laserState l == 1).length
  let cores := ((List.range 104).filter fun n => c.coreState n == 1).length
  let banks := 8 - ((List.range 4).map fun q => SMap.find 0 c.flash.banksUsed q).sum
  field tiles 5 0 ||| field pcs 6 5 ||| field lasers 5 11 ||| field cores 4 16 ||| field banks 4 20

def recoveryWord (f : Flt) (i : Nat) : Word :=
  match f.slot i with
  | some x => bitIf true 0 ||| field x.level 2 1 ||| field x.unit 16 16
  | none => 0

def laserWord (c : Ctl) (l : Nat) : Word := field (SMap.find 0 c.flt.laserDrift l) 10 0 ||| field (c.laserState l).toNat 2 10

def tileSlowWord (c : Ctl) (t : Nat) : Word :=
  field (SMap.find 0 c.flt.tileSlow t) 10 0 ||| bitIf (SMap.find false c.flt.retirePending t) 10

def hbmStatusWord (c : Ctl) (k : Nat) : Word :=
  let h := c.stackHbm k
  field (c.pcMap k).left 2 0 ||| bitIf h.copying.isSome 2 ||| bitIf h.done 3 ||| field h.copyFrom 5 4
    ||| bitIf (SMap.find false c.flash.hbmShort k) 9

/-- XLT_PC_MAP_s (R222). -/
def pcMapWord (m : PcMap) : Word :=
  field (m.spare30.getD 0) 5 0 ||| bitIf m.spare30.isSome 5 ||| field (m.spare31.getD 0) 5 8 ||| bitIf m.spare31.isSome 13

end Sys2Proof.Machine
end

