-- ==== Sys2Proof/Machine/Image.lean ====
section
/-! DEFINITION. The lattice image: its layout, the checks of R64 in their order with the refusal codes of R65 and the
offsets of R564, and its sections as data (R49 to R63, R446 to R448, R452, R453, R460, R461, R467, R563). -/
namespace Sys2Proof.Machine

/-! ### Result codes (R65) -/

def ltOk : Nat := 0x00
def ltBadMagic : Nat := 0x01
def ltBadGen : Nat := 0x02
def ltBadLength : Nat := 0x03
def ltBadDirectory : Nat := 0x04
def ltBadCrc : Nat := 0x05
def ltBadSignature : Nat := 0x06
def ltUntrustedKey : Nat := 0x07
def ltRollback : Nat := 0x08
def ltWrongTarget : Nat := 0x09
def ltUnknownCritical : Nat := 0x0A
def ltBadRecord : Nat := 0x0B
def ltInconsistent : Nat := 0x0C
def ltTimeBudget : Nat := 0x0D
def ltStaticMismatch : Nat := 0x0E
def ltIncomplete : Nat := 0x0F
def ltWrongState : Nat := 0x10
def ltSwitchTooSoon : Nat := 0x11
def ltSwitchAborted : Nat := 0x12
def ltWeightDigest : Nat := 0x13
def ltNothingStaged : Nat := 0x14
def ltTooLate : Nat := 0x15
def ltWrongKind : Nat := 0x16

/-- No single field is at fault (R65). -/
def noOffset : Nat := 0xFFFFFFFF

/-- A refusal: its code and the offset of the field that failed. -/
structure Refused where
  code : Nat
  offset : Nat := noOffset
  deriving DecidableEq, Repr

/-! ### The directory (R51 to R54) -/

/-- A directory entry: where it stands, and its fields. -/
structure DirEnt where
  at_ : Nat
  type : Nat
  flags : Nat
  records : Nat
  off : Nat
  len : Nat
  crc : Nat
  deriving DecidableEq, Repr

def dirEntAt (b : List Byte) (i : Nat) : DirEnt :=
  let a := 128 + 32 * i
  { at_ := a, type := getLe b a 2, flags := getLe b (a + 2) 2, records := getLe b (a + 4) 4, off := getLe b (a + 8) 4
    len := getLe b (a + 12) 4, crc := getLe b (a + 16) 4 }

def tyClock : Nat := 1
def tyPartition : Nat := 2
def tyPortMode : Nat := 3
def tyShares : Nat := 4
def tyPolicy : Nat := 5
def tyWear : Nat := 6
def tyGroup : Nat := 7
def tyRouting : Nat := 0x10
def tyGates : Nat := 0x11
def tyVeins : Nat := 0x12
def tyComms : Nat := 0x13

def staticTypes : List Nat := [1, 2, 3, 4, 5, 6, 7]
def jobTypes : List Nat := [0x10, 0x11, 0x12, 0x13]
def knownType (t : Nat) : Bool := staticTypes.contains t || jobTypes.contains t

/-- The first field of an entry at fault, in the order of its layout (R51, R564): TYPE (R54), the JOB flag (R52), OFFSET and
LENGTH (R49). `earlier` are the entries before it; of two that overlap, the later one's OFFSET is the field. -/
def dirFault (total dirEnd : Nat) (jobOnly : Bool) (earlier : List DirEnt) (e : DirEnt) : Option Nat :=
  let clash := earlier.any fun x => decide (0 < x.len) && decide (0 < e.len) && decide (e.off < x.off + x.len)
    && decide (x.off < e.off + e.len)
  if knownType e.type && earlier.any (·.type == e.type) || jobOnly && staticTypes.contains e.type then some e.at_
  else if knownType e.type && (nbit e.flags 1 != jobTypes.contains e.type) then some (e.at_ + 2)
  else if e.off % 64 ≠ 0 ∨ e.off < dirEnd ∨ total - 256 < e.off + min 1 e.len ∨ clash then some (e.at_ + 8)
  else if total - 256 < e.off + e.len then some (e.at_ + 12)
  else none

/-- The first entry at fault, in directory order. -/
def dirFaults (total dirEnd : Nat) (jobOnly : Bool) : List DirEnt → List DirEnt → Option Nat
  | _, [] => none
  | earlier, e :: rest =>
    match dirFault total dirEnd jobOnly earlier e with
    | some o => some o
    | none => dirFaults total dirEnd jobOnly (earlier ++ [e]) rest

/-! ### Records with their offsets -/

/-- Offsets of `n` records of `size` bytes from `base`, as many as the section's length holds. -/
def recordsAt (base size n len : Nat) : List Nat := (List.range (min n (len / size))).map fun i => base + size * i

/-- Offsets of GATES schedules: each is 16 bytes and 16 for each of its windows. -/
def gatesAt (b : List Byte) (limit : Nat) : Nat → Nat → List Nat
  | 0, _ => []
  | n + 1, o => if limit < o + 16 then [] else o :: gatesAt b limit n (o + 16 + 16 * getLe b (o + 2) 2)

/-- Offsets of vein records: each is 16 bytes and 96 for each of its stages. -/
def veinsAt (b : List Byte) (limit : Nat) : Nat → Nat → List Nat
  | 0, _ => []
  | n + 1, o => if limit < o + 16 then [] else o :: veinsAt b limit n (o + 16 + 96 * getByte b (o + 2))

/-- Offsets of the stage records of the vein at `o`. -/
def stagesAt (b : List Byte) (limit o : Nat) : List Nat :=
  ((List.range (getByte b (o + 2))).map fun i => o + 16 + 96 * i).filter fun x => decide (x + 96 ≤ limit)

/-- Offsets of the window records of the schedule at `o`. -/
def winsAt (b : List Byte) (limit o : Nat) : List Nat :=
  ((List.range (getLe b (o + 2) 2)).map fun i => o + 16 + 16 * i).filter fun x => decide (x + 16 ≤ limit)

/-- Record size of the types whose LENGTH is RECORDS times it (R563). -/
def plainSize (t : Nat) : Option Nat :=
  if t = tyClock ∨ t = tyPortMode ∨ t = tyShares ∨ t = tyWear then some 8
  else if t = tyPartition ∨ t = tyRouting then some 16
  else if t = tyPolicy then some 4
  else if t = tyComms then some 48
  else none

/-- RECORDS within the counts of R52. -/
def countOk (t n : Nat) : Bool :=
  if t = tyClock ∨ t = tyShares ∨ t = tyWear ∨ t = tyGroup then n == 1
  else if t = tyPartition then decide (1 ≤ n) && decide (n ≤ 32)
  else if t = tyPortMode then n == 48
  else if t = tyRouting then decide (n ≤ 65536)
  else if t = tyGates then decide (n ≤ 48)
  else if t = tyVeins then decide (n ≤ 64)
  else if t = tyComms then decide (n ≤ 1024)
  else true

def DirEnt.limit (e : DirEnt) : Nat := e.off + e.len

/-- The offsets of a section's top-level records. -/
def DirEnt.recs (b : List Byte) (e : DirEnt) : List Nat :=
  match plainSize e.type with
  | some n => recordsAt e.off n e.records e.len
  | none =>
    if e.type = tyGroup then (if e.len < 32 then [] else [e.off])
    else if e.type = tyGates then gatesAt b e.limit e.records e.off
    else if e.type = tyVeins then veinsAt b e.limit e.records e.off
    else []

/-- The offsets of the member records of the GROUP section. -/
def DirEnt.members (b : List Byte) (e : DirEnt) : List Nat := recordsAt (e.off + 32) 16 (getLe b (e.off + 14) 2) (e.len - 32)

/-- The offsets of the parameter blocks that lie within a VEINS section. -/
def DirEnt.params (b : List Byte) (e : DirEnt) : List (Nat × Nat) :=
  ((e.recs b).map fun o => (stagesAt b e.limit o).filterMap fun s =>
    let p := e.off + getLe b (s + 4) 4
    if p + 16 ≤ e.limit then some (s, p) else none).flatten

/-- RECORDS and LENGTH agree with the contents (R563). -/
def lengthOk (b : List Byte) (e : DirEnt) : Bool :=
  match plainSize e.type with
  | some n => e.len == n * e.records
  | none =>
    if e.type = tyGroup then e.records == 1 && e.len == 32 + 16 * getLe b (e.off + 14) 2
    else if e.type = tyGates then
      let rs := e.recs b
      rs.length == e.records && e.len == (rs.map fun o => 16 + 16 * getLe b (o + 2) 2).sum
    else if e.type = tyVeins then
      let rs := e.recs b
      let end_ := (rs.map fun o => 16 + 96 * getByte b (o + 2)).sum
      rs.length == e.records && decide (end_ ≤ e.len)
        && (rs.all fun o => (stagesAt b e.limit o).length == getByte b (o + 2) && (stagesAt b e.limit o).all fun s =>
          decide (end_ ≤ getLe b (s + 4) 4) && decide (getLe b (s + 4) 4 + getLe b (s + 8) 4 ≤ e.len))
    else true

/-! ### Field values (R55, R57, R448, R452, R453, R460, R461, R467) -/

/-- Offsets of the conditions that do not hold. -/
def bad (l : List (Nat × Bool)) : List Nat := (l.filter fun x => !x.2).map (·.1)

def inRange (lo hi n : Nat) : Bool := decide (lo ≤ n) && decide (n ≤ hi)

/-- Four 16-bit values. -/
def quad16 (b : List Byte) (o : Nat) : List Nat := (List.range 4).map fun i => getLe b (o + 2 * i) 2

/-- The stage record at `s` with the parameter block at `p`. -/
def stageOf (b : List Byte) (s p : Nat) : StageRec :=
  { kind := getByte b s, tile := getLe b (s + 2) 2, param := slice b p 16, weightLen := getLe b (s + 12) 4
    weightAddr := getLe b (s + 16) 8, digest := BitVec.ofNat 384 (getBe b (s + 32) 48), digestAt := s + 32 }

def maxUnit : Nat := 65536

/-- Bytes of one weight column and the length that MATMUL's weights take (R467). -/
def weightBytes (s : StageRec) : Nat := ceilDiv (s.le 8 4 * rowBytes (s.le 1 1) (s.le 4 4)) 64 * 64

/-- An element format, or one of the MX formats. -/
def plainFmt (n : Nat) : Bool := inRange 1 9 n
def mxFmt (n : Nat) : Bool := inRange 0x11 0x15 n

/-- binary32 that is finite and non-zero. -/
def finite32 (n : Nat) : Bool := nbits n 30 23 != 255 && nbits n 30 0 != 0

/-- The fields of the parameter block at `p` (R461). -/
def paramChecks (s : StageRec) (p : Nat) : List (Nat × Bool) :=
  let elems (o : Nat) : Bool := s.le o 4 % 32 == 0 && decide (0 < s.le o 4)
  let units : Bool := decide (unitIn s ≤ maxUnit) && decide (unitOut s ≤ maxUnit)
  if s.kind = kUnseal ∨ s.kind = kSeal then [(p + 4, inRange 32 8160 (s.le 4 4) && s.le 4 4 % 32 == 0)]
  else if s.kind = kDequantize then [(p, mxFmt (s.le 0 1)), (p + 1, inRange 7 9 (s.le 1 1)), (p + 4, elems 4 && units)]
  else if s.kind = kQuantize then
    [(p, inRange 7 9 (s.le 0 1)), (p + 1, mxFmt (s.le 1 1)), (p + 2, decide (s.le 2 1 ≤ 1)), (p + 4, elems 4 && units),
      (p + 8, s.le 2 1 == 1 || s.le 8 8 == 0)]
  else if s.kind = kConvert then
    [(p, inRange 6 9 (s.le 0 1)), (p + 1, inRange 6 9 (s.le 1 1) && s.le 1 1 != s.le 0 1), (p + 4, finite32 (s.le 4 4)),
      (p + 8, decide (1 ≤ s.le 8 4) && units)]
  else if s.kind = kReduce then
    [(p, plainFmt (s.le 0 1)), (p + 1, plainFmt (s.le 1 1)), (p + 4, elems 4 && units), (p + 8, inRange 2 65536 (s.le 8 4))]
  else if s.kind = kMatmul then
    [(p, plainFmt (s.le 0 1) || mxFmt (s.le 0 1)),
      (p + 1, (plainFmt (s.le 1 1) || mxFmt (s.le 1 1)) && (s.le 0 1 == 6) == (s.le 1 1 == 6)),
      (p + 2, inRange 7 9 (s.le 2 1)), (p + 4, elems 4 && decide (unitIn s ≤ maxUnit)),
      (p + 8, decide (1 ≤ s.le 8 4) && decide (unitOut s ≤ maxUnit))]
  else if s.kind = kAttention then
    [(p, [0x14, 0x15, 0x07].contains (s.le 0 1)), (p + 1, s.le 1 1 == 0 || (s.le 1 1 == 1 && s.le 0 1 != 7)),
      (p + 2, [64, 128, 256].contains (s.le 2 2)), (p + 4, [16, 32, 64, 128].contains (s.le 4 2)),
      (p + 6, inRange 1 64 (s.le 6 2)), (p + 8, finite32 (s.le 8 4) && !nbit (s.le 8 4) 31)]
  else if s.kind = kScatter ∨ s.kind = kGather then
    [(p, s.le 0 8 % 64 == 0 && decide (s.le 0 8 < 2 ^ 57)), (p + 8, inRange 8 65528 (s.le 8 4) && s.le 8 4 % 8 == 0),
      (p + 12, decide (1 ≤ s.le 12 4))]
  else
    [(p, inRange 1 65536 (s.le 0 4)), (p + 4, inRange 1 65536 (s.le 4 4)),
      (p + 8, if s.kind = kPack then decide (s.le 8 4 + s.le 4 4 ≤ s.le 0 4) else decide (s.le 8 4 + s.le 0 4 ≤ s.le 4 4)),
      (p + 12, s.kind == kUnpack || s.le 12 1 == 0)]

/-- The stage kinds that a binding permits (R453); `last` says that the stage is the vein's last. -/
def kindAllowed (binding : Nat) (s : StageRec) (last : Bool) : Bool :=
  if binding = 3 then s.kind != kScatter || last
  else if s.kind = kDequantize ∨ s.kind = kConvert ∨ s.kind = kPack ∨ s.kind = kUnpack then true
  else if s.kind = kQuantize then s.le 2 1 == 0
  else if s.kind = kUnseal ∨ s.kind = kSeal ∨ s.kind = kMatmul then binding != 2
  else false

/-- Whether bytes lie wholly inside a partition's stacked units. -/
def unitsHold (r : PartRec) (a n : Nat) : Bool := decide (r.hbmFirst * 2 ^ 30 ≤ a) && decide (a + n ≤ (r.hbmFirst + r.hbmUnits) * 2 ^ 30)

/-- The fields of a stage record and its parameters. -/
def stageChecks (b : List Byte) (parts : List PartRec) (part binding : Nat) (last : Bool) (s p : Nat) (inside : Bool) :
    List (Nat × Bool) :=
  let r := stageOf b s p
  let n := r.weightLen
  let known := inRange 1 12 r.kind
  [(s, known && kindAllowed binding r last), (s + 2, decide (r.tile ≤ 255)), (s + 4, getLe b (s + 4) 4 % 8 == 0),
    (s + 8, getLe b (s + 8) 4 == 16),
    (s + 12, (n == 0 || (inRange 64 4194304 n && n % 64 == 0))
      && (if r.kind = kMatmul then !inside || n == weightBytes r else n == 0)),
    (s + 16, if n = 0 then r.weightAddr == 0 else
      r.weightAddr % 64 == 0 && (match parts.find? (·.part == part) with | some x => unitsHold x r.weightAddr n | none => true)),
    (s + 32, n != 0 || r.digest == 0)] ++ (if known && inside then paramChecks r p else [])

/-- BIND_ARG by BINDING (R452). `quota` is the queue-pair range of the vein's partition, where it is known: a full image is
checked while no partition has one in effect, and any queue pair that exists passes then (DESIGN CHOICE, log 102). -/
def bindArgOk (quota : Option Range) (binding arg : Nat) : Bool :=
  if binding = 0 ∨ binding = 1 then
    match quota with
    | some r => decide (r.base ≤ arg / 1024) && decide (arg / 1024 < r.base + r.count)
    | none => decide (arg < 2 ^ 20)
  else if binding = 2 then arg / 2 ^ 10 % 2 ^ 21 == 0
  else arg == 0

/-- Windows in rising OPEN order without overlap, each within the period. R564 names no field for a window out of order or
over another: the model refuses it with BAD_RECORD at the later window's OPEN (DESIGN CHOICE, log 134). -/
def windowChecks (b : List Byte) (cycle : Nat) : Nat → List Nat → List (Nat × Bool)
  | _, [] => []
  | from_, w :: ws =>
    let o := getLe b w 4
    let c := getLe b (w + 4) 4
    [(w, decide (from_ ≤ o)), (w + 4, decide (o < c) && decide (c ≤ cycle)), (w + 8, decide (getByte b (w + 8) < 128))]
      ++ windowChecks b cycle (max c (o + 1)) ws

/-- The fields of a section's records. `parts` and `extent` are those of the image, or of the running one. -/
def fieldFaults (b : List Byte) (quota : Nat → Option Range) (groupId selfNode : Nat) (parts : List PartRec) (extent : List Nat)
    (e : DirEnt) : List Nat :=
  let rs := e.recs b
  let u8 (o : Nat) : Nat := getByte b o
  let u16 (o : Nat) : Nat := getLe b o 2
  let u32 (o : Nat) : Nat := getLe b o 4
  let each (f : Nat → List (Nat × Bool)) : List Nat := bad ((rs.map f).flatten)
  if e.type = tyClock then each fun o => [(o, decide (u8 o ≤ 2))]
  else if e.type = tyPartition then each fun o =>
    [(o, decide (u8 o ≤ 31)), (o + 2, decide (u16 (o + 2) ≤ 899)), (o + 4, decide (u16 (o + 2) + u16 (o + 4) ≤ 900))]
  else if e.type = tyPortMode then each fun o =>
    [(o, decide (u8 o ≤ 47)), (o + 1, decide (u8 (o + 1) ≤ 2)), (o + 4, u8 (o + 1) == 2 || u32 (o + 4) % 2 ^ 20 == 0)]
  else if e.type = tyPolicy then each fun o => [(o, (sourceOf (u16 o)).isSome), (o + 2, decide (u8 (o + 2) ≤ 3))]
  else if e.type = tyWear then each fun o =>
    [(o, inRange 5 50 (u8 o)), (o + 1, inRange 10 100 (u8 (o + 1))), (o + 4, inRange 1 1000000 (u32 (o + 4)))]
  else if e.type = tyGroup then
    (each fun o =>
      [(o, u32 o == groupId), (o + 4, u32 (o + 4) % 2 ^ 20 != 0xFFFFF), (o + 9, u8 (o + 9) != 0),
        (o + 10, inRange 100 60000 (u16 (o + 10))), (o + 12, inRange 500 10000 (u16 (o + 12))),
        (o + 14, inRange 1 1024 (u16 (o + 14))), (o + 16, (quad16 b (o + 16)).all (inRange 1 4096))])
    ++ bad ((e.members b).map fun m => (m + 4, ((quad16 b (m + 4)).zip (quad16 b (e.off + 16))).all fun x => decide (x.1 < x.2)))
  else if e.type = tyRouting then each fun o =>
    let n := u8 (o + 4)
    [(o, u32 o % 2 ^ 20 != 0xFFFFF && u32 o % 2 ^ 20 != selfNode), (o + 4, inRange 1 4 n),
      (o + 8, (List.range 4).all fun i => if i < n then decide (u8 (o + 8 + i) ≤ 47) else u8 (o + 8 + i) == 0xFF)]
  else if e.type = tyGates then each fun o =>
    [(o, decide (u8 o ≤ 47)), (o + 2, inRange 1 256 (u16 (o + 2))), (o + 4, inRange 4000 4000000000 (u32 (o + 4)))]
      ++ windowChecks b (u32 (o + 4)) 0 (winsAt b e.limit o)
  else if e.type = tyVeins then each fun o =>
    let ss := stagesAt b e.limit o
    [(o, decide (u8 o ≤ 63)), (o + 2, inRange 1 12 (u8 (o + 2))), (o + 3, decide (u8 (o + 3) ≤ 3)),
      (o + 4, bindArgOk (quota (u8 (o + 1))) (u8 (o + 3)) (u32 (o + 4)))]
      ++ (ss.map fun s =>
        let p := e.off + u32 (s + 4)
        stageChecks b parts (u8 (o + 1)) (u8 (o + 3)) (ss.getLast? == some s) s p (decide (p + 16 ≤ e.limit))).flatten
  else if e.type = tyComms then each fun o =>
    let axes := (List.range 4).filter fun a => nbit (u8 (o + 2)) a
    let at_ (l : List Nat) (a : Nat) : Nat := l[a]?.getD 0
    [(o, decide (u16 o ≤ 1023)), (o + 2, u8 (o + 2) % 16 != 0), (o + 3, decide (u8 (o + 3) ≤ 63) || u8 (o + 3) == 0xFF),
      (o + 8, axes.all fun a => decide (at_ (quad16 b (o + 8)) a
        + (at_ (quad16 b (o + 16)) a - 1) * at_ (quad16 b (o + 24)) a < at_ extent a)),
      (o + 16, (quad16 b (o + 16)).all fun x => decide (1 ≤ x)), (o + 24, (quad16 b (o + 24)).all fun x => decide (1 ≤ x))]
  else []

/-! ### Reserved bits and padding (R4, R49) -/

/-- The bytes of a parameter block that R461 lists. -/
def paramSpans (kind : Nat) : List (Nat × Nat) :=
  if kind = kUnseal ∨ kind = kSeal ∨ kind = kDequantize then [(0, 2), (4, 4)]
  else if kind = kQuantize then [(0, 3), (4, 12)]
  else if kind = kConvert ∨ kind = kReduce then [(0, 2), (4, 8)]
  else if kind = kMatmul then [(0, 3), (4, 8)]
  else if kind = kAttention then [(0, 12)]
  else if kind = kScatter ∨ kind = kGather then [(0, 16)]
  else [(0, 13)]

/-- The bytes of a record that carry fields, and the reserved bits within them. -/
def recordSpans (t : Nat) : List (Nat × Nat) × List (Nat × Nat) :=
  if t = tyClock then ([(0, 1)], [])
  else if t = tyPartition then ([(0, 1), (2, 4), (8, 8)], [])
  else if t = tyPortMode then ([(0, 2), (4, 4)], [(6, 0xF0), (7, 0xFF)])
  else if t = tyShares then ([(0, 8)], [])
  else if t = tyPolicy then ([(0, 3)], [])
  else if t = tyWear then ([(0, 2), (4, 4)], [])
  else if t = tyGroup then ([(0, 24)], [(6, 0xF0), (7, 0xFF)])
  else if t = tyRouting then ([(0, 6), (8, 4)], [(2, 0xF0), (3, 0xFF), (5, 0xFC)])
  else if t = tyGates then ([(0, 1), (2, 14)], [])
  else if t = tyVeins then ([(0, 8)], [])
  else ([(0, 5), (8, 24)], [(2, 0xF0)])

/-- Spans moved to an offset. -/
def spansAt (o : Nat) (l : List (Nat × Nat)) : List (Nat × Nat) := l.map fun x => (o + x.1, x.2)

/-- The spans that carry fields in a section, and its reserved bits as (offset, mask). -/
def sectionSpans (b : List Byte) (e : DirEnt) : List (Nat × Nat) × List (Nat × Nat) :=
  if !knownType e.type then ([(e.off, e.len)], [])
  else
    let x := recordSpans e.type
    let rs := e.recs b
    let base := ((rs.map fun o => spansAt o x.1).flatten, (rs.map fun o => spansAt o x.2).flatten)
    if e.type = tyGroup then
      (base.1 ++ ((e.members b).map fun o => [(o, 12)]).flatten,
        base.2 ++ ((e.members b).map fun o => [(o + 2, 0xF0), (o + 3, 0xFF)]).flatten)
    else if e.type = tyGates then
      (base.1 ++ (rs.map fun o => (winsAt b e.limit o).map fun w => (w, 9)).flatten, base.2)
    else if e.type = tyVeins then
      (base.1 ++ ((rs.map fun o => (stagesAt b e.limit o).map fun s => [(s, 1), (s + 2, 22), (s + 32, 48)]).flatten).flatten
        ++ ((e.params b).map fun x => spansAt x.2 (paramSpans (getByte b x.1))).flatten, base.2)
    else base

/-- Reserved bits of the header and the directory, the fields of the four parts, and every byte outside them that is not
zero. -/
def reservedFaults (b : List Byte) (total : Nat) (es : List DirEnt) : List Nat :=
  let secs := es.map (sectionSpans b)
  let spans := [(0, 52)] ++ es.map (fun e => (e.at_, 20)) ++ (secs.map (·.1)).flatten
    ++ [(total - 256, 5), (total - 248, 97), (total - 144, 96)]
  let masks := [(14, 0xFE), (15, 0xFF)] ++ (es.map fun e => [(e.at_ + 2, 0xFC), (e.at_ + 3, 0xFF)]).flatten
    ++ (secs.map (·.2)).flatten
  let outside := ((b.take total).zipIdx.filter fun x => x.1 != 0
    && !(spans.any fun s => decide (s.1 ≤ x.2) && decide (x.2 < s.1 + s.2))).map (·.2)
  let masked := (masks.filter fun m => (getByte b m.1).land m.2 != 0).map (·.1)
  outside ++ masked

/-! ### Sections as data -/

def sectionOf (es : List DirEnt) (t : Nat) : Option DirEnt := es.find? (·.type == t)

/-- The records of a section of one type. -/
def recsOf (b : List Byte) (es : List DirEnt) (t : Nat) : List Nat := match sectionOf es t with | some e => e.recs b | none => []

def partRecs (b : List Byte) (es : List DirEnt) : List PartRec :=
  (recsOf b es tyPartition).map fun o =>
    { part := getByte b o, hbmFirst := getLe b (o + 2) 2, hbmUnits := getLe b (o + 4) 2
      tileGroups := BitVec.ofNat 64 (getLe b (o + 8) 8) }

def groupOf (b : List Byte) (es : List DirEnt) : GroupRec :=
  match sectionOf es tyGroup with
  | none => {}
  | some e =>
    let o := e.off
    { groupId := getLe b o 4, selfNode := getLe b (o + 4) 4 % 2 ^ 20, priority := getByte b (o + 8), maxHops := getByte b (o + 9)
      deadTimeUs := getLe b (o + 10) 2, leadUs := getLe b (o + 12) 2, extent := quad16 b (o + 16)
      members := (e.members b).map fun m => { node := getLe b m 4 % 2 ^ 20, coord := quad16 b (m + 4) } }

def staticOf (b : List Byte) (es : List DirEnt) : Static :=
  let first (t : Nat) : Nat := ((recsOf b es t).head?).getD 0
  let w := first tyWear
  { coreFreq := getByte b (first tyClock), parts := partRecs b es
    ports := (recsOf b es tyPortMode).map fun o =>
      { port := getByte b o, mode := getByte b (o + 1), peer := getLe b (o + 4) 4 % 2 ^ 20 }
    shares := (List.range 8).map fun i => getByte b (first tyShares + i)
    policy := (recsOf b es tyPolicy).map fun o => (getLe b o 2, getByte b (o + 2))
    laserDrift := getByte b w, tileSlow := getByte b (w + 1), hbmCeRate := getLe b (w + 4) 4, group := groupOf b es }

def jobOf (b : List Byte) (es : List DirEnt) (jobId : Nat) : Job :=
  let limit (t : Nat) : Nat := match sectionOf es t with | some e => e.limit | none => 0
  let off (t : Nat) : Nat := match sectionOf es t with | some e => e.off | none => 0
  let comm := match sectionOf es tyComms with | some e => slice b e.off e.len | none => []
  { jobId := jobId
    routes := (recsOf b es tyRouting).map fun o =>
      { dest := getLe b o 4 % 2 ^ 20, ports := (List.range (getByte b (o + 4))).map fun i => getByte b (o + 8 + i)
        adaptive := nbit (getByte b (o + 5)) 0, fabric := nbit (getByte b (o + 5)) 1 }
    gates := (recsOf b es tyGates).map fun o =>
      { port := getByte b o, cycle := getLe b (o + 4) 4, base := BitVec.ofNat 64 (getLe b (o + 8) 8)
        wins := (winsAt b (limit tyGates) o).map fun w =>
          { openAt := getLe b w 4, closeAt := getLe b (w + 4) 4, mask := getByte b (w + 8) } }
    veins := (recsOf b es tyVeins).map fun o =>
      { vein := getByte b o, part := getByte b (o + 1), binding := getByte b (o + 3), bindArg := getLe b (o + 4) 4
        stages := (stagesAt b (limit tyVeins) o).map fun s => stageOf b s (off tyVeins + getLe b (s + 4) 4) }
    comms := (recsOf b es tyComms).map fun o =>
      { comm := getLe b o 2, mask := getByte b (o + 2), vein := getByte b (o + 3), part := getByte b (o + 4)
        origin := quad16 b (o + 8), extent := quad16 b (o + 16), stride := quad16 b (o + 24) }
    commTag := BitVec.ofNat 64 ((sha384 comm).toNat / 2 ^ 320) }

/-! ### Cross-record consistency (R64 step 8) -/

/-- Offsets, `step` after each record, of the records whose key has appeared before. -/
def repeats {α : Type} [DecidableEq α] (key : Nat → α) (step : Nat) : List Nat → List α → List Nat
  | [], _ => []
  | o :: rest, seen => (if seen.contains (key o) then [o + step] else []) ++ repeats key step rest (key o :: seen)

/-- Partitions that overlap an earlier one. -/
def partClashes (b : List Byte) : List Nat → List Nat → List Nat
  | _, [] => []
  | seen, o :: rest =>
    let lo (x : Nat) : Nat := getLe b (x + 2) 2
    let n (x : Nat) : Nat := getLe b (x + 4) 2
    let hbm := seen.any fun x => decide (0 < n x) && decide (0 < n o) && decide (lo o < lo x + n x) && decide (lo x < lo o + n o)
    let tiles := seen.any fun x => (getLe b (x + 8) 8).land (getLe b (o + 8) 8) != 0
    (if hbm then [o + 2] else []) ++ (if tiles then [o + 8] else []) ++ partClashes b (seen ++ [o]) rest

/-- Mode of a port by its PORT_MODE record. -/
def modeOf (ports : List PortRec) (n : Nat) : Nat := match ports.find? (·.port == n) with | some p => p.mode | none => 0

/-- 512 KiB input queues that find no room in stacked memory without a partition, quadrant by quadrant (R447): the stages
placed on tiles in image order, with what each tile and each quadrant has used. -/
structure Placed where
  /-- Per tile: stages placed, and bytes of near store used. -/
  stages : SMap Nat := []
  near : SMap Nat := []
  /-- Queues in stacked memory, per quadrant. -/
  spill : SMap Nat := []
  bad : List Nat := []
  deriving DecidableEq, Repr

/-- Stacked queues that a quadrant has room for. -/
def queueRoom (parts : List PartRec) (q : Nat) : Nat :=
  2048 * ((List.range 225).filter fun u =>
    !(parts.any fun r => decide (r.hbmFirst ≤ 225 * q + u) && decide (225 * q + u < r.hbmFirst + r.hbmUnits))).length

def nearStore : Nat := 2 ^ 22
def queueBytes : Nat := 2 ^ 19

/-- The weights of all stages of a tile. -/
def tileWeights (job : Job) (tile : Nat) : Nat :=
  ((job.veins.map fun v => (v.stages.filter (·.tile == tile)).map (·.weightLen)).flatten).sum

/-- One stage is placed: its tile's weights first, then a queue for each stage (R446, R447). -/
def placeStage (parts : List PartRec) (job : Job) (served : Nat → Bool) (x : Placed) (at_ tile : Nat) : Placed :=
  let n := SMap.find 0 x.stages tile
  let q := tile / 64
  let weights := tileWeights job tile
  let near := SMap.find 0 x.near tile
  let fits := decide (weights + near + queueBytes ≤ nearStore)
  let room := decide (SMap.find 0 x.spill q < queueRoom parts q)
  if 4 ≤ n ∨ !served tile ∨ nearStore < weights ∨ !(fits || room) then { x with bad := x.bad ++ [at_] }
  else
    { x with
      stages := SMap.put 0 x.stages tile (n + 1)
      near := if fits then SMap.put 0 x.near tile (near + queueBytes) else x.near
      spill := if fits then x.spill else SMap.put 0 x.spill q (SMap.find 0 x.spill q + 1) }

/-- Every stage placed in image order. -/
def placeStages (parts : List PartRec) (job : Job) (served : Nat → Bool) : Placed :=
  (job.veins.map fun v => v.stages.map fun s => (s.digestAt - 30, s.tile)).flatten.foldl
    (fun x s => placeStage parts job served x s.1 s.2) {}

/-- The stages of a stream or communicator vein whose input unit is not the output unit before it. -/
def unitBreaks : List StageRec → List Nat
  | a :: b :: rest => (if unitOut a ≠ unitIn b then [b.digestAt - 32] else []) ++ unitBreaks (b :: rest)
  | _ => []

/-- Offsets of the records that do not agree with each other: of two records that conflict, the field of the one later in the
image (R564). -/
def crossFaults (b : List Byte) (es : List DirEnt) (full : Bool) (st : Static) (job : Job) (served : Nat → Bool) : List Nat :=
  let u8 (o : Nat) : Nat := getByte b o
  let shares := recsOf b es tyShares
  let sum4 (o : Nat) : Nat := ((List.range 4).map fun i => u8 (o + i)).sum
  let group := match sectionOf es tyGroup with | some e => e.members b | none => []
  let node (o : Nat) : Nat := getLe b o 4 % 2 ^ 20
  let isMember (n : Nat) : Bool := st.group.members.any (·.node == n)
  let static := if !full then [] else
    repeats u8 0 (recsOf b es tyPartition) [] ++ partClashes b [] (recsOf b es tyPartition)
      ++ repeats u8 0 (recsOf b es tyPortMode) []
      ++ bad ((recsOf b es tyPortMode).map fun o => (o + 4, u8 (o + 1) != 2 || isMember (node (o + 4))))
      ++ bad ((shares.map fun o => [(o, decide (sum4 o ≤ 32)), (o + 4, decide (sum4 (o + 4) ≤ 32))]).flatten)
      ++ repeats (fun o => getLe b o 2) 0 (recsOf b es tyPolicy) []
      ++ bad ((recsOf b es tyGroup).map fun o => (o + 4, isMember (node (o + 4))))
      ++ repeats node 0 group [] ++ repeats (fun o => quad16 b (o + 4)) 4 group []
  let partOk (p : Nat) : Bool := st.parts.any (·.part == p)
  let modeAt (n o field : Nat) : Nat :=
    match (recsOf b es tyPortMode).find? fun r => u8 r == n with
    | some r => if o < r then r + 1 else o + field
    | none => o + field
  let tilesAt (p o field : Nat) : Nat :=
    match (recsOf b es tyPartition).find? fun r => u8 r == p with
    | some r => if o < r then r + 8 else o + field
    | none => o + field
  let commAt (m o field : Nat) : Nat :=
    match (recsOf b es tyComms).find? fun r => getLe b r 2 == m with
    | some r => if o < r then r + 3 else o + field
    | none => o + field
  let veins := (recsOf b es tyVeins).zip job.veins
  static ++ repeats node 0 (recsOf b es tyRouting) []
    ++ bad (((recsOf b es tyRouting).map fun o => (List.range (u8 (o + 4))).map fun i =>
        (modeAt (u8 (o + 8 + i)) o 8, modeOf st.ports (u8 (o + 8 + i)) == (if nbit (u8 (o + 5)) 1 then 1 else 2))).flatten)
    ++ repeats u8 0 (recsOf b es tyGates) []
    ++ bad ((recsOf b es tyGates).map fun o => (modeAt (u8 o) o 0, modeOf st.ports (u8 o) != 0))
    ++ repeats u8 0 (recsOf b es tyVeins) []
    ++ bad ((veins.map fun x =>
        [(x.1 + 1, partOk x.2.part),
          (commAt (x.2.bindArg % 2 ^ 10) x.1 4, x.2.binding != 2 || job.comms.any fun m => m.comm == x.2.bindArg % 2 ^ 10 && m.vein == x.2.vein)]
        ++ x.2.stages.map fun s => (tilesAt x.2.part (s.digestAt - 32) 2, match st.parts.find? (·.part == x.2.part) with
            | some r => r.tileGroups.getLsbD (s.tile / 4)
            | none => true)).flatten)
    ++ (repeats (fun o => (u8 (o + 3), if u8 (o + 3) ≤ 1 then getLe b (o + 4) 4 else 2 ^ 32 + o)) 4 (recsOf b es tyVeins) [])
    ++ (veins.map fun x => if x.2.binding = 3 then [] else unitBreaks x.2.stages).flatten
    ++ (placeStages st.parts job served).bad
    ++ repeats (fun o => getLe b o 2) 0 (recsOf b es tyComms) []
    ++ bad (((recsOf b es tyComms).map fun o =>
        [(o + 3, u8 (o + 3) == 0xFF || job.veins.any (·.vein == u8 (o + 3))), (o + 4, partOk (u8 (o + 4)))]).flatten)

/-! ### The checks in order (R64) -/

/-- The lowest of some offsets. -/
def lowest (l : List Nat) : Option Nat := l.min?

/-- The logical tiles that an image or a switch would find served: those of now and those a reserve tile can take (R533). -/
def servedTiles (f : Flash) : Nat → Bool :=
  let g := (unserved f).foldl serveTile f
  fun l => (SMap.find (some 0) g.tileOf l).isSome

def magicImage : Nat := 0x4C415431
def magicSig : Nat := 0x53474E31

/-- Steps 1 to 4: header, length, signature, kind and target. -/
def checkOuter (c : Ctl) (jobOnly : Bool) (delivered : Nat) (b : List Byte) : Option Refused :=
  let total := getLe b 8 4
  let sig := total - 256
  let key := slice b (sig + 8) 97
  let digest := sha384 (b.take sig)
  let point := getByte key 0 == 4 && ecOn (beNat (slice key 1 48)) (beNat (slice key 49 48))
  let verified := point
    && ecdsaVerify (beNat (slice key 1 48)) (beNat (slice key 49 48)) digest (getBe b (sig + 112) 48) (getBe b (sig + 160) 48)
  let trusted := (List.range 4).any fun i => SMap.find none c.flash.trust i == some (sha384 key)
  if getLe b 0 4 ≠ magicImage then some { code := ltBadMagic, offset := 0 }
  else if getByte b 4 ≠ 1 then some { code := ltBadGen, offset := 4 }
  else if getLe b 6 2 ≠ 128 then some { code := ltBadMagic, offset := 6 }
  else if total ≠ delivered ∨ total < Config.imageMin ∨ Config.imageMax < total ∨ total % 64 ≠ 0 then
    some { code := ltBadLength, offset := 8 }
  else if getLe b sig 4 ≠ magicSig then some { code := ltBadMagic, offset := sig }
  else if getByte b (sig + 4) ≠ 1 then some { code := ltBadSignature, offset := sig + 4 }
  else if !verified then some { code := ltBadSignature, offset := sig + 112 }
  else if !trusted then some { code := ltUntrustedKey, offset := sig + 8 }
  else if getLe b 28 2 < c.flash.floor.toNat then some { code := ltRollback, offset := 28 }
  else if nbit (getLe b 14 2) 0 ≠ jobOnly then some { code := ltWrongKind, offset := 14 }
  else if getLe b 40 8 ≠ 0 ∧ getLe b 40 8 ≠ c.flash.serial.toNat then some { code := ltWrongTarget, offset := 40 }
  else if jobOnly ∧ c.image.map (·.groupId) ≠ some (getLe b 48 4) then some { code := ltWrongTarget, offset := 48 }
  else none

/-- Steps 5 and 6: the directory and the CRCs. -/
def checkSections (jobOnly : Bool) (b : List Byte) : Except Refused (List DirEnt) :=
  let total := getLe b 8 4
  let n := getLe b 12 2
  let dirEnd := 128 + 32 * n
  if n < 1 ∨ 64 < n ∨ total - 256 < dirEnd then .error { code := ltBadDirectory, offset := 12 }
  else
    let es := (List.range n).map (dirEntAt b)
    let need := if jobOnly then jobTypes else staticTypes ++ jobTypes
    match dirFaults total dirEnd jobOnly [] es with
    | some o => .error { code := ltBadDirectory, offset := o }
    | none =>
      if !(need.all fun t => es.any (·.type == t)) then .error { code := ltBadDirectory }
      else
        match es.find? fun e => (crc32c (slice b e.off e.len)).toNat != e.crc with
        | some e => .error { code := ltBadCrc, offset := e.at_ + 16 }
        | none => .ok es

/-- Step 7: unknown critical sections, record fields, section lengths, reserved and padding bytes. -/
def checkRecords (c : Ctl) (quota : Nat → Option Range) (jobOnly : Bool) (b : List Byte) (es : List DirEnt) : Option Refused :=
  let known := es.filter fun e => knownType e.type
  let st := if jobOnly then c.static else staticOf b es
  let fields := bad [(30, getLe b 30 2 != 0)] ++ bad (known.map fun e => (e.at_ + 4, countOk e.type e.records))
    ++ (known.map (fieldFaults b quota (getLe b 48 4) st.group.selfNode st.parts st.group.extent)).flatten
  match es.find? fun e => !knownType e.type && nbit e.flags 0 with
  | some e => some { code := ltUnknownCritical, offset := e.at_ + 2 }
  | none =>
    match lowest fields with
    | some o => some { code := ltBadRecord, offset := o }
    | none =>
      match known.find? fun e => !lengthOk b e with
      | some e => some { code := ltBadRecord, offset := e.at_ + 12 }
      | none => (lowest (reservedFaults b (getLe b 8 4) es)).map fun o => { code := ltBadRecord, offset := o }

/-- STATIC_TAG as computed: the first 8 bytes of SHA-384 over the static sections in directory order (R50). -/
def staticTagOf (b : List Byte) (es : List DirEnt) : DWord :=
  BitVec.ofNat 64 ((sha384 ((es.filter fun e => staticTypes.contains e.type).map fun e => slice b e.off e.len).flatten).toNat / 2 ^ 320)

/-- Step 8: consistency, STATIC_TAG, time budget (R56). -/
def checkCross (c : Ctl) (jobOnly : Bool) (b : List Byte) (es : List DirEnt) : Option Refused :=
  let st := if jobOnly then c.static else staticOf b es
  let job := jobOf b es (getLe b 30 2)
  let tag := BitVec.ofNat 64 (getBe b 32 8)
  let want := if jobOnly then (match c.image with | some i => i.staticTag | none => 0) else staticTagOf b es
  match lowest (crossFaults b es (!jobOnly) st job (servedTiles c.flash)) with
  | some o => some { code := ltInconsistent, offset := o }
  | none =>
    if tag ≠ want then some { code := ltStaticMismatch, offset := 32 }
    else if !jobOnly ∧ 14 ≤ st.group.maxHops then
      some { code := ltTimeBudget, offset := (match sectionOf es tyGroup with | some e => e.off + 9 | none => 0) }
    else none

/-- The checks of an image, and what it says: of a JOB_ONLY image the job, with the running image's other values. -/
def checkImage (c : Ctl) (quota : Nat → Option Range) (jobOnly : Bool) (delivered : Nat) (b : List Byte) : Except Refused Image :=
  match checkOuter c jobOnly delivered b with
  | some r => .error r
  | none =>
    match checkSections jobOnly b with
    | .error r => .error r
    | .ok es =>
      match checkRecords c quota jobOnly b es with
      | some r => .error r
      | none =>
        match checkCross c jobOnly b es with
        | some r => .error r
        | none => .ok
          { version := BitVec.ofNat 32 (getLe b 24 4), security := getLe b 28 2, groupId := getLe b 48 4
            staticTag := BitVec.ofNat 64 (getBe b 32 8), static := if jobOnly then c.static else staticOf b es
            job := jobOf b es (getLe b 30 2) }

/-- The digest that the two passes compare (R60, R66). -/
def imageDigest (b : List Byte) : BitVec 384 := sha384 (b.take (getLe b 8 4 - 256))

end Sys2Proof.Machine
end

