-- ==== Sys2Proof/Machine/Lat.lean ====
section
/-! DEFINITION. The image loader and the job switch (R58, R64 to R82, R110, R111, R178, R395, R450, R565). -/
namespace Sys2Proof.Machine

/-! ### Commands (R73 to R78) -/

def ltApply : Nat := 1
def ltWriteSlot : Nat := 2
def ltSetActive : Nat := 3
def ltStage : Nat := 4
def ltArm : Nat := 5
def ltDisarm : Nat := 6
def ltLoadWeights : Nat := 7
def ltDiscard : Nat := 8

/-- The command that runs ends (R65). -/
def latEnd (s : State) (result : Nat) (offset : Nat := noOffset) : State :=
  onLat (fun l => { l with busy := false, phase := .idle, parsed := none, result := result, failOffset := BitVec.ofNat 32 offset }) s

/-- A command ends as it starts, with the slot check of BOOT, where one runs, undisturbed. -/
def latNow (s : State) (result : Nat) : State :=
  onLat (fun l => { l with result := result, failOffset := BitVec.ofNat 32 noOffset }) s

/-- A command is accepted; the one before it no longer shows DROPPED (R74). While it runs, RESULT keeps the code of the
command before it, beside the new LAST_CMD: R74 gives RESULT no value meanwhile (DESIGN CHOICE, log 134). -/
def latAccept (s : State) (cmd : Nat) : State := onLat (fun l => { l with lastCmd := cmd, dropped := false }) s

/-- The queue-pair quota against which a STAGE checks the streams of its veins (R452); none for a full image (log 102). -/
def quotaFor (d : Plane) (jobOnly : Bool) (p : Nat) : Option Range := if jobOnly then some (d.part p).qps else none

/-- A length that LAT_LEN may have (R64). -/
def lenOk (n : Nat) : Bool := decide (Config.imageMin ≤ n) && decide (n ≤ Config.imageMax) && n % 64 == 0

/-- A command that reads an image from host memory begins its first pass, at LAT_SRC as written: R72 says that bits [5:0]
of LAT_SRC_LO must be 0 and gives no effect of others, which the model keeps and uses (DESIGN CHOICE, log 134). -/
def beginRead (s : State) (cmd : Nat) (slotB : Bool) : State :=
  let n := (s.pl.reg Reg.latLen).toNat
  if !lenOk n then latNow s ltBadLength
  else onLat (fun l => { l with
    busy := true, phase := .firstPass, reading := cmd, slotB := slotB, src := (s.pl.reg64 Reg.latSrcLo).toNat, len := n }) s

def slotOf (f : Flash) (slotB : Bool) : ImageSlot := if slotB then f.slotB else f.slotA
def setSlot (f : Flash) (slotB : Bool) (x : ImageSlot) : Flash := if slotB then { f with slotB := x } else { f with slotA := x }

/-- The lead that ARM asks for, in ticks (R77). -/
def armLead (c : Ctl) : Nat := c.group.leadUs * 4000 + 4000000

/-- A job is staged (R78). -/
def Lat.hasStaged (l : Lat) : Bool := l.staged.isSome
def Lat.isArmed (l : Lat) : Bool := l.armed.isSome

/-- An accepted loader command. -/
def latRun (s : State) (cmd : Nat) (slotB : Bool) : State :=
  let l := s.ctl.lat
  let st := s.ctl.dev.state
  if cmd = ltApply then
    if st ≠ .awaitHost ∨ l.phase ≠ .idle then latNow s ltWrongState else beginRead s ltApply slotB
  else if cmd = ltWriteSlot then
    if l.phase ≠ .idle ∨ (l.fromSlot ∧ s.ctl.image.isSome ∧ s.ctl.flash.bootB = slotB) then latNow s ltWrongState
    else beginRead s ltWriteSlot slotB
  else if cmd = ltSetActive then
    if l.phase ≠ .idle then latNow s ltWrongState
    else if !(slotOf s.ctl.flash slotB).commit then latNow s ltIncomplete
    else onLat (fun l => { l with busy := true, phase := .flash, slotB := slotB }) s
  else if cmd = ltStage then
    if l.isArmed || l.phase != .idle || !(st == .configured || st == .service || st == .degraded) then latNow s ltWrongState
    else beginRead s ltStage slotB
  else if cmd = ltArm then
    let t := s.pl.reg64 Reg.latSwitchTick
    if s.ctl.lod.state = .free ∨ s.ctl.lod.state = .acquiring ∨ l.isArmed then latNow s ltWrongState
    else if !l.hasStaged then latNow s ltNothingStaged
    else if t.toNat < s.ctl.now + armLead s.ctl then latNow s ltSwitchTooSoon
    else
      latNow (onLat (fun l => { l with
        armed := some t, quiescing := false, cutReady := false, cutAbort := false, readySent := false, readies := []
        aborted := false, weightsBusy := false, weightsOk := false }) s) ltOk
  else if cmd = ltDisarm then
    if !l.isArmed then latNow s ltWrongState
    else if l.quiescing then latNow s ltTooLate
    else latNow (onLat (fun l => { l with armed := none, readies := [], aborted := false }) s) ltOk
  else if cmd = ltLoadWeights then
    if s.ctl.image.isNone ∨ l.phase ≠ .idle then latNow s ltWrongState
    else onLat (fun l => { l with busy := true, phase := .weights }) s
  else
    if l.isArmed then latNow s ltWrongState
    else if !l.hasStaged then latNow s ltNothingStaged
    else latNow (onLat (fun l => { l with staged := none }) s) ltOk

/-- A write of LAT_CTRL: discarded while a command runs, or with an unlisted CMD (R75). An unlisted CMD written while BUSY is
1 sets no DROPPED: R75 does not say which of its two sentences holds then (DESIGN CHOICE, log 134). -/
def latCommand (s : State) (cmd : Nat) (slotB : Bool) : State :=
  if cmd < 1 ∨ 8 < cmd then s
  else if s.ctl.lat.busy then onLat (fun l => { l with dropped := true }) s
  else latRun (latAccept s cmd) cmd slotB

/-! ### Applying (R58, R66, R69, R178, R450) -/

/-- Offsets of a port's block whose writes are held (R178). -/
def heldOffset (o : Nat) : Bool :=
  [0xC, 0x10, 0x1C, 0x20, 0x24].contains o || (decide (0x100 ≤ o) && decide (o < 0x300) && o % 4 == 0)

/-- A held register of the PRT block. -/
def heldReg (a : Nat) : Bool :=
  decide (Reg.prt 0 0 ≤ a) && decide (a < Reg.prt 48 0) && heldOffset ((a - Reg.prt 0 0) % 0x10000)

/-- The held registers take effect. -/
def applyHeld (s : State) : State := onCtl (fun c => { c with inEffect := s.pl.regs.filter fun x => heldReg x.1 }) s

/-- The veins of an image that has just been applied: READY without weights, UNLOADED with some (R450). -/
def veinsOfImage (job : Job) (d : Plane) : Plane :=
  { d with veins := job.veins.foldl (fun m v =>
      SMap.put {} m v.vein { state := if v.stages.any (decide <| 0 < ·.weightLen) then .unloaded else .ready }) [] }

/-- The ports take the modes of an image. -/
def portsOfImage (recs : List PortRec) (d : Plane) : Plane :=
  recs.foldl (fun d r => d.onPort r.port fun p =>
    { p with mode := r.mode, peerNode := r.peer, link := if r.mode = 0 then .disabled else .dark }) d

/-- The quadrant of a partition's lowest tile group, or 0. -/
def homeEngine (c : Ctl) (p : Nat) : Nat :=
  match c.partRec p with
  | some r => ((List.range 64).find? fun g => r.tileGroups.getLsbD g).getD 0 / 16
  | none => 0

/-- COL_PART_p_ENGINE as an image sets it (R439). -/
def enginesOfImage (c : Ctl) (d : Plane) : Plane :=
  (List.range 32).foldl (fun d p => d.setReg (Reg.colEngine p) (BitVec.ofNat 32 (homeEngine c p))) d

/-- A full image is applied (R66, R67, R178, R439, R500, R533). -/
def applyImage (s : State) (i : Image) : State :=
  let s := onCtl (fun c => { c with image := some i }) s
  let s := applyHeld (assignTiles s)
  { s with pl := enginesOfImage s.ctl (veinsOfImage i.job (portsOfImage i.static.ports (partsOfImage i.static.parts s.pl))) }

/-- The device has an image and enters CONFIGURED (R69, R70). -/
def configured (s : State) (i : Image) (fromSlot : Bool) : State :=
  let s := onLat (fun l => { l with imageVersion := i.version, fromSlot := fromSlot }) (applyImage s i)
  enterState s .configured

/-- A slot check of BOOT has failed: the other slot, then AWAIT_HOST (R69). -/
def bootRefused (s : State) : State :=
  if s.ctl.lat.second then enterState (onLat (fun l => { l with phase := .idle, parsed := none }) s) .awaitHost
  else onLat (fun l => { l with phase := .firstPass, parsed := none, second := true, slotB := !l.slotB }) s

/-- A refusal of the image being read (R65). -/
def refuseImage (s : State) (r : Refused) : State := if s.ctl.lat.reading = 0 then bootRefused s else latEnd s r.code r.offset

/-- The bytes of the image being read, as this pass finds them. -/
def readSource (s : State) : Option (List Byte) × State :=
  let l := s.ctl.lat
  if l.reading = 0 then
    let x := slotOf s.ctl.flash l.slotB
    (if x.commit then some x.bytes else none, s)
  else
    let r := readLoc s.ctl s.pl 0 false l.src l.len
    (r.1, { s with pl := r.2 })

/-- The first pass ends (R64, R66). -/
def firstPassDone (s : State) (ok : Bool) : State :=
  let l := s.ctl.lat
  if l.phase ≠ .firstPass then s
  else
    let r := readSource s
    match (if ok then r.1 else none) with
    | none => refuseImage r.2 { code := ltIncomplete }
    | some b =>
      match checkImage r.2.ctl (quotaFor r.2.pl (l.reading == ltStage)) (l.reading == ltStage) (if l.reading = 0 then b.length else l.len) b with
      | .error e => refuseImage r.2 e
      | .ok i =>
        let s := onLat (fun l => { l with phase := .secondPass, parsed := some i, digest := imageDigest b }) r.2
        if l.reading = ltWriteSlot then onFlash (fun f => setSlot f l.slotB { slotOf f l.slotB with commit := false }) s else s

/-- The second pass ends (R66, R69, R70). -/
def secondPassDone (s : State) (ok : Bool) : State :=
  let l := s.ctl.lat
  if l.phase ≠ .secondPass then s
  else
    let r := readSource s
    match (if ok then r.1 else none), l.parsed with
    | some b, some i =>
      let s := r.2
      if imageDigest b ≠ l.digest then refuseImage s { code := ltBadSignature }
      else if l.reading = 0 then
        let s := onFlash (fun f => { f with bootB := l.slotB }) s
        configured (onLat (fun l => { l with phase := .idle, parsed := none }) s) i true
      else if l.reading = ltApply then configured (latEnd s ltOk) i false
      else if l.reading = ltWriteSlot then
        onLat (fun l => { l with phase := .commit }) (onFlash (fun f => setSlot f l.slotB { bytes := b, commit := false }) s)
      else latEnd (onLat (fun l => { l with staged := some { job := i.job, staticTag := i.staticTag } }) s) ltOk
    | _, _ => refuseImage r.2 { code := ltIncomplete }

/-- The commit marker of the slot is written (R68). -/
def slotCommit (s : State) : State :=
  let l := s.ctl.lat
  if l.phase ≠ .commit then s
  else latEnd (onFlash (fun f => setSlot f l.slotB { slotOf f l.slotB with commit := true }) s) ltOk

/-- The flash write of SET_ACTIVE completes: the active slot, and a floor that only rises (R63). -/
def setActiveDone (s : State) : State :=
  let l := s.ctl.lat
  if l.phase ≠ .flash then s
  else
    let v := getLe (slotOf s.ctl.flash l.slotB).bytes 28 2
    latEnd (onFlash (fun f => { f with
      activeB := l.slotB, floor := if f.floor.toNat < v then BitVec.ofNat 16 v else f.floor }) s) ltOk

/-! ### Resident weights (R58, R79, R450) -/

/-- What loading the weights of a stage gives: its bytes, or a mismatch. R58 does not say what an uncorrectable memory error
under them gives: the model takes it as a digest that does not match, WEIGHT_DIGEST (DESIGN CHOICE, log 134). -/
def loadStage (c : Ctl) (d : Plane) (x : StageRec) : Option (List Byte) × Plane :=
  let r := readLocal c d 0 x.weightAddr x.weightLen
  match r.1 with
  | some bs => (if sha384 bs = x.digest then some bs else none, r.2)
  | none => (none, r.2)

/-- The weights of a vein's stages: by stage, and the offsets of the digests that do not match. -/
def loadVein (c : Ctl) (v : VeinRec) (d : Plane) : SMap (List Byte) × List Nat × Plane :=
  v.stages.zipIdx.foldl (fun x y =>
    if y.1.weightLen = 0 then x
    else
      let r := loadStage c x.2.2 y.1
      match r.1 with
      | some bs => (SMap.put [] x.1 y.2 bs, x.2.1, r.2)
      | none => (x.1, x.2.1 ++ [y.1.digestAt], r.2)) ([], [], d)

/-- LOAD_WEIGHTS has read and compared the weights of the running job (R450). -/
def commandWeights (s : State) : State :=
  let c := s.ctl
  let r := c.job.veins.foldl (fun (x : List Nat × Plane) v =>
    let st := (x.2.vein v.vein).state
    if st = .absent ∨ st = .ready ∨ (v.stages.any fun y => (c.tileOf y.tile).isNone) then x
    else
      let y := loadVein c v x.2
      if y.2.1.isEmpty then (x.1, y.2.2.onVein v.vein fun z => { z with state := .ready, weights := y.1 })
      else (x.1 ++ y.2.1, y.2.2.onVein v.vein fun z => { z with state := .failed })) ([], s.pl)
  let s := { s with pl := r.2 }
  match r.1.head? with
  | some o => latEnd s ltWeightDigest o
  | none => latEnd s ltOk

/-- The staged weights are in the inactive banks (R79). -/
def stagedWeights (s : State) : State :=
  match s.ctl.lat.staged with
  | none => s
  | some j =>
    let c := s.ctl
    let r := j.job.veins.foldl (fun (x : Bool × Plane) v =>
      let y := loadVein c v x.2
      (x.1 && y.2.1.isEmpty, y.2.2.onVein v.vein fun z => { z with staged := y.1 })) (true, s.pl)
    onLat (fun l => { l with weightsBusy := false, weightsOk := r.1 }) { s with pl := r.2 }

/-- A load of resident weights completes. -/
def weightLoadDone (s : State) : State :=
  if s.ctl.lat.phase = .weights then commandWeights s else if s.ctl.lat.weightsBusy then stagedWeights s else s

/-! ### The job switch (R79, R565) -/

/-- A point `before` ticks ahead of T of the armed switch has come. -/
def Ctl.atPoint (c : Ctl) (t : DWord) (before : Nat) : Bool := decide (t.toNat ≤ c.now + before)

/-- The quiesce point. -/
def quiescePoint (s : State) : State :=
  match s.ctl.lat.armed with
  | none => s
  | some t =>
    if s.ctl.lat.quiescing || !s.ctl.atPoint t (s.ctl.group.leadUs * 4000) then s
    else onLat (fun l => { l with quiescing := true, weightsBusy := true, weightsOk := false }) s

/-- The conditions of the ready cutoff. -/
def isReady (s : State) : Bool :=
  let d := s.pl
  (d.rings.all fun r => r.2.fetched.isEmpty) && (d.qps.all fun q => q.2.msgs.isEmpty && q.2.unaPsn == q.2.sendPsn)
    && d.col.colls.isEmpty && (d.veins.all fun v => v.2.runs.isEmpty) && (d.stg.all fun q => q.2.items.isEmpty)
    && s.ctl.lat.weightsOk

/-- The values of the armed switch that READY carries. -/
def ownReady (c : Ctl) (t : DWord) (j : Staged) : ReadyNote :=
  { member := (c.memberIndex c.selfNode).getD 0, jobId := j.job.jobId, tick := t, staticTag := j.staticTag, commTag := j.job.commTag }

/-- The payload of MQ_READY (R428). -/
def readyBytes (n : ReadyNote) : List Byte :=
  beBytes 2 n.jobId ++ List.replicate 6 0 ++ beBytes 8 n.tick.toNat ++ beBytes 8 n.staticTag.toNat ++ beBytes 8 n.commTag.toNat

/-- Send a switch packet to every other member without a valid fence record here (R79, R569). -/
def sendSwitch (c : Ctl) (d : Plane) (ptype : Nat) (payload : List Byte) : Plane :=
  let ext := mqExt 0xFFFF 0 0 ((c.memberIndex c.selfNode).getD 0) 0 0 0 payload
  (c.group.members.filter fun m => m.node != c.selfNode && (fenceOf c d m.node).isNone).foldl
    (fun d m => sendControl c d (mqPkt c ptype m.node ext payload) true) d

/-- The ready cutoff: a ready device sends READY; its own counts as every member's does. -/
def readyCutoff (s : State) : State :=
  match s.ctl.lat.armed, s.ctl.lat.staged with
  | some t, some j =>
    if s.ctl.lat.cutReady || !s.ctl.atPoint t 800000 then s
    else
      let s := onLat (fun l => { l with cutReady := true }) s
      if !isReady s then s
      else
        let n := ownReady s.ctl t j
        let s := onLat (fun l => { l with readySent := true, readies := l.readies ++ [n] }) s
        { s with pl := sendSwitch s.ctl s.pl ptMqReady (readyBytes n) }
  | _, _ => s

/-- Why a device sends ABORT: 0 not ready, 1 READY missing, 2 READY differs (R79, R428). -/
def abortReason (s : State) (n : ReadyNote) : Option Nat :=
  let c := s.ctl
  let live := (c.group.members.zipIdx.filter fun m => (fenceOf c s.pl m.1.node).isNone).map (·.2)
  if !c.lat.readySent || !isReady s then some 0
  else if live.any fun i => !(c.lat.readies.any (·.member == i)) then some 1
  else if c.lat.readies.any fun r => !(r == { n with member := r.member }) then some 2
  else none

/-- The abort cutoff. -/
def abortCutoff (s : State) : State :=
  match s.ctl.lat.armed, s.ctl.lat.staged with
  | some t, some j =>
    if s.ctl.lat.cutAbort || !s.ctl.atPoint t 400000 then s
    else
      let s := onLat (fun l => { l with cutAbort := true }) s
      let n := ownReady s.ctl t j
      match abortReason s n with
      | none => s
      | some r =>
        let s := onLat (fun l => { l with aborted := true }) s
        { s with pl := sendSwitch s.ctl s.pl ptMqAbort (readyBytes n ++ beBytes 1 r ++ List.replicate 7 0) }
  | _, _ => s

/-- The veins of a job after its switch: READY with the weights that were staged for it (R450). -/
def veinsOfSwitch (job : Job) (d : Plane) : Plane :=
  { d with veins := job.veins.foldl (fun m v => SMap.put {} m v.vein { state := .ready, weights := (d.vein v.vein).staged }) [] }

/-- Fence records of the members whose READY counted are deleted (R111). -/
def dropFences (c : Ctl) (d : Plane) : Plane :=
  { d with xpt := { d.xpt with fences := c.lat.readies.foldl (fun m n => SMap.put {} m n.member {}) d.xpt.fences } }

/-- Banks are exchanged at tick T (R79, R110, R111, R178, R390, R533). -/
def exchangeBanks (s : State) (j : Staged) : State :=
  let joined := s.ctl.lat.readySent && s.ctl.dev.joinPending
  let s := { s with pl := dropFences s.ctl s.pl }
  let s := onCtl (fun c => { c with image := c.image.map fun i => { i with job := j.job } }) s
  let s := applyHeld (assignTiles s)
  let s := { s with pl := veinsOfSwitch j.job s.pl }
  let s := { s with pl := { s.pl with col := { s.pl.col with kept := s.pl.col.kept.filter fun k => !k.late } } }
  let s := onLat (fun l => { l with staged := none }) s
  if joined then onFlash (fun f => { f with quarantine := false }) (onDev (fun x => { x with joinPending := false }) s) else s

/-- Tick T of the armed switch. -/
def switchTick (s : State) : State :=
  match s.ctl.lat.armed with
  | none => s
  | some t =>
    if !s.ctl.atPoint t 0 then s
    else
      let aborted := s.ctl.lat.aborted
      let s := match s.ctl.lat.staged with
        | some j => if aborted then s else exchangeBanks s j
        | none => s
      let s := onLat (fun l => { l with
        armed := none, quiescing := false, cutReady := false, cutAbort := false, readySent := false, readies := []
        aborted := false, weightsBusy := false, weightsOk := false }) s
      if aborted then
        { onLat (fun l => { l with result := ltSwitchAborted, failOffset := BitVec.ofNat 32 noOffset }) s with
          pl := s.pl.raise srcLoader 0x0B }
      else s

/-- An MQ_READY or MQ_ABORT counts only for the armed switch, and before T (R565). -/
def counts (c : Ctl) (t : DWord) : Bool := c.lat.armed == some t && decide (c.now < t.toNat)

def takeReady (s : State) (n : ReadyNote) : State :=
  if counts s.ctl n.tick then onLat (fun l => { l with readies := l.readies ++ [n] }) s else s

def takeAbort (s : State) (t : DWord) : State :=
  if counts s.ctl t then onLat (fun l => { l with aborted := true }) s else s

/-! ### Words (R72 to R74) -/

def latStatusWord (c : Ctl) : Word :=
  let l := c.lat
  bitIf l.busy 0 ||| field l.lastCmd 4 1 ||| field l.result 8 8 ||| bitIf c.flash.bootB 16 ||| bitIf c.flash.activeB 17
    ||| bitIf c.flash.slotA.commit 18 ||| bitIf c.flash.slotB.commit 19 ||| bitIf l.hasStaged 20 ||| bitIf l.isArmed 21
    ||| bitIf l.dropped 22

def latJobWord (c : Ctl) : Word :=
  field c.job.jobId 16 0 ||| field (match c.lat.staged with | some j => j.job.jobId | none => 0) 16 16

end Sys2Proof.Machine
end

