-- ==== Sys2Proof/Machine/Own.lean ====
section
/-! DEFINITION. Ownership: which writes of an agent count (R92 to R97), the OWN registers and commands (R94 to R104), and
access to the observation port (R112 to R116). -/
namespace Sys2Proof.Machine

/-! ### The gate of BAR0 writes (R92, R94 to R97) -/

/-- The agent id of R92. -/
def agentId : Agent → Nat
  | .pcie => 1 | .i3c => 2 | .mgmt => 3

/-- Blocks that are powered in STANDBY: OWN, PWR and FLT (R121). -/
def standbyBlock (a : Nat) : Bool :=
  (decide (0x10000 ≤ a) && decide (a < 0x20000)) || (decide (0x30000 ≤ a) && decide (a < 0x40000))
    || (decide (0x80000 ≤ a) && decide (a < 0xC0000))

/-- An access of an agent arrives at the device: over PCIe while the link is up, over I3C whenever MGT has power. -/
def Ctl.arrives (c : Ctl) (a : Agent) : Bool :=
  match a with
  | .pcie => c.dev.pcieUp
  | .i3c => c.dev.state != .off
  | .mgmt => c.dev.state.booted

/-- The block of an address is powered and out of reset (R121, R566). -/
def Ctl.blockUp (c : Ctl) (a : Nat) : Bool := standbyBlock a || (c.dev.state.booted && !c.dev.inReset)

/-- A write that is dropped sets the bit of its agent (R96). -/
def dropWrite (s : State) (a : Agent) : State :=
  onOwn (fun o => { o with reject := o.reject ||| BitVec.ofNat 3 (2 ^ (agentId a - 1)) }) s

/-- A write by an agent to an address of BAR0: `f` when the agent is the owner, dropped otherwise (R96). -/
def owned (a : Agent) (addr : Nat) (f : State → State) (s : State) : State :=
  if !s.ctl.arrives a then s
  else if s.ctl.own.owner.toNat ≠ agentId a then dropWrite s a
  else if s.ctl.blockUp addr then f s
  else s

/-! ### Owner, lease and handover (R94, R95, R98, R100) -/

def leaseNs : Nat := 2000000000
def handoverNs : Nat := 100000000

/-- A claim (R94). Of claims in one MGT cycle, the same local time, the lowest agent id wins: a later one of a lower id takes
the ownership, and the write of the first one is dropped. -/
def claim (s : State) (a : Agent) (v : Word) : State :=
  let o := s.ctl.own
  let claimed (s : State) : State := onOwn (fun o => { o with
    owner := BitVec.ofNat 2 (agentId a), leaseEnd := s.ctl.ns + leaseNs, lapsed := false, claimedAt := some s.ctl.ns }) s
  if !s.ctl.arrives a then s
  else if bits v 1 0 ≠ agentId a then dropWrite s a
  else if o.owner = 0 then claimed s
  else if o.claimedAt = some s.ctl.ns ∧ agentId a < o.owner.toNat then
    claimed (onOwn (fun o => { o with reject := o.reject ||| BitVec.ofNat 3 (2 ^ (o.owner.toNat - 1)) }) s)
  else dropWrite s a

/-- A pending handover ends unaccepted (R98). SUCCESSOR then reads 0: R98 gives it no value (DESIGN CHOICE, log 110). -/
def Own.dropHandover (o : Own) : Own := if o.handover then { o with handover := false, successor := 0, expired := true } else o

def renewLease (s : State) : State := onOwn (fun o => { o with leaseEnd := s.ctl.ns + leaseNs }) s

def releaseOwner (s : State) : State := onOwn (fun o => { o.dropHandover with owner := 0, leaseEnd := 0, claimedAt := none }) s

/-- The lease reaches zero (R95). -/
def leaseOver (s : State) : State :=
  if s.ctl.own.owner ≠ 0 ∧ s.ctl.own.leaseEnd ≤ s.ctl.ns then
    onOwn (fun o => { o.dropHandover with owner := 0, lapsed := true, claimedAt := none }) s
  else s

/-- The owner writes SUCCESSOR (R98). -/
def nameSuccessor (s : State) (n : BitVec 2) : State :=
  if n = 0 ∨ n = s.ctl.own.owner then onOwn (fun o => { o with successor := 0, handover := false, expired := false }) s
  else onOwn (fun o => { o with successor := n, handover := true, expired := false, handoverEnd := s.ctl.ns + handoverNs }) s

/-- A write of OWN_HANDOVER with ACCEPT (R98). -/
def acceptHandover (s : State) (a : Agent) (n : BitVec 2) : State :=
  let o := s.ctl.own
  if !s.ctl.arrives a then s
  else if o.handover ∧ o.successor = n ∧ n.toNat = agentId a then
    onOwn (fun o => { o with owner := n, successor := 0, handover := false, claimedAt := none, leaseEnd := s.ctl.ns + leaseNs }) s
  else owned a 0x10008 (fun s => nameSuccessor s n) s

/-- 100 ms without acceptance (R98). -/
def handoverOver (s : State) : State :=
  if s.ctl.own.handover ∧ s.ctl.own.handoverEnd ≤ s.ctl.ns then onOwn Own.dropHandover s else s

/-- A write of OWN_REJECT: the owner clears any bit, another agent its own (R96, R100). -/
def clearReject (s : State) (a : Agent) (v : Word) : State :=
  let o := s.ctl.own
  let mine : BitVec 3 := BitVec.ofNat 3 (2 ^ (agentId a - 1))
  if !s.ctl.arrives a then s
  else if o.owner.toNat = agentId a then onOwn (fun o => { o with reject := o.reject &&& ~~~(v.setWidth 3) }) s
  else if o.owner ≠ 0 ∧ v.setWidth 3 &&& mine ≠ 0 then onOwn (fun o => { o with reject := o.reject &&& ~~~mine }) s
  else dropWrite s a

/-- OWN_INBAND_PEER is written; its flash copy follows (R100). -/
def writePeer (s : State) (v : Word) : State :=
  onOwn (fun o => { o with inbandNode := v.setWidth 20, inbandValid := flag v 20, inbandStore := true }) s

/-- The flash copy of OWN_INBAND_PEER is stored (R104). -/
def peerStored (s : State) : State :=
  if !s.ctl.own.inbandStore then s
  else
    let o := s.ctl.own
    onOwn (fun o => { o with inbandStore := false })
      (onFlash (fun f => { f with inbandNode := o.inbandNode, inbandValid := o.inbandValid }) s)

/-! ### Commands (R101 to R104, R113 to R116) -/

def ocReset : Nat := 1
def ocRejoin : Nat := 2
def ocTrustWrite : Nat := 3
def ocTrustClear : Nat := 4
def ocPasswordSet : Nat := 5
def ocPasswordClear : Nat := 6
def ocChallenge : Nat := 7
def ocRespond : Nat := 8
def ocPassword : Nat := 9
def ocClose : Nat := 10

def orOk : Nat := 0
def orWrongState : Nat := 1
def orBadIndex : Nat := 2
def orOccupied : Nat := 3
def orBadLength : Nat := 4
def orNoPassword : Nat := 5
def orNoChallenge : Nat := 6
def orAuthFailed : Nat := 7
def orLockedOut : Nat := 8
def orFlashError : Nat := 9

/-- A command completes: its result, and an empty data buffer (R103). -/
def ownEnd (s : State) (result : Nat) : State := onOwn (fun o => { o with busy := false, result := result, data := [], dataLen := 0 }) s

/-- The first bytes of the data buffer, as many as OWN_DATA_LEN says. -/
def Own.bytes (o : Own) : List Byte := (List.range (min o.dataLen 64)).map fun i => SMap.find 0 o.data i

/-- A command that writes flash runs until the write completes. -/
def beginFlash (s : State) (index : Nat) (v : BitVec 384) : State :=
  onOwn (fun o => { o with busy := true, index := index, stored := v }) s

/-- An authentication attempt ends (R115, R116). A success while a session is open starts it anew, with its 8 hours and its
METHOD: R116 does not name the case (DESIGN CHOICE, log 135). -/
def attempt (s : State) (ok method : Bool) : State :=
  if ok then
    ownEnd (onOwn (fun o => { o with session := { o.session with
      isOpen := true, method := method, fails := 0, openedAt := s.ctl.ns } }) s) orOk
  else
    ownEnd (onOwn (fun o => { o with session := { o.session with
      fails := min 16 (o.session.fails + 1), lockedOut := o.session.lockedOut || decide (16 ≤ o.session.fails + 1)
      retryWait := true, retryAt := s.ctl.ns + 1000000000 } }) s) orAuthFailed

/-- The response that a nonce asks for (R113). -/
def obsResponse (c : Ctl) (nonce : BitVec 128) : List Byte :=
  beBytes 32 (hmacSha256 (beBytes 32 c.flash.obsKey.toNat) (leBytes 16 nonce.toNat ++ leBytes 8 c.flash.serial.toNat)).toNat

/-- Attempts are refused (R115). -/
def Session.refuses (x : Session) : Bool := x.lockedOut || x.retryWait

/-- An accepted OWN command. An OBS_RESPOND or OBS_PASSWORD that ends in BAD_LENGTH, NO_CHALLENGE or NO_PASSWORD checks
nothing and is no failed attempt: R115 does not say so (DESIGN CHOICE, log 135). -/
def ownRun (s : State) (cmd index : Nat) : State :=
  let o := s.ctl.own
  let bs := o.bytes
  if cmd = ocReset then
    if !s.ctl.dev.state.booted then ownEnd s orWrongState
    else if s.ctl.dev.inReset then onOwn resetOwn s
    else startReset s 2
  else if cmd = ocRejoin then
    if s.ctl.dev.state ≠ .quarantine then ownEnd s orWrongState
    else startReset (onDev (fun x => { x with joinPending := true }) s) 3
  else if cmd = ocTrustWrite then
    if index = 0 then ownEnd s orBadIndex
    else if o.dataLen ≠ 48 then ownEnd s orBadLength
    else if (SMap.find none s.ctl.flash.trust index).isSome then ownEnd s orOccupied
    else beginFlash s index (BitVec.ofNat 384 (beNat bs))
  else if cmd = ocTrustClear then
    if index = 0 then ownEnd s orBadIndex else beginFlash s index 0
  else if cmd = ocPasswordSet then
    if o.dataLen < 8 ∨ 64 < o.dataLen then ownEnd s orBadLength else beginFlash s index (sha384 bs)
  else if cmd = ocPasswordClear then beginFlash s index 0
  else if cmd = ocChallenge then
    let a := s.pl.draw
    let b := a.2.draw
    ownEnd (onOwn (fun o => { o with nonce := b.1 ++ a.1, nonceLive := true, nonceAt := s.ctl.ns }) { s with pl := b.2 }) orOk
  else if cmd = ocRespond then
    if o.session.refuses then ownEnd s orLockedOut
    else if o.dataLen ≠ 32 then ownEnd s orBadLength
    else if !o.nonceLive then ownEnd s orNoChallenge
    else attempt (onOwn (fun o => { o with nonceLive := false }) s) (bs == obsResponse s.ctl o.nonce) false
  else if cmd = ocPassword then
    if o.session.refuses then ownEnd s orLockedOut
    else if o.dataLen < 8 ∨ 64 < o.dataLen then ownEnd s orBadLength
    else match s.ctl.flash.password with
      | none => ownEnd s orNoPassword
      | some h => attempt s (sha384 bs == h) true
  else ownEnd (closeSession s) orOk

/-- A write of OWN_CMD: discarded while a command runs, or with an unlisted CMD (R101). -/
def ownCommand (s : State) (cmd index : Nat) : State :=
  if s.ctl.own.busy ∨ cmd < 1 ∨ 10 < cmd then s
  else ownRun (onOwn (fun o => { o with lastCmd := cmd }) s) cmd index

/-- The flash write of a command completes (R104). -/
def ownFlashDone (s : State) (ok : Bool) : State :=
  let o := s.ctl.own
  if !o.busy then s
  else if !ok then
    let s := ownEnd s orFlashError
    { s with pl := s.pl.raise srcFlash 0x10 }
  else
    let f (f : Flash) : Flash :=
      if o.lastCmd = ocTrustWrite then { f with trust := SMap.put none f.trust o.index (some o.stored) }
      else if o.lastCmd = ocTrustClear then { f with trust := SMap.put none f.trust o.index none }
      else if o.lastCmd = ocPasswordSet then { f with password := some o.stored }
      else if o.lastCmd = ocPasswordClear then { f with password := none }
      else f
    ownEnd (onFlash f s) orOk

/-! ### Time limits (R113, R115, R116) -/

/-- The 1 s after a failed attempt ends. -/
def retryOver (s : State) : State :=
  if s.ctl.own.session.retryWait ∧ s.ctl.own.session.retryAt ≤ s.ctl.ns then
    onOwn (fun o => { o with session := { o.session with retryWait := false } }) s
  else s

/-- A nonce is 60 s old. -/
def nonceOver (s : State) : State :=
  if s.ctl.own.nonceLive ∧ s.ctl.own.nonceAt + 60000000000 ≤ s.ctl.ns then onOwn (fun o => { o with nonceLive := false }) s else s

def sessionNs : Nat := 28800000000000

/-- A session is 8 hours old. -/
def sessionOver (s : State) : State :=
  if s.ctl.own.session.isOpen ∧ s.ctl.own.session.openedAt + sessionNs ≤ s.ctl.ns then closeSession s else s

/-! ### Words (R100) -/

def ownClaimWord (o : Own) : Word := field o.owner.toNat 2 0 ||| bitIf o.lapsed 8
def ownLeaseWord (c : Ctl) : Word := if c.own.owner = 0 then 0 else field (min 2000 ((c.own.leaseEnd - c.ns) / 1000000)) 12 4
def ownHandoverWord (o : Own) : Word := field o.successor.toNat 2 0 ||| bitIf o.handover 4 ||| bitIf o.expired 6
def ownPeerWord (o : Own) : Word := field o.inbandNode.toNat 20 0 ||| bitIf o.inbandValid 20
def ownStateWord (c : Ctl) : Word :=
  field c.dev.state.num 4 0 ||| field c.dev.incarnation.toNat 16 4 ||| field c.dev.resetCause.toNat 4 20 ||| bitIf c.dev.joinPending 24
def ownStatusWord (o : Own) : Word := bitIf o.busy 0 ||| field o.lastCmd 4 4 ||| field o.result 8 8
def ownSessionWord (c : Ctl) : Word :=
  let x := c.own.session
  let left := if x.isOpen then (x.openedAt + sessionNs - c.ns) / 60000000000 else 0
  bitIf x.isOpen 0 ||| bitIf (x.isOpen && x.method) 1 ||| bitIf x.lockedOut 2 ||| field x.fails 5 3 ||| field left 9 8
def ownNonceWord (o : Own) (i : Nat) : Word := (o.nonce >>> (32 * i)).setWidth 32

/-- A write of one word of the data buffer (R103). -/
def writeData (s : State) (i : Nat) (v : Word) : State :=
  onOwn (fun o => { o with data := (leBytes 4 v.toNat).zipIdx.foldl (fun m b => SMap.put 0 m (4 * i + b.2) b.1) o.data }) s

end Sys2Proof.Machine
end

