-- ==== Sys2Proof/Machine/Settle.lean ====
section
/-! DEFINITION. What the data side asks of the control side: after the work of a command its effects are done one by one,
oldest first, until none is left. -/
namespace Sys2Proof.Machine

/-- One effect. -/
def applyEffect (s : State) : Effect → State
  | .fault source cause part => collectFault s source cause part false
  | .adderParity engine _ => adderReport s engine
  | .quarantine => enterQuarantine s
  | .qpDrained n => onPlane (fun c d => destroyEnd c d n) s
  | .keyless n => onPlane (fun c d => if (d.qp n).state = .ready then keyExhausted c d n none else d) s
  | .ready n => takeReady s n
  | .abort _ t => takeAbort s t
  | .exchange n t1 t2 t3 t4 => elect (completeExchange s n t1 t2 t3 t4)
  | .ptp m => takePtp s m
  | .delayReq seq t3 => departedDelayReq s seq t3

/-- The effects of a command, at most `fuel` of them. -/
def settleFrom : Nat → State → State
  | 0, s => { s with pl := { s.pl with effects := [] } }
  | fuel + 1, s =>
    match s.pl.effects with
    | [] => s
    | e :: rest => settleFrom fuel (applyEffect { s with pl := { s.pl with effects := rest } } e)

/-- More effects than any command raises. -/
def effectRoom : Nat := 65536

/-- The end of every command: its effects are done. -/
def settle (s : State) : State := settleFrom effectRoom s

/-- A command of the data side. -/
def dataStep (f : Ctl → Plane → Plane) (s : State) : State := settle (onPlane f s)

/-- A command of the control side. -/
def ctlStep (f : State → State) (s : State) : State := settle (f s)

end Sys2Proof.Machine
end

