-- ==== Sys2Proof/Machine/Observe.lean ====
section
/-! DEFINITION. Counters, sampling, trace and the observation port (R544 to R559). -/
namespace Sys2Proof.Machine

/-- Trace cycles of an interval in µs (R549). -/
def intervalCycles (us : Nat) : Nat := us * 1500

/-- Cycles of a counter set's domain in 960 trace cycles: CORE at its static frequency, XPT, Lane TX or HBM (R23, R547). -/
def setRate (c : Ctl) (n : Nat) : Nat :=
  if n < 276 then (match c.static.coreFreq with | 0 => 1152 | 1 => 960 | _ => 768)
  else if n < 284 ∨ n = 352 then 960
  else if n < 332 then 544
  else 625

/-- The cycle of its own domain at which a counter set has its boundary for a sample at a trace cycle (R550). -/
def setBoundary (c : Ctl) (n cycle edge : Nat) : Nat := cycle * setRate c n / 960 + edge

/-- The counts of a set over the cycles between its boundaries, each cycle in one of them (R547, R550). -/
structure Shares where
  busy : Nat
  idle : Nat
  stall : List Nat
  deriving DecidableEq, Repr

/-- The stall counts that fit into `left` cycles, and the cycles that remain. -/
def shareStalls : Nat → List Nat → List Nat × Nat
  | left, [] => ([], left)
  | left, x :: xs => let r := shareStalls (left - min x left) xs; (min x left :: r.1, r.2)

/-- A measured set divides the cycles between its boundaries: busy, the eight stall buckets, and idle the rest (R547, R550). -/
def sharesOf (cycles : Nat) (x : SetCount) : Shares :=
  let busy := min x.busy cycles
  let r := shareStalls (cycles - busy) ((List.range 8).map fun i => x.stall[i]?.getD 0)
  { busy := busy, idle := r.2, stall := r.1 }

/-- The 64 bytes of a sample record (R549). -/
def sampleBytes (c : Ctl) (d : Plane) (seq : Word) (cycles : Nat) (x : SetCount) : List Byte :=
  let y := sharesOf cycles x
  leBytes 2 x.set ++ leBytes 1 (if y.stall.sum = 0 then 255 else x.reason) ++ [0] ++ leBytes 4 seq.toNat
    ++ leBytes 8 d.obs.cycle.toNat ++ leBytes 4 y.busy ++ leBytes 4 y.idle ++ (y.stall.map fun n => leBytes 4 n).flatten
    ++ leBytes 8 (if c.lod.state = .free then 0 else c.lod.tick.toNat)

/-- What the registers of a sampler say: CFG, the buffer with its LOC, LOG2. -/
structure SampleCfg where
  on : Bool
  interval : Nat
  loc : Bool
  base : Nat
  log2 : Nat
  deriving DecidableEq, Repr

def sampleCfg (d : Plane) (cfg buf size : Nat) : SampleCfg :=
  { on := flag (d.reg cfg) 31, interval := bits (d.reg cfg) 19 0, loc := flag (d.reg buf) 0
    base := (d.reg (buf + 4)).toNat * 2 ^ 32 + bits (d.reg buf) 31 6 * 64, log2 := bits (d.reg size) 4 0 }

def globalCfg (d : Plane) : SampleCfg := sampleCfg d Reg.smpCfg Reg.smpBuf Reg.smpSize
def partCfg (d : Plane) (p : Nat) : SampleCfg := sampleCfg d (Reg.pc p 0x40) (Reg.pc p 0x44) (Reg.pc p 0x4C)

/-- The number of the last counter set (R547). -/
def lastSet : Nat := 352

/-- The sets that a sampler records: those of the masks, or the logical tiles of the partition's groups (R552, R558). -/
def enabledSets (c : Ctl) (d : Plane) : Sampler → List Nat
  | .global => (List.range (lastSet + 1)).filter fun i => flag (d.reg (Reg.smpSets (i / 32))) (i % 32)
  | .part p =>
    match c.partRec p.val with
    | some r => (List.range 256).filter fun l => r.tileGroups.getLsbD (l / 4)
    | none => []

/-- Write one record at its position; a record that cannot be written is dropped (R551). -/
def putSample (c : Ctl) (d : Plane) (x : SampleCfg) (part : Option Nat) (seq : Word) (bs : List Byte) : Plane :=
  let a := x.base + 64 * (seq.toNat % 2 ^ x.log2)
  let ok := !x.loc || (match part with | some p => c.ownsStacked p a 64 | none => decide (a + 64 ≤ stackedEnd))
  if ok then writeLoc c d (match part with | some p => ownerFn d p | none => 0) x.loc a bs else d

/-- The key of a sampler's last sample. -/
def samplerKey : Sampler → Nat
  | .global => 0
  | .part p => 1 + p.val

/-- SEQ of the next record of a sampler. -/
def samplerSeq (d : Plane) : Sampler → Word
  | .global => d.obs.smpSeq
  | .part p => SMap.find 0 d.obs.partSeq p.val

def setSamplerSeq (d : Plane) (w : Sampler) (v : Word) : Plane :=
  match w with
  | .global => { d with obs := { d.obs with smpSeq := v } }
  | .part p => { d with obs := { d.obs with partSeq := SMap.put 0 d.obs.partSeq p.val v } }

/-- The key of a sampler's set in `Obs.edges`. -/
def edgeKey (w : Sampler) (n : Nat) : Nat := 512 * samplerKey w + n

/-- The cycles between the last two boundaries of a set, for a sample now whose boundary falls `edge` cycles after it; `since` is
the trace cycle of the sample before (R550). -/
def setCycles (c : Ctl) (d : Plane) (w : Sampler) (n since edge : Nat) : Nat :=
  setBoundary c n d.obs.cycle.toNat edge - setBoundary c n since (SMap.find 0 d.obs.edges (edgeKey w n))

/-- A write of a sampler's registers; a sampler begins an interval when it is enabled (R549, log 151). -/
def writeSampler (d : Plane) (a : Nat) (v : Word) : Plane :=
  let key := if a = Reg.smpCfg then some 0 else (inArr (Reg.pc 0 0x40) 32 0x100 a).map (1 + ·)
  let e := d.writeReg a v
  match key with
  | some k =>
    if !flag (d.reg a) 31 && flag (e.reg a) 31 then
      { e with obs := { e.obs with smpAt := SMap.put 0 e.obs.smpAt k e.obs.cycle.toNat
                                   edges := e.obs.edges.filter fun x => x.1 / 512 != k } }
    else e
  | none => e

/-- The interval of a sampler ends: one record for each enabled set (R549 to R552). -/
def sampleDue (c : Ctl) (d : Plane) (w : Sampler) (counts : List SetCount) : Plane :=
  let x := match w with | .global => globalCfg d | .part p => partCfg d p.val
  let part := match w with | .global => none | .part p => some p.val
  let at_ := SMap.find 0 d.obs.smpAt (samplerKey w)
  if !x.on || !c.dev.state.booted || decide (d.obs.cycle.toNat < at_ + intervalCycles x.interval) then d
  else
    let d := { d with obs := { d.obs with smpAt := SMap.put 0 d.obs.smpAt (samplerKey w) d.obs.cycle.toNat } }
    (enabledSets c d w).foldl (fun d n =>
      let seq := samplerSeq d w
      let s := (counts.find? (·.set == n)).getD { set := n }
      let cycles := setCycles c d w n at_ s.edge.val
      let d := { d with obs := { d.obs with edges := SMap.put 0 d.obs.edges (edgeKey w n) s.edge.val } }
      setSamplerSeq (putSample c d x part seq (sampleBytes c d seq cycles s)) w (seq + 1)) d

/-- Trace cycles of 1 ms (R555). -/
def syncCycles : Nat := 1500000

/-- A SYNC record is due (R555). -/
def syncDue (c : Ctl) (d : Plane) : Plane :=
  if d.obs.cycle.toNat < d.obs.syncAt + syncCycles then d
  else
    let d := { d with obs := { d.obs with syncAt := d.obs.cycle.toNat } }
    if tracing c d && flag (d.reg Reg.traceCfg) 8 then
      traceStore (traceLoss c d) (traceImage d 8 0 0 (leBytes 8 c.lod.tick.toNat ++ leBytes 1 c.lod.state.num))
    else d

/-- The port sends: a session is open and its PLL has locked (R116). -/
def obsUp (c : Ctl) : Bool := c.own.session.isOpen && c.dev.locks.obs

/-- The 1,048 bytes of a frame (R557). -/
def obsFrame (c : Ctl) (fseq : BitVec 16) (records : List (List Byte)) : List Byte :=
  let head := leBytes 2 0x4F42 ++ leBytes 2 fseq.toNat ++ leBytes 1 records.length ++ [0, 0, 0] ++ leBytes 8 c.flash.serial.toNat
    ++ fitTo 1024 records.flatten
  head ++ leBytes 4 (crc32c head).toNat ++ [0, 0, 0, 0]

/-- A frame of the observation port starts. -/
def obsSend (c : Ctl) (d : Plane) : Plane :=
  if !obsUp c then d
  else
    let f := obsFrame c d.obs.fseq (d.obs.trace.take 32)
    let d := { d with
      obs := { d.obs with trace := d.obs.trace.drop 32, fseq := d.obs.fseq + 1 }
      obsOut := f :: d.obsOut }
    traceLoss c d

def obsStatusWord (c : Ctl) (d : Plane) : Word :=
  bitIf c.own.session.isOpen 0 ||| bitIf (obsUp c) 1 ||| field (d.obs.trace.length * 32 / 1024) 10 8

/-- Words of a partition's counters, by offset (R559). -/
def countQuantity (d : Plane) (p o : Nat) : DWord :=
  let x := d.count p
  if o = 0 then x.txPkts else if o = 8 then x.rxPkts else if o = 0x10 then x.txBytes else x.rxBytes

end Sys2Proof.Machine
end

