-- ==== Sys2Proof/Machine/Lanes.lean ====
section
/-! DEFINITION. The lanes of a port (R152, R158, R159): loss and return of signal, the parity lane, and the words of
PRT_n_STATUS and PRT_n_REPLAY (R177, R179). -/
namespace Sys2Proof.Machine

/-- The sticky bit that a loss sets (R152, R180). -/
def lossBit : LaneEvent → PrtBit
  | .signal => .los
  | .alignment | .errors => .alignLoss

/-- A lane of a port in one word of lock bits. -/
def laneMask (lane : Nat) : BitVec 9 := BitVec.ofNat 9 (2 ^ lane)

/-- Reception stops, and PEER_OK with it (R152, R157). -/
def pausePort (c : Ctl) (d : Plane) (n lane : Nat) (e : LaneEvent) : Plane :=
  (d.onPort n fun p => { p with
    link := .paused, since := c.ns, peerOk := false, dataOk := false
    rxLock := p.rxLock &&& ~~~laneMask lane }).prtStick n (lossBit e)

/-- A data lane of a group link is rebuilt from the parity lane (R158). -/
def rebuildLane (c : Ctl) (d : Plane) (n lane : Nat) : Plane :=
  (d.onPort n fun p => { p with
    spared := some lane, sparedAt := c.ns, rebuildNoted := false
    rxLock := p.rxLock &&& ~~~laneMask lane }).prtStick n .laneSpared

/-- The parity lane fails: alone it only costs PARITY_OK; while a lane is rebuilt the port pauses (R159). -/
def parityFails (c : Ctl) (d : Plane) (n : Nat) (e : LaneEvent) : Plane :=
  if !(d.port n).parityOk then d
  else
    let d := (d.onPort n fun p => { p with parityOk := false, rxLock := p.rxLock &&& ~~~laneMask 8 }).prtStick n .laneSpared
    if (d.port n).spared.isSome then pausePort c d n 8 e else d

/-- A lane of an UP port fails: a fabric port pauses; a group link rebuilds one data lane and pauses on a second (R152,
R158, R159). -/
def laneFails (c : Ctl) (d : Plane) (n lane : Nat) (e : LaneEvent) : Plane :=
  let p := d.port n
  if p.link ≠ .up then d
  else if !p.group then (if lane = 8 then d else pausePort c d n lane e)
  else if lane = 8 then parityFails c d n e
  else if p.spared = some lane then d
  else if p.spared.isNone && p.parityOk then rebuildLane c d n lane
  else pausePort c d n lane e

/-- Loss of signal, alignment loss or uncorrectable FEC on a data lane of an UP port (R152). -/
def signalLost (c : Ctl) (d : Plane) (n lane : Nat) (e : LaneEvent) : Plane :=
  if (d.port n).link ≠ .up then d else (laneFails c d n lane e).prtStick n (lossBit e)

/-- A lane of a group link fails (R158): its loss of signal or alignment is recorded, but not that of the parity lane alone
(R159); an error ratio is not a loss. -/
def laneFault (c : Ctl) (d : Plane) (n lane : Nat) (e : LaneEvent) : Plane :=
  if (d.port n).link ≠ .up ∨ !(d.port n).group then d
  else if e = .errors ∨ (lane = 8 ∧ (d.port n).spared.isNone) then laneFails c d n lane e
  else (laneFails c d n lane e).prtStick n (lossBit e)

/-- The lanes in use are locked. -/
def Port.locked (p : Port) : BitVec 9 :=
  if !p.group then 0xFF
  else (match p.spared with | some l => 0x1FF &&& ~~~laneMask l | none => 0x1FF) &&& (if p.parityOk then 0x1FF else 0xFF)

/-- Signal, alignment and FEC lock return within the 10 µs hold (R152). -/
def signalBack (c : Ctl) (d : Plane) (n : Nat) : Plane :=
  let p := d.port n
  if p.link ≠ .paused ∨ p.since + 10000 < c.ns then d
  else
    let p := { p with link := .up, since := c.ns, parityOk := p.parityOk || p.spared.isSome }
    d.setPort n { p with rxLock := p.locked }

/-- The hold of a PAUSED port is over (R152). -/
def pauseOver (c : Ctl) (d : Plane) (n : Nat) : Plane :=
  let p := d.port n
  if p.link ≠ .paused ∨ c.ns < p.since + 10000 then d else retrainPort c d n

/-- RETRAIN written (R152). -/
def retrainUp (c : Ctl) (d : Plane) (n : Nat) : Plane := if (d.port n).link = .up then retrainPort c d n else d

/-- A rebuilt data lane or a failed parity lane regains lock (R159). -/
def laneBack (d : Plane) (n lane : Nat) : Plane :=
  let p := d.port n
  if !p.group ∨ p.link ≠ .up then d
  else if lane = 8 then d.setPort n { p with parityOk := true, rxLock := p.rxLock ||| laneMask 8 }
  else if p.spared = some lane then
    d.setPort n { p with spared := none, rebuildNoted := false, rxLock := p.rxLock ||| laneMask lane }
  else d

def LinkState.num : LinkState → Nat
  | .disabled => 0 | .dark => 1 | .training => 2 | .up => 3 | .paused => 4

/-- PRT_n_STATUS (R179). -/
def prtStatusWord (p : Port) : Word :=
  field p.link.num 3 0 ||| field p.mode 2 3 ||| bitIf p.txPll 5 ||| field p.rxLock.toNat 9 6 ||| bitIf p.parityOk 15
    ||| field (match p.spared with | some l => l | none => 15) 4 16 ||| bitIf p.showPeerOk 20 ||| bitIf p.showDataOk 21

/-- PRT_n_REPLAY (R177). -/
def prtReplayWord (p : Port) : Word := field p.hopNext.toNat 16 0 ||| field p.replay.length 9 16

end Sys2Proof.Machine
end

