-- ==== Sys2Proof/Machine/Reads.lean ====
section
/-! DEFINITION. Reads of the register space: the words that the device computes, the words it stores, the clearing of RC
registers, and the snapshots of 64-bit quantities (R7 to R13, R35, R36, R43 to R45, R97). -/
namespace Sys2Proof.Machine

def loWord (v : DWord) : Word := v.setWidth 32
def hiWord (v : DWord) : Word := (v >>> 32).setWidth 32

/-! ### Words of a block, by the address within BAR0 -/

/-- IDN (R45, R48). -/
def readIdn (c : Ctl) (a : Nat) : Word :=
  if a = 0 then 0x920 else if a = 4 then 1 else if a = 8 then loWord c.flash.serial else if a = 0xC then hiWord c.flash.serial
  else if a = 0x10 then 0x30140110 else if a = 0x14 then unitsInService c.flash else 0

/-- OWN (R99, R100). -/
def readOwn (c : Ctl) (a : Nat) : Word :=
  let o := c.own
  if a = 0x10000 then ownClaimWord o else if a = 0x10004 then ownLeaseWord c else if a = 0x10008 then ownHandoverWord o
  else if a = 0x1000C then o.reject.setWidth 32 else if a = 0x10010 then ownPeerWord o else if a = 0x10014 then ownStateWord c
  else if a = 0x1001C then ownStatusWord o else if a = 0x10020 then BitVec.ofNat 32 o.dataLen
  else if a = 0x10024 then ownSessionWord c
  else match inArr 0x10030 4 4 a with | some i => ownNonceWord o i | none => 0

/-- The read-only words of LAT (R72). -/
def readLat (c : Ctl) (d : Plane) (a : Nat) : Word :=
  if a = 0x20004 then latStatusWord c else if a = 0x20014 then c.lat.failOffset else if a = 0x20020 then latJobWord c
  else if a = 0x20024 then c.lat.imageVersion else if a = 0x20028 then c.flash.floor.setWidth 32 else d.reg a

/-- PWR and the clock words (R38, R127, R141). -/
def readPwr (c : Ctl) (d : Plane) (a : Nat) : Word :=
  let r := c.dev.sensors
  if a = 0x30000 then pwrStatusWord c.dev else if a = 0x30008 then BitVec.ofNat 32 r.vin
  else if a = 0x3000C then BitVec.ofNat 32 r.iin else if a = 0x30010 then BitVec.ofNat 32 r.watts
  else if a = 0x30018 then
    field (min 255 r.tile) 8 0 ||| field (min 255 r.stack) 8 8 ||| field (min 255 r.laser) 8 16 ||| field (min 255 r.coolant) 8 24
  else if a = 0x3001C then field c.dev.slotId.toNat 4 0 ||| field (0x60 + c.dev.slotId.toNat) 7 4
  else if a = 0x30020 then field c.dev.dutyNow 5 0
  else if a = 0x30100 then clkLockWord c.dev.locks else if a = 0x30108 then c.dev.locks.stackPlls.setWidth 32 else d.reg a

/-- LOD (R396, R397). -/
def readLod (c : Ctl) (d : Plane) (a : Nat) : Word :=
  let l := c.lod
  if a = 0x40000 then loWord l.tick else if a = 0x40004 then hiWord l.tick else if a = 0x40008 then lodStatusWord l
  else if a = 0x4000C then field l.lodeNode 20 0 ||| field l.lodePriority 8 20
  else if a = 0x40010 then loWord l.lodeSerial else if a = 0x40014 then hiWord l.lodeSerial
  else if a = 0x40018 then sat32 (wholeTicks l.offset) else if a = 0x4001C then sat32 l.freq
  else if a = 0x40128 then sat32 (wholeTicks l.ptpOffset) else d.reg a

/-- FLT (R519, R522, R541, R542). -/
def readFlt (c : Ctl) (d : Plane) (a : Nat) : Word :=
  if a = 0x80000 then fltStatusWord c else if a = 0x80050 then sparesWord c
  else match inArr 0x80030 5 4 a with
  | some i => eventWord c.flt.first i
  | none => match inArr 0x80060 4 4 a with
  | some i => recoveryWord c.flt i
  | none => match inArr 0x81000 64 4 a with
  | some i => SMap.find 0 c.flt.pend i
  | none => match inArr 0x82000 80 4 a with
  | some i => laserWord c i
  | none => match inArr 0x83000 272 4 a with
  | some i => tileSlowWord c i
  | none => d.reg a

/-- Word at offset `o` of a partition's counter block (R559). -/
def readPc (d : Plane) (p o : Nat) : Word :=
  if o < 0x20 then (if o % 8 = 0 then loWord (countQuantity d p o) else if o % 8 = 4 then hiWord (countQuantity d p (o - 4)) else 0)
  else if o = 0x50 then samplerSeq d (.part (partId p)) else d.reg (Reg.pc p o)

/-- OBS and the partition counters (R558, R559). -/
def readObs (c : Ctl) (d : Plane) (a : Nat) : Word :=
  if a = 0xC0000 then obsStatusWord c d else if a = 0xC0010 then loWord d.obs.cycle else if a = 0xC0014 then hiWord d.obs.cycle
  else if a = 0xC0030 then d.obs.smpSeq
  else if Reg.pc 0 0 ≤ a ∧ a < Reg.pc 32 0 then readPc d ((a - Reg.pc 0 0) / 0x100) ((a - Reg.pc 0 0) % 0x100)
  else d.reg a

/-- PAR (R511, R512). -/
def readPar (d : Plane) (a : Nat) : Word :=
  if a = 0x100004 then parStatusCmd d else if a = 0x100008 then parStateWord d 0 else if a = 0x10000C then parStateWord d 16
  else match inArr 0x101014 32 0x20 a with
  | some p => parStatusWord d p
  | none => match inArr 0x108008 1024 0x10 a with
  | some v => vfStatusWord d v
  | none => d.reg a

/-- Word `w` of a pending-fault slot (R222). -/
def slotWord (c : Ctl) (s : FaultSlot) (w : Nat) : Word :=
  if w = 0 then
    bitIf s.isOpen 0 ||| field s.part 5 1 ||| field s.cause 3 6 ||| field s.access 3 9 ||| field (min 65535 s.waiters.length) 16 12
  else if w = 1 then BitVec.ofNat 32 s.va
  else if w = 2 then field (s.va / 2 ^ 32) 25 0
  else field (if s.isOpen then min 65535 (slotAge c s) else 0) 16 0

/-- XLT (R221, R222). -/
def readXlt (c : Ctl) (d : Plane) (a : Nat) : Word :=
  match inArr 0x202000 2048 4 a with
  | some i => slotWord c (d.slot (i / 4)) (i % 4)
  | none => match inArr 0x204000 20 4 a with
  | some s => pcMapWord (c.pcMap s)
  | none => d.reg a

/-- Ports n from `first` as bits of one word. -/
def portBits (d : Plane) (f : Port → Bool) (first n : Nat) : Word :=
  (List.range n).foldl (fun w i => w ||| bitIf (f (d.port (first + i))) i) 0

/-- XPT (R304, R344). -/
def readXpt (c : Ctl) (d : Plane) (a : Nat) : Word :=
  if a = 0x400004 then qpStatusWord (d.qpCmd 0) else if a = 0x400010 then 2 else if a = 0x400014 then 0x1F
  else if a = 0x400030 then portBits d Port.showPeerOk 0 32 else if a = 0x400034 then portBits d Port.showPeerOk 32 16
  else if a = 0x400038 then portBits d Port.showDataOk 0 32 else if a = 0x40003C then portBits d Port.showDataOk 32 16
  else if a = 0x40004C then d.xpt.fenceEpoch
  else if a = 0x400050 then field (((List.range c.group.members.length).filter fun i => (d.fenceRec i).valid).length) 11 0
  else match inArr 0x401000 4 0x10 a with
  | some q =>
    field ((d.parked q).length) 10 0 ||| field ((d.xpt.fetching.filter fun n => (d.qp n).home == q && fetchRuns d n).length) 7 10
  | none => match inArr 0x401004 4 0x10 a with
  | some q => field (residents d q) 13 0 ||| field (pinned d q) 12 16
  | none => d.reg a

/-- SCH_PORT_n_STATUS (R366). -/
def schStatusWord (c : Ctl) (d : Plane) (n : Nat) : Word :=
  let p := d.port n
  let each (f : Nat → Bool) (lo : Nat) : Word := (List.range 7).foldl (fun w k => w ||| bitIf (f k) (lo + k)) 0
  each (fun k => (headOf p k).isSome) 0 ||| bitIf (!p.queue7.isEmpty) 7
    ||| each (fun k => shapeRate d n k != 0 && decide (tokensNow c d n k < 0)) 8 ||| bitIf (c.gate n).isSome 15
    ||| each (fun k => gateOpen c n k) 16

/-- SCH (R365). -/
def readSch (c : Ctl) (d : Plane) (a : Nat) : Word :=
  match inArr 0x500100 4 4 a with
  | some q => field (d.wheel q).waiting.length 13 0 ||| field (d.wheel q).overflow.length 13 16
  | none => match inArr (Reg.sch 0 0x60) 48 0x100 a with
  | some n => schStatusWord c d n
  | none => d.reg a

/-- CIP_CORES (R496). -/
def cipCoresWord (c : Ctl) : Word :=
  let count (v : BitVec 2) : Nat := ((List.range 104).filter fun n => c.coreState n == v).length
  field (count 0) 7 0 ||| field (count 1) 4 8
    ||| (List.range 4).foldl (fun w q => w ||| bitIf (!SMap.find false c.flash.compatBad q) (12 + q)) 0

/-- CIP (R496). -/
def cipStatusWord (x : CmdStat) : Word := field (b2n x.busy) 1 0 ||| field x.last 3 4 ||| field x.result 8 8

def readCip (c : Ctl) (d : Plane) (a : Nat) : Word :=
  if a = 0x600004 then cipStatusWord (d.cipCmd 0) else if a = 0x600018 then cipCoresWord c else d.reg a

/-- COL (R439). -/
def readCol (d : Plane) (a : Nat) : Word :=
  let count (q : Nat) (st : CollState) : Nat := (d.col.colls.filter fun x => x.engine == q && x.state == st).length
  match inArr 0x700200 4 4 a with
  | some q => field (min 15 (count q .active)) 4 0 ||| field (min 4095 (count q .waiting)) 12 4 ||| field (min 15 (count q .closing)) 4 16
  | none => match inArr 0x700300 4 4 a with
  | some q => field (min 511 (mqInUse d q)) 9 0
  | none => d.reg a

def VeinState.num : VeinState → Nat
  | .absent => 0 | .unloaded => 1 | .ready => 2 | .failed => 3

/-- VEN_VEIN_v_STATUS (R478). -/
def veinStatusWord (c : Ctl) (d : Plane) (v : Nat) : Word :=
  let x := d.vein v
  let r := c.veinRec v
  field x.state.num 2 0
    ||| (match r with | some r => if x.state = .absent then 0 else field r.stages.length 4 2 ||| field r.binding 2 6 | none => 0)
    ||| field (min 255 x.runs.length) 8 8 ||| bitIf x.saturated 16 ||| bitIf x.nanOut 17 ||| bitIf x.infOut 18

/-- VEN_TILE_t_USE (R447, R478). -/
def tileUseWord (c : Ctl) (t : Nat) : Word :=
  let x := placeStages c.static.parts c.job fun _ => true
  let n := SMap.find 0 x.stages t
  let near := SMap.find 0 x.near t
  field n 3 0 ||| field ((tileWeights c.job t + near + 1023) / 1024) 13 8 ||| bitIf (decide (near < n * queueBytes)) 21

/-- VEN, with the counts of the staging queues (R261, R477). -/
def readVen (c : Ctl) (d : Plane) (a : Nat) : Word :=
  match inArr 0x801000 256 4 a with
  | some i =>
    let v := i / 4
    if i % 4 = 0 then veinStatusWord c d v else if i % 4 = 1 then (d.vein v).err0 else if i % 4 = 2 then (d.vein v).err1
    else d.reg a
  | none => match inArr 0x802000 256 4 a with
  | some t => tileUseWord c t
  | none => match inArr 0xFF0000 1024 4 a with
  | some q => stgCount (d.queue q)
  | none => d.reg a

/-- A word of a port's block; a disabled port shows its status only (R144, R177, R398). -/
def readPrt (c : Ctl) (d : Plane) (n o : Nat) : Word :=
  let p := d.port n
  if o = 4 then prtStatusWord p
  else if p.link = .disabled then 0
  else if o = 0x14 then (c.mac n).setWidth 32
  else if o = 0x18 then ((c.mac n) >>> 32).setWidth 32
  else if o = 0x28 then prtReplayWord p
  else if o = 0x40 then timeStatusWord c d n
  else d.reg (Reg.prt n o)

/-- A word of a stack's block (R543). -/
def readHbm (c : Ctl) (d : Plane) (s o : Nat) : Word :=
  if o = 0 then hbmStatusWord c s
  else if o = 4 then field ((c.stackHbm s).copied c) 11 0
  else match inArr 0x100 32 4 o with
    | some k => BitVec.ofNat 32 (SMap.find 0 (c.stackHbm s).ce k)
    | none => d.reg (0x1400000 + s * 0x10000 + o)

/-- TIL_n_ID of a physical tile (R16, R18). -/
def tileIdWord (c : Ctl) (t : Nat) : Word :=
  let serving := if c.image.isSome && c.tileState t == 0 then c.logicalOf t else none
  let part := if c.image.isSome && c.tileState t == 0 then c.partOfTile t else none
  field (serving.getD 0xFF) 8 0 ||| field (t / 68) 2 8 ||| field (c.tileState t).toNat 2 10 ||| field (part.getD 0) 5 12
    ||| bitIf part.isSome 17

/-! ### Ring contexts (R228, R229) -/

def RingState.num : RingState → Nat
  | .disabled => 0 | .enabled => 1 | .error => 2 | .stopping => 3

/-- Word at offset `o` of the context of a work ring. -/
def readWrg (d : Plane) (k o : Nat) : Word :=
  let r := d.ring k
  if o = 0x14 then
    field r.state.num 2 0 ||| bitIf (r.stall && decide (d.cqFree (d.wrgCq k) = 0)) 2 ||| bitIf r.cfgErr 3 ||| bitIf r.tooLong 4
      ||| field (r.fetched.length + r.descs.length + heldDescs d k) 16 16
  else if o = 0x18 then field r.producer.toNat 16 0 ||| field r.consumer.toNat 16 16
  else if o = 0x1C then field r.errIndex.toNat 16 0 ||| field r.errCause 8 16 ||| field r.errOffset 8 24
  else d.reg (Reg.wrg k o)

/-- Word at offset `o` of the context of a completion ring. -/
def readCmp (d : Plane) (x o : Nat) : Word :=
  let q := d.cq x
  if o = 0x14 then
    bitIf q.enabled 0 ||| bitIf (q.enabled && d.cqFree x == 0) 1 ||| bitIf q.armed 2 ||| bitIf q.cfgErr 3 ||| bitIf q.badConsumer 4
      ||| bitIf q.refused 5 ||| bitIf q.overflow 6 ||| field q.pending 16 16
  else if o = 0x18 then field q.write.toNat 16 0 ||| field q.consumer.toNat 16 16
  else if o = 8 then d.reg (Reg.cmp x 8) ||| bitIf (d.ringLoc (Reg.cmp x 0)) 4
  else d.reg (Reg.cmp x o)

/-! ### Any register (R43, R44) -/

/-- The word at an address of BAR0; 0 where no register is (R44). -/
def readWord (c : Ctl) (d : Plane) (a : Nat) : Word :=
  if a < 0x10000 then readIdn c a
  else if a < 0x20000 then readOwn c a
  else if a < 0x30000 then readLat c d a
  else if a < 0x40000 then readPwr c d a
  else if a < 0x80000 then readLod c d a
  else if a < 0xC0000 then readFlt c d a
  else if a < 0x100000 then readObs c d a
  else if a < 0x200000 then readPar d a
  else if a < 0x300000 then readXlt c d a
  else if a < 0x400000 then d.reg a
  else if a < 0x500000 then readXpt c d a
  else if a < 0x600000 then readSch c d a
  else if a < 0x700000 then readCip c d a
  else if a < 0x800000 then readCol d a
  else if a < 0x1000000 then readVen c d a
  else if a < 0x1300000 then readPrt c d ((a - 0x1000000) / 0x10000) (a % 0x10000)
  else if a < 0x1400000 then 0
  else if a < 0x1540000 then readHbm c d ((a - 0x1400000) / 0x10000) (a % 0x10000)
  else if a < 0x1800000 then 0
  else if a < 0x1910000 then (if a % 0x1000 = 0 then tileIdWord c ((a - 0x1800000) / 0x1000) else 0)
  else if a < 0x2000000 then 0
  else if a < 0x2080000 then readWrg d ((a - 0x2000000) / 0x40) (a % 0x40)
  else if a < 0x2100000 then readCmp d ((a - 0x2080000) / 0x40) (a % 0x40)
  else 0

/-- What a read changes: an RC register clears; ERRCNT also re-arms its vein's error words (R12, R477); the present state
of a counter set is a free value (log 6). -/
def readSide (a : Nat) (w : Word) (d : Plane) : Word × Plane :=
  match inArr 0xC1000 (lastSet + 1) 4 a with
  | some _ =>
    let r := d.draw
    (field (r.1.toNat % 256) 8 0 ||| field (r.1.toNat / 256 % 3) 2 8, r.2)
  | none => match inArr (Reg.venErrcnt 0) 64 0x10 a with
  | some v =>
    (w, (d.afterRead a).onVein v fun x => { x with
      err0 := 0, err1 := 0, errArmed := true, saturated := false, nanOut := false, infOut := false })
  | none => (w, d.afterRead a)

/-! ### An access on the bus (R8, R35, R36, R97) -/

/-- The agent whose snapshots an access uses: 1 to 3 over BAR0, 16 + v for a virtual function. -/
def viaAgent : Via → Nat
  | .bar a => agentId a
  | .vf v => 16 + v.val

/-- The key of an agent's snapshot of a quantity. -/
def snapKey (agent lo : Nat) : Nat := agent * 2 ^ 32 + lo

def Ctl.snap (c : Ctl) (agent lo : Nat) : Option DWord := (SMap.find {} c.snaps (snapKey agent lo)).value

def setSnap (s : State) (agent lo : Nat) (v : Option DWord) : State :=
  onCtl (fun c => { c with snaps := SMap.put {} c.snaps (snapKey agent lo) { owner := if v.isSome then agent else 0, value := v } }) s

/-- The word an access finds, with the snapshot rule of 64-bit quantities, and the state after it. -/
def readReg (s : State) (agent a : Nat) : Word × State :=
  match quantityOf a with
  | some lo =>
    let h := readWord s.ctl s.pl (lo + 4)
    let l := readWord s.ctl s.pl lo
    if a = lo then (l, setSnap s agent lo (some (h ++ l)))
    else match s.ctl.snap agent lo with
      | some v => (hiWord v, setSnap s agent lo none)
      | none => (h, s)
  | none =>
    let r := readSide a (readWord s.ctl s.pl a) s.pl
    (r.1, { s with pl := r.2 })

/-- The answer to a read is on the bus (log 9). -/
def answer (s : State) (w : Word) : State := { s with pl := { s.pl with bus := { data := w } } }

/-- A 32-bit read of BAR0 by an agent: all-ones when it is not aligned (R8); a block without power gives a free value
(R121), and a block in reset its reset values (R89). -/
def readBar (s : State) (agent a : Nat) : Word × State :=
  if a % 4 ≠ 0 then (0xFFFFFFFF, s)
  else if 0x4000000 ≤ a then (0, s)
  else if standbyBlock a || (s.ctl.dev.state.booted && s.ctl.dev.rails) then readReg s agent a
  else
    let r := s.pl.draw
    (r.1.setWidth 32, { s with pl := r.2 })

end Sys2Proof.Machine
end

