-- ==== Sys2Proof/Machine/Writes.lean ====
section
/-! DEFINITION. Writes of the register space: what each register does when written, the held low halves of 64-bit
quantities (R37), the windows of virtual functions (R508, R509), and the four paths that reach them: PCIe, I3C, the
management queue pair and BAR4 (R9, R96, R128, R188, R284). -/
namespace Sys2Proof.Machine

/-! ### One register of the data side -/

/-- A new XLT_FAULT_TIMEOUT: slots that are already old enough fail at once (R204). -/
def writeTimeout (c : Ctl) (d : Plane) (v : Word) : Plane :=
  let d := d.writeReg Reg.faultTimeout v
  let limit := bits (d.reg Reg.faultTimeout) 13 0
  if limit = 0 then d
  else (List.range 512).foldl (fun d k =>
    if (d.slot k).isOpen && decide (limit ≤ slotAge c (d.slot k)) then resolveSlot c d k false else d) d

/-- SCH_QP_READ: the pacing state of a queue pair goes to the snapshot (R365, R366). -/
def schQpRead (c : Ctl) (d : Plane) (n : Nat) : Plane :=
  let q := d.qp n
  let f := d.flow n
  let released : Bool := match f.place with | .port _ | .cipher => true | _ => false
  let words : List Word :=
    if q.resident && q.state == .ready then
      [ field q.rateD 21 0 ||| bitIf true 31, field q.rateE 21 0, field (min 0xFFFFFF (baseOf q)) 24 0,
        field (min 0xFFFF (q.alpha / 2 ^ 48)) 16 0 ||| field (if released then 0 else min 0xFFFF ((f.next - c.ns) / 32)) 16 16 ]
    else [0, 0, 0, 0]
  words.zipIdx.foldl (fun d x => d.setReg (Reg.schSnap x.2) x.1) d

/-- The context register of a ring: BASE, CFG and CFG2 are writable only while the ring is DISABLED (R230). -/
def writeRingReg (d : Plane) (a : Nat) (v : Word) : Plane :=
  if a < Reg.cmp 0 0 then (if (d.ring ((a - Reg.wrg 0 0) / 0x40)).state = .disabled then d.writeReg a v else d)
  else if (d.cq ((a - Reg.cmp 0 0) / 0x40)).enabled then d else d.writeReg a v

/-- The scheduling registers whose write does more than store (R357, R359). -/
def writeSch (c : Ctl) (d : Plane) (a : Nat) (v : Word) : Plane :=
  let n := (a - Reg.sch 0 0) / 0x100
  let o := (a - Reg.sch 0 0) % 0x100
  if Reg.sch 0 0 ≤ a ∧ a < Reg.sch 48 0 ∧ o % 4 = 0 then
    (if o < 0x1C then writeQuantum d n (o / 4) v
     else if 0x20 ≤ o ∧ o < 0x58 then writeShaper c d n ((o - 0x20) / 8) (decide (o % 8 = 4)) v
     else d.writeReg a v)
  else d.writeReg a v

/-- A write to a storage register of BAR0, with the rules of its block. -/
def writeStored (c : Ctl) (d : Plane) (a : Nat) (v : Word) : Plane :=
  if a = Reg.faultTimeout then writeTimeout c d v
  else if 0x500000 ≤ a ∧ a < 0x600000 then writeSch c d a v
  else if 0x1000000 ≤ a ∧ a < 0x1300000 then
    (if (d.port ((a - 0x1000000) / 0x10000)).link = .disabled then d else d.writeReg a v)
  else if 0x2000000 ≤ a ∧ a < 0x2100000 then writeRingReg d a v
  else match inArr (Reg.region 0) 32 4 a with
    | some i => regionWrite d (i / 2) (decide (i % 2 = 1)) v
    | none => writeSampler d a v

/-! ### 64-bit quantities (R37, R305) -/

/-- A quantity that software may write. -/
def writable (lo : Nat) : Bool := match regRow lo with | some r => r.acc == .rw | none => false

/-- A quantity that takes writes now: not the base of a ring that is not DISABLED, nor a region in use (R230, R305). -/
def quantityOpen (d : Plane) (lo : Nat) : Bool :=
  if Reg.wrg 0 0 ≤ lo ∧ lo < Reg.cmp 0 0 then (d.ring ((lo - Reg.wrg 0 0) / 0x40)).state == .disabled
  else if Reg.cmp 0 0 ≤ lo ∧ lo < Reg.cmp 8192 0 then !(d.cq ((lo - Reg.cmp 0 0) / 0x40)).enabled
  else match inArr (Reg.region 0) 32 4 lo with
    | some i => !(d.qps.any fun x => x.1 / 65536 == i / 2 && x.2.state != .free)
    | none => true

/-- A low half is held for the agent; another agent's is discarded. -/
def holdLo (s : State) (agent lo : Nat) (v : Word) : State :=
  if quantityOpen s.pl lo then
    onCtl (fun c => { c with held := SMap.put {} c.held lo { owner := agent, value := some (v.setWidth 64) } }) s
  else s

/-- The high half applies both halves as one update. -/
def applyHi (s : State) (agent lo : Nat) (v : Word) : State :=
  let h : Hold := SMap.find {} s.ctl.held lo
  match (if h.owner = agent then h.value else none) with
  | some x =>
    let s := onCtl (fun c => { c with held := SMap.put {} c.held lo {} }) s
    onPlane (fun c d => writeStored c (writeStored c d lo (x.setWidth 32)) (lo + 4) v) s
  | none => onPlane (fun c d => writeStored c d (lo + 4) v) s

/-! ### Commands of the register space -/

/-- XPT_QP_CMD (R304, R307). -/
def qpCmdWritten (c : Ctl) (d : Plane) (f : Nat) (v : Word) : Plane :=
  let cmd := bits v 3 0
  if cmd < 1 ∨ 8 < cmd then d else qpCommand c d f cmd (bits v 31 8)

/-- CIP_KEY_CMD (R496). -/
def keyCmdWritten (d : Plane) (f : Nat) (v : Word) : Plane :=
  let cmd := bits v 2 0
  if cmd = 1 then keyLoad d f (bits v 31 16)
  else if cmd = 2 then keyClear d f (bits v 31 16) (flag v 3)
  else if cmd = 3 then keyActivate d f (bits v 31 16) (flag v 3)
  else d

/-- WRG_k_CTRL (R229): ENABLE of a ring that is DISABLED, SHUTDOWN of any other. -/
def wrgCtrl (c : Ctl) (d : Plane) (k : Nat) (v : Word) : Plane :=
  if ringHeldUp c d k then d
  else
    let d := if flag v 0 then wrgEnable c d k else d
    if flag v 1 then wrgShutdown c d k else d

/-- CMP_c_CTRL (R229). -/
def cmpCtrl (c : Ctl) (d : Plane) (x : Nat) (v : Word) : Plane :=
  if ringHeldUp c d x then d
  else
    let d := if flag v 0 then cmpEnable c d x else d
    if flag v 1 then cmpDisable d x else d

/-- OWN_LEASE (R95, R100). -/
def leaseWritten (s : State) (v : Word) : State :=
  if flag v 1 then releaseOwner s else if flag v 0 then renewLease s else s

/-- FLT_CLEAR_FIRST (R520). -/
def clearFirst (s : State) (v : Word) : State := if flag v 0 then onFlt (fun f => { f with first := none }) s else s

/-- FLT_FORCE (R523). -/
def forceWritten (s : State) (v : Word) : State :=
  if bits v 17 16 = 1 then forceFault s (bits v 15 0) (bits v 25 18)
  else if bits v 17 16 = 2 then forceWire s (bits v 15 0)
  else s

/-- The registers of OWN, LAT and FLT that act when the owner writes them. -/
def writeControl (s : State) (a : Nat) (v : Word) : State :=
  if a = 0x10004 then leaseWritten s v
  else if a = 0x10010 then writePeer s v
  else if a = 0x10018 then ownCommand s (bits v 3 0) (bits v 5 4)
  else if a = 0x10020 then onOwn (fun o => { o with dataLen := bits v 6 0 }) s
  else if a = 0x20000 then latCommand s (bits v 3 0) (flag v 4)
  else if a = 0x80004 then clearFirst s v
  else if a = 0x80008 then forceWritten s v
  else if a = 0x8000C then histRead s (bits v 4 0)
  else match inArr 0x10040 16 4 a with
  | some i => writeData s i v
  | none => match inArr 0x81000 64 4 a with
  | some k => clearPending s k v
  | none => s

/-- The registers of the data side that act when written. -/
def writeCommand (c : Ctl) (d : Plane) (a : Nat) (v : Word) : Plane :=
  if a = 0x100000 then parCommand c d (bits v 3 0) (bits v 8 4) (bits v 25 16)
  else if a = 0x20000C then resolveSlot c d (bits v 8 0) (!flag v 9)
  else if a = 0x300000 then winRead d (bits v 19 0)
  else if a = 0x400000 then qpCmdWritten c d 0 v
  else if a = 0x400054 then fenceRead c d (bits v 9 0)
  else if a = 0x500020 then schQpRead c d (bits v 19 0)
  else if a = 0x600000 then keyCmdWritten d 0 v
  else if a = 0x600020 then slotRead d 0 (bits v 15 0)
  else match inArr (Reg.prt 0 0) 48 0x10000 a with
  | some n => if flag v 0 ∧ (d.port n).link ≠ .disabled then retrainUp c d n else d
  | none => match inArr (Reg.wrg 0 0x10) 8192 0x40 a with
  | some k => wrgCtrl c d k v
  | none => match inArr (Reg.cmp 0 0x10) 8192 0x40 a with
  | some x => cmpCtrl c d x v
  | none => writeStored c d a v

/-- A write that the owner makes. EN of LOD_PTP_CTRL starts the 3 s of R386 (log 152). -/
def writeOwned (s : State) (agent a : Nat) (v : Word) : State :=
  match quantityOf a with
  | some lo => if !writable lo then s else if a = lo then holdLo s agent lo v else applyHi s agent lo v
  | none =>
    if a < 0x30000 ∨ (0x80000 ≤ a ∧ a < 0xC0000) then
      (if (regRow a).isSome then onPlane (fun c d => writeStored c d a v) s else writeControl s a v)
    else
      let starts : Bool := a == Reg.ptpCtrl && flag v 0 && !flag (s.pl.reg a) 0
      let s := onPlane (fun c d => writeCommand c d a v) s
      if starts then onLod (fun l => { l with ptpAt := s.ctl.ns }) s else s

/-- A write of BAR0 by an agent (R9, R94 to R97). -/
def writeBar (s : State) (a : Agent) (addr : Nat) (v : Word) : State :=
  if addr % 4 ≠ 0 ∨ 0x4000000 ≤ addr then s
  else if addr = 0x10000 then claim s a v
  else if addr = 0x10008 ∧ flag v 5 then acceptHandover s a (BitVec.ofNat 2 (bits v 1 0))
  else if addr = 0x10008 then owned a addr (fun s => nameSuccessor s (BitVec.ofNat 2 (bits v 1 0))) s
  else if addr = 0x1000C then clearReject s a v
  else owned a addr (fun s => writeOwned s (agentId a) addr v) s

/-! ### The windows of virtual functions (R504, R508, R509) -/

/-- What an address of a virtual function's BAR0 names. -/
inductive VfReg where
  | ident
  | work (ring offset : Nat)
  | comp (ring offset : Nat)
  | qp (offset : Nat)
  | key (offset : Nat)
  | resolve
  | fault (slot word : Nat)
  | counter (offset : Nat)
  | msix (offset : Nat)
  | nothing
  deriving DecidableEq, Repr

def vfReg (d : Plane) (v a : Nat) : VfReg :=
  let x := d.vf v
  let ring (o : Nat) (f : Nat → Nat → VfReg) : VfReg := if o / 0x40 < x.count then f (x.first + o / 0x40) (o % 0x40) else .nothing
  if !x.bound then .nothing
  else if a = 0 then .ident
  else if 0x10000 ≤ a ∧ a < 0x20000 then ring (a - 0x10000) .work
  else if 0x20000 ≤ a ∧ a < 0x30000 then ring (a - 0x20000) .comp
  else if 0x30000 ≤ a ∧ a < 0x30010 then .qp (a - 0x30000)
  else if 0x40000 ≤ a ∧ a < 0x40030 ∧ ¬ (0x40010 ≤ a ∧ a < 0x40020) then .key (a - 0x40000)
  else if a = 0x50000 then .resolve
  else if 0x50010 ≤ a ∧ a < 0x50110 then .fault (16 * x.part + (a - 0x50010) / 0x10) (a % 0x10 / 4)
  else if 0x60000 ≤ a ∧ a < 0x60054 then .counter (a - 0x60000)
  else if 0x80000 ≤ a ∧ a < 0x80400 then .msix (a - 0x80000)
  else .nothing

/-- A CFG word with the function's partition in place of its PARTITION field (R509). -/
def withPart (w : Word) (lo part : Nat) : Word := w - field (bits w (lo + 4) lo) 5 lo + field part 5 lo

/-- The word a virtual function reads. -/
def readVfWord (c : Ctl) (d : Plane) (v a : Nat) : Word :=
  let x := d.vf v
  match vfReg d v a with
  | .ident => field x.part 5 0 ||| field v 10 6 ||| field x.count 16 16
  | .work k o => if o = 8 then withPart (readWrg d k o) 5 x.part else readWrg d k o
  | .comp k o => if o = 8 then withPart (readCmp d k o) 6 x.part else readCmp d k o
  | .qp o => if o = 4 then qpStatusWord (d.qpCmd (1 + v)) else d.reg (Reg.vf v (0x30000 + o))
  | .key o => if o = 4 then cipStatusWord (d.cipCmd (1 + v)) else d.reg (Reg.vf v (0x40000 + o))
  | .fault k w => slotWord c (d.slot k) w
  | .counter o => readPc d x.part o
  | .msix o => d.reg (Reg.vf v (0x80000 + o))
  | .resolve | .nothing => 0

/-- Where BAR0 holds what an address of a virtual function's window aliases; the model's own place for the rest. -/
def vfHome (d : Plane) (v a : Nat) : Nat :=
  match vfReg d v a with
  | .work k o => Reg.wrg k o
  | .comp k o => Reg.cmp k o
  | .counter o => Reg.pc (d.vf v).part o
  | _ => Reg.vf v a

/-- A virtual function's accesses reach the device: PCIe is up and the device is out of reset. -/
def Ctl.vfUp (c : Ctl) : Bool := c.dev.pcieUp && c.dev.state.booted && !c.dev.inReset

/-- Its writes do: it is bound, and neither it nor its partition is being reset (R503, R504). -/
def vfWrites (c : Ctl) (d : Plane) (v : VfId) : Bool :=
  c.vfUp && (d.vf v.val).bound && (d.part (d.vf v.val).part).state != .resetting
    && !(c.dev.funcReset.any fun f => f == .pf || f == .vf v)

/-- A 32-bit read of a virtual function's BAR0. -/
def readVf (s : State) (v : VfId) (a : Nat) : Word × State :=
  if a % 4 ≠ 0 then (0xFFFFFFFF, s)
  else if !s.ctl.vfUp ∨ 0x100000 ≤ a then (0, s)
  else
    let w := readVfWord s.ctl s.pl v.val a
    let home := vfHome s.pl v.val a
    match quantityOf home with
    | some lo =>
      let agent := viaAgent (.vf v)
      if home = lo then
        (w, setSnap s agent lo (some (readVfWord s.ctl s.pl v.val (a + 4) ++ w)))
      else match s.ctl.snap agent lo with
        | some x => (hiWord x, setSnap s agent lo none)
        | none => (w, s)
    | none => (w, { s with pl := s.pl.afterRead home })

/-- A write to a register of a virtual function's window. -/
def vfStored (c : Ctl) (d : Plane) (v a : Nat) (w : Word) : Plane :=
  let x := d.vf v
  match vfReg d v a with
  | .work k o =>
    if o = 0x10 then wrgCtrl c (if (d.ring k).state = .disabled then d.setReg (Reg.wrg k 8) (withPart (d.wrgCfg k) 5 x.part) else d) k w
    else writeRingReg d (Reg.wrg k o) (if o = 8 then withPart w 5 x.part else w)
  | .comp k o =>
    if o = 0x10 then cmpCtrl c (if (d.cq k).enabled then d else d.setReg (Reg.cmp k 8) (withPart (d.cmpCfg k) 6 x.part)) k w
    else writeRingReg d (Reg.cmp k o) (if o = 8 then withPart w 6 x.part else w)
  | .qp o => if o = 0 then qpCmdWritten c d (1 + v) w else d.writeReg (Reg.vf v (0x30000 + o)) w
  | .key o =>
    if o = 0 then keyCmdWritten d (1 + v) w else if o = 0x20 then slotRead d (1 + v) (bits w 15 0)
    else d.writeReg (Reg.vf v (0x40000 + o)) w
  | .resolve => if bits w 8 0 / 16 = x.part then resolveSlot c d (bits w 8 0) (!flag w 9) else d
  | .counter o => writeSampler d (Reg.pc x.part o) w
  | .msix o => d.writeReg (Reg.vf v (0x80000 + o)) w
  | .ident | .fault _ _ | .nothing => d

/-- A 32-bit write of a virtual function's BAR0, with the held halves of R37. -/
def writeVf (s : State) (v : VfId) (a : Nat) (w : Word) : State :=
  if a % 4 ≠ 0 ∨ 0x100000 ≤ a ∨ !vfWrites s.ctl s.pl v then s
  else
    let home := vfHome s.pl v.val a
    let agent := viaAgent (.vf v)
    match quantityOf home with
    | some lo =>
      if !writable lo then s
      else if home = lo then holdLo s agent lo w
      else
        let h : Hold := SMap.find {} s.ctl.held lo
        match (if h.owner = agent then h.value else none) with
        | some x =>
          let s := onCtl (fun c => { c with held := SMap.put {} c.held lo {} }) s
          onPlane (fun c d => vfStored c (vfStored c d v.val (a - 4) (x.setWidth 32)) v.val a w) s
        | none => onPlane (fun c d => vfStored c d v.val a w) s
    | none => onPlane (fun c d => vfStored c d v.val a w) s

/-! ### Accesses by path -/

/-- A read by either kind of access. -/
def readVia (s : State) (a : Via) (addr : Nat) : State :=
  match a with
  | .bar g => if s.ctl.arrives g then let r := readBar s (agentId g) addr; answer r.2 r.1 else s
  | .vf v => let r := readVf s v addr; answer r.2 r.1

/-- A read of any size (R8): over PCIe any other than 32 bits returns all-ones and touches nothing. -/
def readSized (s : State) (a : Via) (addr size : Nat) : State :=
  let ones := answer s 0xFFFFFFFF
  let ones := { ones with pl := { ones.pl with bus := { ones.pl.bus with wide := List.replicate size 0xFF } } }
  if size = 4 then readVia s a addr
  else match a with
    | .bar .pcie => if s.ctl.arrives .pcie then ones else s
    | .bar _ => readVia s a addr
    | .vf _ => if s.ctl.vfUp then ones else s

/-- A write by either kind of access. -/
def writeVia (s : State) (a : Via) (addr : Nat) (v : Word) : State :=
  match a with
  | .bar g => writeBar s g addr v
  | .vf f => writeVf s f addr v

/-- The address of BAR0 whose register an access reaches. -/
def homeOf (s : State) (a : Via) (addr : Nat) : Nat :=
  match a with
  | .bar _ => addr
  | .vf v => vfHome s.pl v.val addr

/-- An address names the _LO register of a 64-bit quantity, or the _HI register. -/
def namesLo (s : State) (a : Via) (addr : Nat) : Bool := quantityOf (homeOf s a addr) == some (homeOf s a addr)
def namesHi (s : State) (a : Via) (addr : Nat) : Bool := (quantityOf (homeOf s a addr)).isSome && !namesLo s a addr

/-- A write of any size: only naturally aligned 32-bit writes count (R9). -/
def writeSized (s : State) (a : Via) (addr size : Nat) (v : Word) : State := if size = 4 then writeVia s a addr v else s

/-- A command register that a virtual function's window also has: the owner's write through BAR0, or the function's. -/
def viaWrite (a : Via) (addr : Nat) (f : State → State) (s : State) : State :=
  match a with
  | .bar g => owned g addr f s
  | .vf v => if vfWrites s.ctl s.pl v then f s else s

/-- A control register of a ring: a virtual function reaches the rings it holds (R506, R509). -/
def viaRing (a : Via) (addr k : Nat) (f : State → State) (s : State) : State :=
  match a with
  | .bar _ => viaWrite a addr f s
  | .vf v => if s.pl.holder k = 1 + v.val then viaWrite a addr f s else s

/-- The static I3C address (R127). -/
def Dev.i3cStatic (x : Dev) : BitVec 7 := BitVec.ofNat 7 (0x60 + x.slotId.toNat)

/-- The transfer is not acknowledged. -/
def i3cNack (s : State) : State := { s with pl := { s.pl with bus := { nack := true } } }

/-- A private transfer to this target (R128): 8 bytes write a register; 4 bytes and a read of 4 read one; another length is
NACKed. -/
def i3cPrivate (s : State) (sent : List Byte) (readLen : Nat) : State :=
  if sent.length = 8 ∧ readLen = 0 then
    let s := writeBar s .i3c (getLe sent 0 4) (BitVec.ofNat 32 (getLe sent 4 4))
    { s with pl := { s.pl with bus := {} } }
  else if sent.length = 4 ∧ readLen = 4 then
    let r := readBar s (agentId .i3c) (getLe sent 0 4)
    answer r.2 r.1
  else i3cNack s

/-- What happens on the I3C bus (R128): the target answers at its dynamic address, or at its static one while it has none,
and takes a dynamic address while it has none (PRESUMED, log 136). -/
def i3cTransfer (s : State) (bus : I3cBus) (sent : List Byte) (readLen : Nat) : State :=
  let x := s.ctl.dev
  let take (a : BitVec 7) : State :=
    onDev (fun x => { x with i3cAddr := some a }) { s with pl := { s.pl with bus := {} } }
  if !s.ctl.arrives .i3c then s
  else match bus with
    | .transfer target => if target = x.i3cAddr.getD x.i3cStatic then i3cPrivate s sent readLen else i3cNack s
    | .setStatic target a => if x.i3cAddr.isNone && target == x.i3cStatic then take a else i3cNack s
    | .setDynamic a => if x.i3cAddr.isNone then take a else i3cNack s
    | .resetDynamic => onDev (fun x => { x with i3cAddr := none }) { s with pl := { s.pl with bus := {} } }

/-- A BAR4 access (R42, R188): an offset beyond the size of BAR4 is no access of it. -/
def bar4 (s : State) (offset : Nat) (store : Bool) (data : List Byte) : State :=
  if !s.ctl.vfUp || decide (s.ctl.dev.bar4 < offset + data.length) then s
  else
    let a := bits (s.pl.reg Reg.bar4Base) 9 0 * 2 ^ 30 + offset
    let inside := decide (a + data.length ≤ stackedEnd)
    if store then (if inside then onPlane (fun c d => writeLocal c d 0 a data) s else s)
    else if !inside then { s with pl := { s.pl with bus := { wide := List.replicate data.length 0xFF } } }
    else
      let r := readLocal s.ctl s.pl 0 a data.length
      match r.1 with
      | some bs => { s with pl := { r.2 with bus := { wide := bs } } }
      | none =>
        let w := r.2.drawBytes data.length
        { s with pl := { w.2 with bus := { wide := w.1 } } }

/-! ### Management requests (R283, R284) -/

/-- STATUS of a request before any access. -/
def mgmtStatus (m : Mgmt) : Nat :=
  if m.address % 4 ≠ 0 then 1
  else if 0x4000000 < m.address + 4 * m.count then 2
  else if (m.op ≠ 1 ∧ m.op ≠ 2) ∨ m.count < 1 ∨ 64 < m.count ∨ m.data.length ≠ (if m.op = 2 then 4 * m.count else 0) then 3
  else 0

/-- The registers of a request, one by one, from the lowest address. -/
def mgmtAccesses (m : Mgmt) : Nat → Nat → State → List Byte × State
  | 0, _, s => ([], s)
  | n + 1, k, s =>
    let a := m.address + 4 * k
    if m.op = 2 then
      mgmtAccesses m n (k + 1) (settle (writeBar s .mgmt a (BitVec.ofNat 32 (getLe m.data (4 * k) 4))))
    else
      let r := readBar s (agentId .mgmt) a
      let rest := mgmtAccesses m n (k + 1) r.2
      (leBytes 4 r.1.toNat ++ rest.1, rest.2)

/-- The next queued request is executed and answered; one whose REQ_ID a kept response has is answered with it (R284). -/
def mgmtExecute (s : State) : State :=
  match s.pl.xpt.mgmtQueue with
  | [] => s
  | m :: rest =>
    if !s.ctl.arrives .mgmt ∨ s.ctl.dev.inReset then s
    else
      let s := { s with pl := { s.pl with xpt := { s.pl.xpt with mgmtQueue := rest } } }
      match s.pl.xpt.mgmtKept.find? (·.reqId == m.reqId) with
      | some k => { s with pl := sendMgmt s.ctl s.pl { k with back := m.back } }
      | none =>
      let st := mgmtStatus m
      let r := if st = 0 then mgmtAccesses m m.count 0 s else ([], s)
      let s := r.2
      if s.ctl.dev.inReset then s
      else
        let done := { m with status := st, data := r.1 }
        let kept := (s.pl.xpt.mgmtKept ++ [done])
        let s := { s with pl := { s.pl with xpt := { s.pl.xpt with mgmtKept := kept.drop (kept.length - 16) } } }
        { s with pl := sendMgmt s.ctl s.pl done }

end Sys2Proof.Machine
end

