-- ==== Sys2Proof/Machine/PowerCmds.lean ====
section
/-! DEFINITION. The commands of power, pins, clocks, resets and temperature (R83 to R91, R106 to R108, R118 to R142,
R562, R566). -/
namespace Sys2Proof.Machine

/-- What a command of this model answers: the next state. -/
abbrev Answer := Host.Outcome State Fault Refusal

/-- VIN_OUT_OF_RANGE (R119): outputs go dark, every rail turns off, OFF. -/
def execVinOutOfRange (s : State) : Answer := .next (ctlStep powerOff s)

/-- VIN_IN_RANGE (R119, R127): OFF becomes STANDBY, and SLOT_ID is sampled. -/
def execVinInRange (slotId : BitVec 4) (s : State) : Answer := .next (ctlStep (fun s => powerOn s slotId) s)

/-- PWR_EN_RISE (R122). -/
def execPwrEnRise (s : State) : Answer := .next (ctlStep pwrEnRises s)

/-- MAIN_RAILS_GOOD (R122, R123). -/
def execMainRailsGood (s : State) : Answer := .next (ctlStep railsGood s)

/-- PWR_EN_FALL (R84, R89): a rail-off reset from BOOT or a later state. -/
def execPwrEnFall (s : State) : Answer := .next (ctlStep pwrEnFalls s)

/-- RESET_N_LOW (R124): a device reset with cause 1 in BOOT and later states. -/
def execResetNLow (s : State) : Answer :=
  .next (ctlStep (fun s => startReset (onDev (fun x => { x with pins := { x.pins with resetN := false } }) s) 1) s)

/-- PLL_LOCKED (R562). -/
def execPllLocked (p : Pll) (s : State) : Answer := .next (ctlStep (fun s => pllLocks s p) s)

/-- PLL_LOCK_LOSS (R41). -/
def execPllLockLoss (p : Pll) (s : State) : Answer := .next (ctlStep (fun s => loseLock s p) s)

/-- REFCLK_LOSS (R41, R130). -/
def execRefclkLoss (s : State) : Answer := .next (ctlStep refclkLost s)

/-- PCIE_REFCLK_LOSS (R41, R130). -/
def execPcieRefclkLoss (s : State) : Answer := .next (ctlStep pcieRefclkLost s)

/-- BOOT_ENTRY (R84, R87, R88). -/
def execBootEntry (s : State) : Answer := .next (ctlStep bootEntry s)

/-- PCIE_LINK_UP (R42, R87). -/
def execPcieLinkUp (s : State) : Answer := .next (ctlStep linkUp s)

/-- PCIE_LINK_DOWN (R108). -/
def execPcieLinkDown (s : State) : Answer := .next (ctlStep linkDown s)

/-- DEVICE_RESET_COMPLETE (R566). -/
def execDeviceResetComplete (r : Readings) (s : State) : Answer := .next (ctlStep (fun s => resetComplete s r) s)

/-- FUNCTION_RESET_PF (R89). -/
def execFunctionResetPf (s : State) : Answer := .next (ctlStep (fun s => funcResetBegins s .pf) s)

/-- FUNCTION_RESET_VF (R89, R508). -/
def execFunctionResetVf (v : VfId) (s : State) : Answer := .next (ctlStep (fun s => funcResetBegins s (.vf v)) s)

/-- FUNCTION_RESET_DRAINED (R90). -/
def execFunctionResetDrained (f : Func) (s : State) : Answer := .next (ctlStep (fun s => funcResetDone s f) s)

/-- LASER_BANK_BIASED (R84): CONFIGURED becomes TRAINING. -/
def execLaserBankBiased (s : State) : Answer := .next (ctlStep laserBiased s)

/-- TRAINING_COMPLETE (R84): SERVICE, or DEGRADED with a unit kind short of spares. -/
def execTrainingComplete (s : State) : Answer := .next (ctlStep trainingDone s)

/-- TIME_ACQUISITION_TIMEOUT (R84). -/
def execTimeAcquisitionTimeout (s : State) : Answer := .next (ctlStep acquisitionTimeout s)

/-- ALERT_TOGGLE (R132). -/
def execAlertToggle (s : State) : Answer := .next (ctlStep alertToggle s)

/-- DUTY_STEP (R138, R140). -/
def execDutyStep (r : Readings) (s : State) : Answer := .next (ctlStep (fun s => dutyStep s r) s)

/-- THERMAL_TRIP (R139). -/
def execThermalTrip (k : SensorKind) (celsius : Nat) (s : State) : Answer := .next (ctlStep (fun s => thermalTrip s k celsius) s)

/-- PWR_EVENT_CONDITION (R142): new readings; each condition that arises sets its event bit. -/
def execPwrEventCondition (r : Readings) (s : State) : Answer := .next (ctlStep (fun s => measure s r) s)

end Sys2Proof.Machine
end

