-- ==== Sys2Proof/Machine/RegCmds.lean ====
section
/-! DEFINITION. The commands of register access (R8 to R12, R35 to R37, R128, R188), and the registers whose write takes a
snapshot or clears a count. -/
namespace Sys2Proof.Machine

/-- I3C_TRANSFER (R128). -/
def execI3cTransfer (sent : I3cFrame) (readLen : Nat) (s : State) : Answer := .next (ctlStep (fun s => i3cTransfer s sent.bus sent.data readLen) s)

/-- REGISTER_WRITE (R9, R12, R44, R96). -/
def execRegisterWrite (a : Via) (addr size : Nat) (v : Word) (s : State) : Answer :=
  .next (ctlStep (fun s => writeSized s a addr size v) s)

/-- LO_SNAPSHOT_READ (R35): the low register of a 64-bit quantity. -/
def execLoSnapshotRead (a : ReadOf Via) (addr : Nat) (s : State) : Answer :=
  .next (ctlStep (fun s => if namesLo s a.path addr then readSized s a.path addr a.size else s) s)

/-- HI_READ (R35, R36): the high register of a 64-bit quantity. -/
def execHiRead (a : ReadOf Via) (addr : Nat) (s : State) : Answer :=
  .next (ctlStep (fun s => if namesHi s a.path addr then readSized s a.path addr a.size else s) s)

/-- LO_WRITE_HOLD (R37). -/
def execLoWriteHold (a : Via) (addr : Nat) (v : Word) (s : State) : Answer :=
  .next (ctlStep (fun s => if namesLo s a addr then writeVia s a addr v else s) s)

/-- HI_WRITE_APPLY (R37). -/
def execHiWriteApply (a : Via) (addr : Nat) (v : Word) (s : State) : Answer :=
  .next (ctlStep (fun s => if namesHi s a addr then writeVia s a addr v else s) s)

/-- BAR4_ACCESS (R188). -/
def execBar4Access (offset : Nat) (store : Bool) (data : List Byte) (s : State) : Answer :=
  .next (ctlStep (fun s => bar4 s offset store data) s)

/-- FAULT_TIMEOUT_WRITE (R204). -/
def execFaultTimeoutWrite (a : Agent) (v : Word) (s : State) : Answer :=
  .next (ctlStep (owned a Reg.faultTimeout (onPlane fun c d => writeTimeout c d v)) s)

/-- PRT_HELD_WRITE (R178): the value is held; it takes effect at the next job switch or image. -/
def execPrtHeldWrite (a : Agent) (p : PortId) (offset : Nat) (v : Word) (s : State) : Answer :=
  .next (ctlStep (owned a (Reg.prt p.val offset)
    (onPlane fun c d => if heldOffset offset then writeStored c d (Reg.prt p.val offset) v else d)) s)

/-- QPC_REGION_WRITE (R37, R305). -/
def execQpcRegionWrite (a : Agent) (r : Fin 16) (hi : Bool) (v : Word) (s : State) : Answer :=
  .next (ctlStep (owned a (Reg.region r.val) fun s =>
    if hi then applyHi s (agentId a) (Reg.region r.val) v else holdLo s (agentId a) (Reg.region r.val) v) s)

/-- QUANTUM_WRITE (R357). -/
def execQuantumWrite (a : Agent) (p : PortId) (c : Fin 7) (v : Word) (s : State) : Answer :=
  .next (ctlStep (owned a (Reg.quantum p.val c.val) (onPlane fun _ d => writeQuantum d p.val c.val v)) s)

/-- SHAPER_WRITE (R359). -/
def execShaperWrite (a : Agent) (p : PortId) (c : Fin 7) (burst : Bool) (v : Word) (s : State) : Answer :=
  .next (ctlStep (owned a (Reg.shapeRate p.val c.val) (onPlane fun x d => writeShaper x d p.val c.val burst v)) s)

/-- XPT_FENCE_READ (R344, R345). -/
def execXptFenceRead (a : Agent) (index : BitVec 10) (s : State) : Answer :=
  .next (ctlStep (owned a 0x400054 (onPlane fun c d => fenceRead c d index.toNat)) s)

/-- SCH_QP_READ (R365, R366). -/
def execSchQpRead (a : Agent) (q : BitVec 20) (s : State) : Answer :=
  .next (ctlStep (owned a 0x500020 (onPlane fun c d => schQpRead c d q.toNat)) s)

/-- WIN_READ (R221 to R223). -/
def execWinRead (a : Agent) (index : BitVec 20) (s : State) : Answer :=
  .next (ctlStep (owned a 0x300000 (onPlane fun _ d => winRead d index.toNat)) s)

/-- CIP_SLOT_READ (R496, R497, R509). -/
def execCipSlotRead (a : Via) (slot : BitVec 16) (s : State) : Answer :=
  .next (ctlStep (viaWrite a 0x600020 (onPlane fun _ d => slotRead d (viaFn a) slot.toNat)) s)

/-- FLT_HIST_READ (R541). -/
def execFltHistRead (a : Agent) (age : BitVec 5) (s : State) : Answer :=
  .next (ctlStep (owned a 0x8000C fun s => histRead s age.toNat) s)

/-- FLT_CLEAR_FIRST (R520). -/
def execFltClearFirst (a : Agent) (v : Word) (s : State) : Answer :=
  .next (ctlStep (owned a 0x80004 fun s => clearFirst s v) s)

/-- XPT_QPC_DROP_READ (R304): a read that clears. -/
def execXptQpcDropRead (a : ReadOf Agent) (q : QuadId) (s : State) : Answer :=
  .next (ctlStep (fun s => readSized s (.bar a.path) (Reg.qpcDrop q.val) a.size) s)

/-- LOD_LATE_COUNT_READ (R396). -/
def execLodLateCountRead (a : ReadOf Agent) (s : State) : Answer := .next (ctlStep (fun s => readSized s (.bar a.path) Reg.lateCount a.size) s)

/-- LOD_MISS_COUNT_READ (R396). -/
def execLodMissCountRead (a : ReadOf Agent) (s : State) : Answer := .next (ctlStep (fun s => readSized s (.bar a.path) Reg.missCount a.size) s)

/-- VEN_ERRCNT_READ (R477, R478). -/
def execVenErrcntRead (a : ReadOf Agent) (v : VeinId) (s : State) : Answer :=
  .next (ctlStep (fun s => readSized s (.bar a.path) (Reg.venErrcnt v.val) a.size) s)

/-- HBM_UE_READ (R543). -/
def execHbmUeRead (a : ReadOf Agent) (x : StackId) (s : State) : Answer :=
  .next (ctlStep (fun s => readSized s (.bar a.path) (Reg.hbmUe x.val) a.size) s)

/-- OBS_TRACE_LOST_READ (R558). -/
def execObsTraceLostRead (a : ReadOf Agent) (s : State) : Answer := .next (ctlStep (fun s => readSized s (.bar a.path) Reg.traceLost a.size) s)

/-- PC_CQ_ERR_READ (R559): a virtual function sees its own partition's counters. -/
def execPcCqErrRead (a : ReadOf Via) (p : PartId) (s : State) : Answer :=
  .next (ctlStep (fun s =>
    match a.path with
    | .bar _ => readSized s a.path (Reg.pcCqErr p.val) a.size
    | .vf v => if (s.pl.vf v.val).part = p.val then readSized s a.path 0x60020 a.size else s) s)

end Sys2Proof.Machine
end

