-- ==== Sys2Proof/Machine/LoaderCmds.lean ====
section
/-! DEFINITION. The commands of the loader: LAT_CTRL, the passes over an image, the weights and the job switch (R58 to R82,
R450, R565). -/
namespace Sys2Proof.Machine

/-- A write of LAT_CTRL with one command (R73 to R75). -/
def latWrite (a : Agent) (cmd : Nat) (slotB : Bool) : State → State := owned a 0x20000 fun s => latCommand s cmd slotB

/-- APPLY (R73). -/
def execApply (a : Agent) (s : State) : Answer := .next (ctlStep (latWrite a ltApply false) s)

/-- WRITE_SLOT (R67, R73). -/
def execWriteSlot (a : Agent) (slotB : Bool) (s : State) : Answer := .next (ctlStep (latWrite a ltWriteSlot slotB) s)

/-- SET_ACTIVE (R63, R76). -/
def execSetActive (a : Agent) (slotB : Bool) (s : State) : Answer := .next (ctlStep (latWrite a ltSetActive slotB) s)

/-- STAGE (R78). -/
def execStage (a : Agent) (s : State) : Answer := .next (ctlStep (latWrite a ltStage false) s)

/-- ARM (R77). -/
def execArm (a : Agent) (s : State) : Answer := .next (ctlStep (latWrite a ltArm false) s)

/-- DISARM (R77). -/
def execDisarm (a : Agent) (s : State) : Answer := .next (ctlStep (latWrite a ltDisarm false) s)

/-- LOAD_WEIGHTS (R58, R450). -/
def execLoadWeights (a : Agent) (s : State) : Answer := .next (ctlStep (latWrite a ltLoadWeights false) s)

/-- DISCARD (R78). -/
def execDiscard (a : Agent) (s : State) : Answer := .next (ctlStep (latWrite a ltDiscard false) s)

/-- FIRST_PASS_DONE (R64 to R66): the checks end in a refusal or a pass. -/
def execFirstPassDone (ok : Bool) (s : State) : Answer := .next (ctlStep (fun s => firstPassDone s ok) s)

/-- SECOND_PASS_DONE (R66). -/
def execSecondPassDone (ok : Bool) (s : State) : Answer := .next (ctlStep (fun s => secondPassDone s ok) s)

/-- SLOT_COMMIT (R68). -/
def execSlotCommit (s : State) : Answer := .next (ctlStep slotCommit s)

/-- SET_ACTIVE_FLASH_DONE (R63, R76). -/
def execSetActiveFlashDone (s : State) : Answer := .next (ctlStep setActiveDone s)

/-- WEIGHT_LOAD_DONE (R58, R450). -/
def execWeightLoadDone (s : State) : Answer := .next (ctlStep weightLoadDone s)

/-- QUIESCE_POINT (R79). -/
def execQuiescePoint (s : State) : Answer := .next (ctlStep quiescePoint s)

/-- READY_CUTOFF (R79, R565). -/
def execReadyCutoff (s : State) : Answer := .next (ctlStep readyCutoff s)

/-- ABORT_CUTOFF (R79, R565). -/
def execAbortCutoff (s : State) : Answer := .next (ctlStep abortCutoff s)

/-- SWITCH_TICK (R79, R80). -/
def execSwitchTick (s : State) : Answer := .next (ctlStep switchTick s)

/-- MQ_READY_RX (R565). -/
def execMqReadyRx (f : RxFrame) (s : State) : Answer := .next (dataStep (receiveOf (isPkt ptMqReady) f) s)

/-- MQ_ABORT_RX (R565). -/
def execMqAbortRx (f : RxFrame) (s : State) : Answer := .next (dataStep (receiveOf (isPkt ptMqAbort) f) s)

end Sys2Proof.Machine
end

