-- ==== Sys2Proof/Machine/OwnCmds.lean ====
section
/-! DEFINITION. The commands of ownership, of the OWN command register and of the observation session (R92 to R117). -/
namespace Sys2Proof.Machine

/-- A write of OWN_CMD with one command (R101). -/
def ownWrite (a : Agent) (cmd index : Nat) : State → State := owned a 0x10018 fun s => ownCommand s cmd index

/-- OWN_CLAIM (R94): the first claimant while no one owns the device. -/
def execOwnClaim (a : Agent) (v : Word) (s : State) : Answer := .next (ctlStep (fun s => claim s a v) s)

/-- RENEW (R95). -/
def execRenew (a : Agent) (s : State) : Answer := .next (ctlStep (owned a 0x10004 renewLease) s)

/-- RELEASE (R100). -/
def execRelease (a : Agent) (s : State) : Answer := .next (ctlStep (owned a 0x10004 releaseOwner) s)

/-- LEASE_EXPIRY (R95). -/
def execLeaseExpiry (s : State) : Answer := .next (ctlStep leaseOver s)

/-- HANDOVER_NAME (R98). -/
def execHandoverName (a : Agent) (successor : BitVec 2) (s : State) : Answer :=
  .next (ctlStep (owned a 0x10008 fun s => nameSuccessor s successor) s)

/-- HANDOVER_ACCEPT (R98). -/
def execHandoverAccept (a : Agent) (successor : BitVec 2) (s : State) : Answer :=
  .next (ctlStep (fun s => acceptHandover s a successor) s)

/-- HANDOVER_TIMEOUT (R98). -/
def execHandoverTimeout (s : State) : Answer := .next (ctlStep handoverOver s)

/-- INBAND_PEER_WRITE (R100). -/
def execInbandPeerWrite (a : Agent) (v : Word) (s : State) : Answer := .next (ctlStep (owned a 0x10010 fun s => writePeer s v) s)

/-- INBAND_PEER_FLASH_STORED (R104). -/
def execInbandPeerFlashStored (s : State) : Answer := .next (ctlStep peerStored s)

/-- DEVICE_RESET (R89, R101). -/
def execDeviceReset (a : Agent) (s : State) : Answer := .next (ctlStep (ownWrite a ocReset 0) s)

/-- REJOIN (R101, R107). -/
def execRejoin (a : Agent) (s : State) : Answer := .next (ctlStep (ownWrite a ocRejoin 0) s)

/-- TRUST_WRITE (R101). -/
def execTrustWrite (a : Agent) (index : BitVec 2) (s : State) : Answer := .next (ctlStep (ownWrite a ocTrustWrite index.toNat) s)

/-- TRUST_CLEAR (R101). -/
def execTrustClear (a : Agent) (index : BitVec 2) (s : State) : Answer := .next (ctlStep (ownWrite a ocTrustClear index.toNat) s)

/-- PASSWORD_SET (R101, R114). -/
def execPasswordSet (a : Agent) (s : State) : Answer := .next (ctlStep (ownWrite a ocPasswordSet 0) s)

/-- PASSWORD_CLEAR (R101). -/
def execPasswordClear (a : Agent) (s : State) : Answer := .next (ctlStep (ownWrite a ocPasswordClear 0) s)

/-- OBS_CHALLENGE (R113). -/
def execObsChallenge (a : Agent) (s : State) : Answer := .next (ctlStep (ownWrite a ocChallenge 0) s)

/-- OBS_RESPOND (R113). -/
def execObsRespond (a : Agent) (s : State) : Answer := .next (ctlStep (ownWrite a ocRespond 0) s)

/-- OBS_PASSWORD (R114). -/
def execObsPassword (a : Agent) (s : State) : Answer := .next (ctlStep (ownWrite a ocPassword 0) s)

/-- OBS_CLOSE (R116). -/
def execObsClose (a : Agent) (s : State) : Answer := .next (ctlStep (ownWrite a ocClose 0) s)

/-- OWN_CMD_FLASH_DONE (R104). -/
def execOwnCmdFlashDone (ok : Bool) (s : State) : Answer := .next (ctlStep (fun s => ownFlashDone s ok) s)

/-- AUTH_LOCKOUT_EXPIRY (R115). -/
def execAuthLockoutExpiry (s : State) : Answer := .next (ctlStep retryOver s)

/-- NONCE_EXPIRY (R113). -/
def execNonceExpiry (s : State) : Answer := .next (ctlStep nonceOver s)

/-- OBS_SESSION_EXPIRY (R116). -/
def execObsSessionExpiry (s : State) : Answer := .next (ctlStep sessionOver s)

end Sys2Proof.Machine
end

