-- ==== Sys2Proof/Machine/PortCmds.lean ====
section
/-! DEFINITION. The commands of the ports: heartbeats, link states, lanes, hop acknowledgement and the start of frames
(R107, R145 to R187). -/
namespace Sys2Proof.Machine

/-- A command after which the time block looks at its advertisements and its parent port again (R377, R379). -/
def linkStep (f : State → State) (s : State) : State := elect (settle (f s))

/-- HEARTBEAT_TX (R155). -/
def execHeartbeatTx (p : PortId) (s : State) : Answer := .next (dataStep (fun c d => heartbeatDue c d p.val) s)

/-- HEARTBEAT_RX (R111, R156, R157). -/
def execHeartbeatRx (f : RxFrame) (s : State) : Answer :=
  .next (linkStep (onPlane (receiveOf (fun k => k == .heartbeat) f)) s)

/-- PEER_OK_TIMEOUT (R157): more than 8 µs without a heartbeat. -/
def execPeerOkTimeout (p : PortId) (s : State) : Answer := .next (linkStep (onPlane fun c d => peerTimeout c d p.val) s)

/-- PEER_DEAD_DECLARE (R107). -/
def execPeerDeadDeclare (p : PortId) (s : State) : Answer := .next (linkStep (onPlane fun c d => peerDead c d p.val) s)

/-- LINK_ALIGNED (R152). -/
def execLinkAligned (p : Alignment) (s : State) : Answer := .next (linkStep (onPlane fun c d => peerAgain c (alignPort c d p.port.val p.lanes) p.port.val) s)

/-- PORT_TRAIN_TIMEOUT (R152, R537). -/
def execPortTrainTimeout (p : PortId) (s : State) : Answer := .next (ctlStep (fun s => trainTimeout s p.val) s)

/-- LINK_SIGNAL_LOSS (R152). -/
def execLinkSignalLoss (p : PortId) (lane : Fin 8) (e : LaneEvent) (s : State) : Answer :=
  .next (linkStep (onPlane fun c d => signalLost c d p.val lane.val e) s)

/-- LINK_SIGNAL_RESTORED (R152). -/
def execLinkSignalRestored (p : PortId) (s : State) : Answer := .next (linkStep (onPlane fun c d => peerAgain c (signalBack c d p.val) p.val) s)

/-- PAUSE_TIMEOUT (R152). -/
def execPauseTimeout (p : PortId) (s : State) : Answer := .next (linkStep (onPlane fun c d => pauseOver c d p.val) s)

/-- RETRAIN (R152, R178): a write of PRT_n_CTRL. -/
def execRetrain (a : Agent) (p : PortId) (s : State) : Answer :=
  .next (linkStep (owned a (Reg.prt p.val 0) (onPlane fun c d => retrainUp c d p.val)) s)

/-- LANE_FAULT (R158, R159). -/
def execLaneFault (p : PortId) (lane : Fin 9) (e : LaneEvent) (s : State) : Answer :=
  .next (linkStep (onPlane fun c d => laneFault c d p.val lane.val e) s)

/-- LANE_LOCK_RESTORED (R159). -/
def execLaneLockRestored (p : PortId) (lane : Fin 9) (s : State) : Answer :=
  .next (dataStep (fun _ d => laneBack d p.val lane.val) s)

/-- PARITY_REBUILD_TIMEOUT (R532). -/
def execParityRebuildTimeout (p : PortId) (s : State) : Answer := .next (ctlStep (fun s => rebuildTimeout s p.val) s)

/-- A packet type and CODE that some other command receives. -/
def pktCovered (t k : Nat) : Bool :=
  if t = ptAck then decide (k ≤ 5)
  else if t = ptCollData ∨ t = ptCollAck then decide (k ≤ 2)
  else (extLen t).isSome

/-- A frame that is discarded at the MAC, by the steering, or by the checks of a GXT header. -/
def discardedRx (c : Ctl) (d : Plane) (f : RxFrame) : Bool :=
  (macIn c d f).1.isNone || match classify c d f with
    | .other => true
    | .packet t k => !pktCovered t k
    | _ => false

/-- RX_FRAME_DISCARD (R147, R151, R162, R267, R271). -/
def execRxFrameDiscard (f : RxFrame) (s : State) : Answer :=
  .next (dataStep (fun c d => if discardedRx c d f then receive c d f else d) s)

/-- HOST_STEERED_FRAME (R168, R173, R174). -/
def execHostSteeredFrame (f : RxFrame) (s : State) : Answer := .next (dataStep (receiveOf (fun k => k == .host) f) s)

/-- FRAME_FORWARD (R184 to R187). -/
def execFrameForward (f : RxFrame) (s : State) : Answer := .next (dataStep (receiveOf (fun k => k == .forward) f) s)

/-- NAK_REPEAT (R163). -/
def execNakRepeat (p : PortId) (s : State) : Answer := .next (dataStep (fun c d => nakRepeat c d p.val) s)

/-- ACK_HEARTBEAT (R164). -/
def execAckHeartbeat (p : PortId) (s : State) : Answer := .next (dataStep (fun c d => ackDue c d p.val) s)

/-- HOP_REPLAY_TIMEOUT (R165). -/
def execHopReplayTimeout (p : PortId) (s : State) : Answer :=
  .next (linkStep (onPlane fun c d => replayTimeout c d p.val) s)

/-- PORT_FRAME_START (R165, R356 to R364): the port starts its next frame. -/
def execPortFrameStart (p : PortId) (s : State) : Answer := .next (dataStep (fun c d => portStart c d p.val) s)

end Sys2Proof.Machine
end

