-- ==== Sys2Proof/Machine/XlatCmds.lean ====
section
/-! DEFINITION. The commands of translation and of the pending-fault slots (R192 to R205). -/
namespace Sys2Proof.Machine

/-- The translation cache of the engine that makes an access (R195). -/
def cacheOf (x : Access) : Nat := if x.engine = .dma then tileCache x.unit.val else x.unit.val % 4

/-- A walk on its own: its leaf is cached; its fault opens or joins a slot (R192, R196, R199). A walk whose read of an
entry failed is a WALK_ERROR. -/
def walkDone (c : Ctl) (d : Plane) (x : Access) (ok : Bool) : Plane :=
  let p := x.part.val
  if (d.part p).state ≠ .active ∨ 2 ^ 57 ≤ x.va.toNat then d
  else if !ok then faultAccess c d x .walkError .other
  else match (walk c d p x.va.toNat).forAccess (x.write || x.atomic) with
    | .fault k => faultAccess c d x k .other
    | .leaf l => d.remember (cacheOf x) p l (pointersFrom c d p x.va.toNat levels (rootTable d p))

/-- TRANSLATION_WALK_DONE (R192, R196, R199, R202, R204). -/
def execTranslationWalkDone (x : Access) (ok : Bool) (s : State) : Answer := .next (dataStep (fun c d => walkDone c d x ok) s)

/-- 250 ns after a slot opened (R200): a slot for MOVING writes no event. -/
def slotEventDue (c : Ctl) (d : Plane) (k : Nat) : Plane :=
  let s := d.slot k
  if !s.isOpen || s.reported || s.cause == 6 || decide (c.ns < s.openedAt + 250) then d else slotEvent c d k

/-- FAULT_EVENT_TIMER (R200, R205). -/
def execFaultEventTimer (slot : SlotId) (s : State) : Answer := .next (dataStep (fun c d => slotEventDue c d slot.val) s)

/-- A write of XLT_FAULT_RESOLVE: a virtual function resolves the slots of its partition (R203, R509). -/
def resolveVia (a : Via) (slot : Nat) (retry : Bool) : State → State :=
  viaWrite a 0x20000C (onPlane fun c d =>
    match a with
    | .bar _ => resolveSlot c d slot retry
    | .vf v => if slot / 16 = (d.vf v.val).part then resolveSlot c d slot retry else d)

/-- FAULT_RETRY (R203). -/
def execFaultRetry (a : Via) (slot : SlotId) (s : State) : Answer := .next (ctlStep (resolveVia a slot.val true) s)

/-- FAULT_FAIL (R203). -/
def execFaultFail (a : Via) (slot : SlotId) (s : State) : Answer := .next (ctlStep (resolveVia a slot.val false) s)

/-- The age of a slot has reached XLT_FAULT_TIMEOUT (R204). -/
def slotTimeout (c : Ctl) (d : Plane) (k : Nat) : Plane :=
  let s := d.slot k
  let limit := bits (d.reg Reg.faultTimeout) 13 0
  if s.isOpen && decide (0 < limit) && decide (limit ≤ slotAge c s) then resolveSlot c d k false else d

/-- FAULT_SLOT_TIMEOUT (R204). -/
def execFaultSlotTimeout (slot : SlotId) (s : State) : Answer := .next (dataStep (fun c d => slotTimeout c d slot.val) s)

end Sys2Proof.Machine
end

