-- ==== Sys2Proof/Machine/RingCmds.lean ====
section
/-! DEFINITION. The commands of work rings and completion rings: doorbells, fetches and the control registers (R225 to R258). -/
namespace Sys2Proof.Machine

/-- The ring that a doorbell page of a function's BAR serves: page k of BAR2 serves ring k, page j of a bound virtual
function its local ring j (R234, R508). -/
def doorbellRing (d : Plane) (f : Func) (page : Nat) : Option Nat :=
  match f with
  | .pf => some page
  | .vf v => let x := d.vf v.val; if x.bound ∧ page < x.count then some (x.first + page) else none

/-- An access of a doorbell page: a read returns zero, and of the writes only a 32-bit one at `own`, the doorbell's offset, counts,
and none while the ring is being reset (R234, R503). -/
def doorbell (c : Ctl) (d : Plane) (f : Func) (page own offset size : Nat) (v : Option Word) (ring : Nat → Word → Plane → Plane) :
    Plane :=
  if !c.vfUp then d
  else match v with
    | none => { d with bus := { wide := List.replicate size 0 } }
    | some v =>
      if size ≠ 4 ∨ offset ≠ own then d
      else match doorbellRing d f page with
        | none => d
        | some k => if ringHeldUp c d k then d else ring k v d

/-- WORK_DOORBELL (R234, R235, R85): the doorbell at 0x000 of the page. -/
def execWorkDoorbell (f : Func) (page : PagePlace) (size : Nat) (v : Option Word) (s : State) : Answer :=
  .next (dataStep (fun c d => doorbell c d f page.page.val 0 page.offset.val size v fun k v d => ringDoorbell c d k (v.setWidth 16)) s)

/-- CQ_DOORBELL (R234, R236, R251): the doorbell at 0x008 of the page. -/
def execCqDoorbell (f : Func) (page : PagePlace) (size : Nat) (v : Option Word) (s : State) : Answer :=
  .next (dataStep (fun c d => doorbell c d f page.page.val 8 page.offset.val size v fun x v d => cmpDoorbell c d x v) s)

/-- WORK_ENTRY_FETCH (R239, R242, R243). -/
def execWorkEntryFetch (k : RingId) (ok : Bool) (s : State) : Answer := .next (dataStep (fun c d => fetchEntry c d k.val ok) s)

/-- DESCRIPTOR_FETCH (R252). -/
def execDescriptorFetch (k : RingId) (ok : Bool) (s : State) : Answer := .next (dataStep (fun c d => fetchDesc c d k.val ok) s)

/-- NOP (R241). -/
def execNop (k : RingId) (s : State) : Answer := .next (dataStep (fun c d => fetchNop c d k.val) s)

/-- A write of WRG_k_CTRL; a virtual function's own partition stands in WRG_k_CFG (R229, R509). -/
def wrgCtrlVia (a : Via) (k : Nat) (v : Word) : State → State :=
  viaRing a (Reg.wrg k 0x10) k (onPlane fun c d =>
    match a with
    | .bar _ => wrgCtrl c d k v
    | .vf f => wrgCtrl c
        (if (d.ring k).state = .disabled then d.setReg (Reg.wrg k 8) (withPart (d.wrgCfg k) 5 (d.vf f.val).part) else d) k v)

/-- A write of CMP_c_CTRL. -/
def cmpCtrlVia (a : Via) (x : Nat) (v : Word) : State → State :=
  viaRing a (Reg.cmp x 0x10) x (onPlane fun c d =>
    match a with
    | .bar _ => cmpCtrl c d x v
    | .vf f => cmpCtrl c
        (if (d.cq x).enabled then d else d.setReg (Reg.cmp x 8) (withPart (d.cmpCfg x) 6 (d.vf f.val).part)) x v)

/-- WRG_ENABLE (R229, R230). -/
def execWrgEnable (a : Via) (k : RingId) (s : State) : Answer := .next (ctlStep (wrgCtrlVia a k.val 1) s)

/-- WRG_SHUTDOWN (R237, R238). -/
def execWrgShutdown (a : Via) (k : RingId) (s : State) : Answer := .next (ctlStep (wrgCtrlVia a k.val 2) s)

/-- CMP_ENABLE (R229, R231). -/
def execCmpEnable (a : Via) (c : RingId) (s : State) : Answer := .next (ctlStep (cmpCtrlVia a c.val 1) s)

/-- CMP_DISABLE (R232). -/
def execCmpDisable (a : Via) (c : RingId) (s : State) : Answer := .next (ctlStep (cmpCtrlVia a c.val 2) s)

end Sys2Proof.Machine
end

