-- ==== Sys2Proof/Machine/EntryCmds.lean ====
section
/-! DEFINITION. The commands in which fetched work entries start, go on and end (R206 to R214, R238 to R247, R387 to R392,
R405). -/
namespace Sys2Proof.Machine

/-- An untimed entry for a queue pair starts (R240, R296). -/
def qpEntry (op : Nat) (k : RingId) (i : BitVec 16) : State → State :=
  dataStep fun c d => startEntry c d k.val i (ofOp op) startQpEntry

/-- An untimed COLLECTIVE entry with one operation is posted to its engine (R405, R414). -/
def collEntryStep (op : Nat) (k : RingId) (i : BitVec 16) : State → State :=
  dataStep fun c d => startEntry c d k.val i (ofColl op) postColl

/-- WRITE (R244, R296). -/
def execWrite (k : RingId) (i : BitVec 16) (s : State) : Answer := .next (qpEntry 0x01 k i s)

/-- WRITE_NOTIFY (R244, R296). -/
def execWriteNotify (k : RingId) (i : BitVec 16) (s : State) : Answer := .next (qpEntry 0x02 k i s)

/-- READ (R244, R296). -/
def execRead (k : RingId) (i : BitVec 16) (s : State) : Answer := .next (qpEntry 0x03 k i s)

/-- SEND (R244, R296). -/
def execSend (k : RingId) (i : BitVec 16) (s : State) : Answer := .next (qpEntry 0x04 k i s)

/-- ATOMIC_ADD (R244, R331). -/
def execAtomicAdd (k : RingId) (i : BitVec 16) (s : State) : Answer := .next (qpEntry 0x05 k i s)

/-- ATOMIC_CAS (R244, R331). -/
def execAtomicCas (k : RingId) (i : BitVec 16) (s : State) : Answer := .next (qpEntry 0x06 k i s)

/-- WINDOW_OPEN (R213 to R215). -/
def execWindowOpen (k : RingId) (i : BitVec 16) (s : State) : Answer :=
  .next (dataStep (fun c d => startEntry c d k.val i (ofOp 0x10) winOpen) s)

/-- WINDOW_REVOKE (R214, R215). -/
def execWindowRevoke (k : RingId) (i : BitVec 16) (s : State) : Answer :=
  .next (dataStep (fun c d => startEntry c d k.val i (ofOp 0x11) winRevoke) s)

/-- WINDOW_CLOSED (R214). -/
def execWindowClosed (w : QpId) (s : State) : Answer := .next (dataStep (fun c d => windowClosed c d w.val) s)

/-- An INVALIDATE entry of one SCOPE. -/
def ofScope (scope : Nat) (e : Fetched) : Bool := e.opcode == 0x18 && getByte e.raw 8 == scope

/-- INVALIDATE_RANGE (R206). -/
def execInvalidateRange (k : RingId) (i : BitVec 16) (s : State) : Answer :=
  .next (dataStep (fun c d => startEntry c d k.val i (ofScope 0) runInvalidate) s)

/-- INVALIDATE_PARTITION (R206). -/
def execInvalidatePartition (k : RingId) (i : BitVec 16) (s : State) : Answer :=
  .next (dataStep (fun c d => startEntry c d k.val i (ofScope 1) runInvalidate) s)

/-- INVALIDATE_DRAINED (R207). -/
def execInvalidateDrained (k : RingId) (i : BitVec 16) (s : State) : Answer := .next (dataStep (fun c d => invDrained c d k.val i) s)

/-- An ADVISE entry of one KIND. -/
def ofAdvice (kind : Nat) (e : Fetched) : Bool := e.opcode == 0x1A && getByte e.raw 8 == kind

/-- PREFETCH (R209). -/
def execPrefetch (k : RingId) (i : BitVec 16) (s : State) : Answer :=
  .next (dataStep (fun c d => startEntry c d k.val i (ofOp 0x19) runMove) s)

/-- EVICT (R210). -/
def execEvict (k : RingId) (i : BitVec 16) (s : State) : Answer :=
  .next (dataStep (fun c d => startEntry c d k.val i (ofAdvice 0) runMove) s)

/-- WARM (R210). -/
def execWarm (k : RingId) (i : BitVec 16) (s : State) : Answer :=
  .next (dataStep (fun c d => startEntry c d k.val i (ofAdvice 1) runWarm) s)

/-- PAGE_MOVE_DONE (R209, R211). -/
def execPageMoveDone (k : RingId) (i : BitVec 16) (s : State) : Answer := .next (dataStep (fun c d => pageMoved c d k.val i) s)

/-- ALL_REDUCE (R399, R405). -/
def execAllReduce (k : RingId) (i : BitVec 16) (s : State) : Answer := .next (collEntryStep opAllReduce k i s)

/-- REDUCE_SCATTER (R399, R405). -/
def execReduceScatter (k : RingId) (i : BitVec 16) (s : State) : Answer := .next (collEntryStep opReduceScatter k i s)

/-- ALL_GATHER (R399, R405). -/
def execAllGather (k : RingId) (i : BitVec 16) (s : State) : Answer := .next (collEntryStep opAllGather k i s)

/-- BROADCAST (R399, R405). -/
def execBroadcast (k : RingId) (i : BitVec 16) (s : State) : Answer := .next (collEntryStep opBroadcast k i s)

/-- ALL_TO_ALL (R399, R405). -/
def execAllToAll (k : RingId) (i : BitVec 16) (s : State) : Answer := .next (collEntryStep opAllToAll k i s)

/-- DISPATCH (R399, R408). -/
def execDispatch (k : RingId) (i : BitVec 16) (s : State) : Answer := .next (collEntryStep opDispatch k i s)

/-- COMBINE (R399, R408). -/
def execCombine (k : RingId) (i : BitVec 16) (s : State) : Answer := .next (collEntryStep opCombine k i s)

/-- BARRIER (R399). -/
def execBarrier (k : RingId) (i : BitVec 16) (s : State) : Answer := .next (collEntryStep opBarrier k i s)

/-- VEIN_RUN (R247, R452). -/
def execVeinRun (k : RingId) (i : BitVec 16) (s : State) : Answer :=
  .next (dataStep (fun c d => startEntry c d k.val i (ofOp 0x28) startVein) s)

/-- FENCE (R241). -/
def execFence (k : RingId) (i : BitVec 16) (s : State) : Answer :=
  .next (dataStep (fun c d => startEntry c d k.val i (ofOp 0x30) runFence) s)

/-- TIMED_LAUNCH_POINT (R387, R388). -/
def execTimedLaunchPoint (k : RingId) (i : BitVec 16) (s : State) : Answer := .next (dataStep (fun c d => launchPoint c d k.val i) s)

/-- TIMED_START (R389). -/
def execTimedStart (k : RingId) (i : BitVec 16) (s : State) : Answer := .next (dataStep (fun c d => timedStart c d k.val i) s)

/-- DEADLINE_EXPIRY (R392). -/
def execDeadlineExpiry (k : RingId) (i : BitVec 16) (s : State) : Answer := .next (dataStep (fun c d => deadlineArrives c d k.val i) s)

end Sys2Proof.Machine
end

