-- ==== Sys2Proof/Machine/RxCmds.lean ====
section
/-! DEFINITION. The commands in which a packet for this node arrives (R265 to R295, R311 to R345, R390, R416 to R436): one
for each packet type, and for each CODE of the types that have one. -/
namespace Sys2Proof.Machine

/-- WRITE_RX (R267, R311, R321, R323). -/
def execWriteRx (f : RxFrame) (s : State) : Answer := .next (dataStep (receiveOf (isPkt ptWrite) f) s)

/-- WRITE_NOTIFY_RX (R322, R323). -/
def execWriteNotifyRx (f : RxFrame) (s : State) : Answer := .next (dataStep (receiveOf (isPkt ptWriteNotify) f) s)

/-- READ_REQ_RX (R324 to R326). -/
def execReadReqRx (f : RxFrame) (s : State) : Answer := .next (dataStep (receiveOf (isPkt ptReadReq) f) s)

/-- READ_RESP_RX (R327). -/
def execReadRespRx (f : RxFrame) (s : State) : Answer := .next (dataStep (receiveOf (isPkt ptReadResp) f) s)

/-- SEND_RX (R253, R328). -/
def execSendRx (f : RxFrame) (s : State) : Answer := .next (dataStep (receiveOf (isPkt ptSend) f) s)

/-- ATOMIC_REQ_RX (R329 to R331). -/
def execAtomicReqRx (f : RxFrame) (s : State) : Answer := .next (dataStep (receiveOf (isPkt ptAtomicReq) f) s)

/-- ATOMIC_RESP_RX (R331). -/
def execAtomicRespRx (f : RxFrame) (s : State) : Answer := .next (dataStep (receiveOf (isPkt ptAtomicResp) f) s)

/-- ACK_RX (R312, R314, R316, R350: CODE 0). -/
def execAckRx (f : RxFrame) (s : State) : Answer := .next (dataStep (receiveOf (isPktCode ptAck 0) f) s)

/-- NAK_GAP_RX (R313, R318: CODE 1). -/
def execNakGapRx (f : RxFrame) (s : State) : Answer := .next (dataStep (receiveOf (isPktCode ptAck 1) f) s)

/-- BUSY_RX (R332: CODE 2). -/
def execBusyRx (f : RxFrame) (s : State) : Answer := .next (dataStep (receiveOf (isPktCode ptAck 2) f) s)

/-- ACCESS_RX (R334: CODE 3). -/
def execAccessRx (f : RxFrame) (s : State) : Answer := .next (dataStep (receiveOf (isPktCode ptAck 3) f) s)

/-- FENCED_ACK_RX (R343: CODE 4). -/
def execFencedAckRx (f : RxFrame) (s : State) : Answer := .next (dataStep (receiveOf (isPktCode ptAck 4) f) s)

/-- NO_QP_RX (R334: CODE 5). -/
def execNoQpRx (f : RxFrame) (s : State) : Answer := .next (dataStep (receiveOf (isPktCode ptAck 5) f) s)

/-- CONNECT_REQ_RX (R293, R294). -/
def execConnectReqRx (f : RxFrame) (s : State) : Answer := .next (dataStep (receiveOf (isPkt ptConnectReq) f) s)

/-- CONNECT_ACCEPT_RX (R293, R294). -/
def execConnectAcceptRx (f : RxFrame) (s : State) : Answer := .next (dataStep (receiveOf (isPkt ptConnectAccept) f) s)

/-- CONNECT_REJECT_RX (R293, R295). -/
def execConnectRejectRx (f : RxFrame) (s : State) : Answer := .next (dataStep (receiveOf (isPkt ptConnectReject) f) s)

/-- DISCONNECT_RX (R293). -/
def execDisconnectRx (f : RxFrame) (s : State) : Answer := .next (dataStep (receiveOf (isPkt ptDisconnect) f) s)

/-- MGMT_REQ_RX (R282 to R284). -/
def execMgmtReqRx (f : RxFrame) (s : State) : Answer := .next (dataStep (receiveOf (isPkt ptMgmtReq) f) s)

/-- MGMT_RESP_RX (R284: the device sends no requests, so a response is discarded). -/
def execMgmtRespRx (f : RxFrame) (s : State) : Answer := .next (dataStep (receiveOf (isPkt ptMgmtResp) f) s)

/-- MQ_LATE_RX (R390). -/
def execMqLateRx (f : RxFrame) (s : State) : Answer := .next (dataStep (receiveOf (isPkt ptMqLate) f) s)

/-- ADDEND_CHUNK_RX (R416 to R419). -/
def execAddendChunkRx (f : RxFrame) (s : State) : Answer := .next (dataStep (receiveOf (isPktCode ptCollData 0) f) s)

/-- RESULT_CHUNK_RX (R419). -/
def execResultChunkRx (f : RxFrame) (s : State) : Answer := .next (dataStep (receiveOf (isPktCode ptCollData 1) f) s)

/-- DATA_CHUNK_RX (R416). -/
def execDataChunkRx (f : RxFrame) (s : State) : Answer := .next (dataStep (receiveOf (isPktCode ptCollData 2) f) s)

/-- COLL_ACK_RX (R420: CODE 0). -/
def execCollAckRx (f : RxFrame) (s : State) : Answer := .next (dataStep (receiveOf (isPktCode ptCollAck 0) f) s)

/-- COLL_NOT_STARTED_RX (R418: CODE 1). -/
def execCollNotStartedRx (f : RxFrame) (s : State) : Answer := .next (dataStep (receiveOf (isPktCode ptCollAck 1) f) s)

/-- COLL_NO_CREDIT_RX (R418: CODE 2). -/
def execCollNoCreditRx (f : RxFrame) (s : State) : Answer := .next (dataStep (receiveOf (isPktCode ptCollAck 2) f) s)

/-- COLL_RESEND_RX (R420). -/
def execCollResendRx (f : RxFrame) (s : State) : Answer := .next (dataStep (receiveOf (isPkt ptCollResend) f) s)

/-- MQ_CLOSE_RX (R436). -/
def execMqCloseRx (f : RxFrame) (s : State) : Answer := .next (dataStep (receiveOf (isPkt ptMqClose) f) s)

/-- MQ_DATA_RX (R430, R431). -/
def execMqDataRx (f : RxFrame) (s : State) : Answer := .next (dataStep (receiveOf (isPkt ptMqData) f) s)

/-- FENCE_RX (R339 to R341): the advertisements of a fenced node count no more. -/
def execFenceRx (f : RxFrame) (s : State) : Answer := .next (linkStep (onPlane (receiveOf (isPkt ptFence) f)) s)

/-- TIME_REQ_RX (R373). -/
def execTimeReqRx (f : RxFrame) (s : State) : Answer :=
  .next (linkStep (onPlane (receiveOf (fun k => k == .timeReq) f)) s)

/-- TIME_RESP_RX (R373, R374). -/
def execTimeRespRx (f : RxFrame) (s : State) : Answer :=
  .next (linkStep (onPlane (receiveOf (fun k => k == .timeResp) f)) s)

end Sys2Proof.Machine
end

