-- ==== Sys2Proof/Machine/TransportCmds.lean ====
section
/-! DEFINITION. The commands of the reliable transport that no packet carries: placements, timers, pacing, queue-pair
commands and context traffic (R296 to R320, R330 to R333, R349 to R352), and the management request that executes (R284). -/
namespace Sys2Proof.Machine

/-- PACKET_PLACED (R311, R312, R322). -/
def execPacketPlaced (q : QpId) (psn : BitVec 32) (s : State) : Answer := .next (dataStep (fun c d => placedPsn c d q.val psn) s)

/-- ACK_DELAY_EXPIRY (R312). -/
def execAckDelayExpiry (q : QpId) (s : State) : Answer := .next (dataStep (fun c d => ackDelayFires c d q.val) s)

/-- REORDER_TIMEOUT (R313). -/
def execReorderTimeout (q : QpId) (s : State) : Answer := .next (dataStep (fun c d => reorderFires c d q.val) s)

/-- RTO_EXPIRY (R317, R319). -/
def execRtoExpiry (q : QpId) (s : State) : Answer := .next (dataStep (fun c d => rtoFires c d q.val) s)

/-- BUSY_RESEND (R332). -/
def execBusyResend (q : QpId) (psn : BitVec 32) (s : State) : Answer := .next (dataStep (fun c d => busyOver c d q.val psn) s)

/-- BUSY_LIMIT_EXPIRY (R332, R333). -/
def execBusyLimitExpiry (q : QpId) (psn : BitVec 32) (s : State) : Answer := .next (dataStep (fun c d => busyLimit c d q.val psn) s)

/-- HOST_ATOMIC_COMPLETION (R330). -/
def execHostAtomicCompletion (q : QpId) (psn : BitVec 32) (successful : Bool) (original : DWord) (s : State) : Answer :=
  .next (dataStep (fun c d => hostAtomicDone c d q.val psn successful original) s)

/-- CONN_RETRY_TIMEOUT (R293, R295). -/
def execConnRetryTimeout (q : QpId) (s : State) : Answer := .next (dataStep (fun c d => connRetry c d q.val) s)

/-- A write of XPT_QP_CMD with one command (R304, R306, R508). -/
def qpCmdVia (a : Via) (cmd : Nat) (q : BitVec 24) : State → State :=
  viaWrite a 0x400000 (onPlane fun c d => qpCommand c d (viaFn a) cmd q.toNat)

/-- CREATE (R304, R307). -/
def execCreate (a : Via) (q : BitVec 24) (s : State) : Answer := .next (ctlStep (qpCmdVia a cmdCreate q) s)

/-- MODIFY (R304, R307). -/
def execModify (a : Via) (q : BitVec 24) (s : State) : Answer := .next (ctlStep (qpCmdVia a cmdModify q) s)

/-- QUERY (R304, R307). -/
def execQuery (a : Via) (q : BitVec 24) (s : State) : Answer := .next (ctlStep (qpCmdVia a cmdQuery q) s)

/-- CONNECT (R293, R304). -/
def execConnect (a : Via) (q : BitVec 24) (s : State) : Answer := .next (ctlStep (qpCmdVia a cmdConnect q) s)

/-- QP_RESET (R293, R304). -/
def execQpReset (a : Via) (q : BitVec 24) (s : State) : Answer := .next (ctlStep (qpCmdVia a cmdReset q) s)

/-- DESTROY (R293, R304). -/
def execDestroy (a : Via) (q : BitVec 24) (s : State) : Answer := .next (ctlStep (qpCmdVia a cmdDestroy q) s)

/-- QP_EVICT (R299, R304). -/
def execQpEvict (a : Via) (q : BitVec 24) (s : State) : Answer := .next (ctlStep (qpCmdVia a cmdEvict q) s)

/-- QP_FETCH (R301, R304). -/
def execQpFetch (a : Via) (q : BitVec 24) (s : State) : Answer := .next (ctlStep (qpCmdVia a cmdFetch q) s)

/-- QPC_FETCH_DONE (R301 to R303). -/
def execQpcFetchDone (q : QpId) (ok : Bool) (s : State) : Answer := .next (dataStep (fun c d => contextFetched c d q.val ok) s)

/-- QPC_WRITEBACK_DONE (R299, R300). -/
def execQpcWritebackDone (q : QpId) (s : State) : Answer := .next (dataStep (fun c d => contextWritten c d q.val) s)

/-- WHEEL_SLOT_TICK (R352). -/
def execWheelSlotTick (q : QuadId) (s : State) : Answer := .next (dataStep (fun c d => wheelTick c d q.val) s)

/-- ecn_period has passed since the last mark or the last increase (R350). -/
def quietDue (c : Ctl) (d : Plane) (n : Nat) : Plane :=
  let q := d.qp n
  if q.state ≠ .ready ∨ c.ns < q.lastQuiet + ecnPeriod d then d else d.setQp n (paceQuiet c d q)

/-- ECN_QUIET_PERIOD (R350). -/
def execEcnQuietPeriod (q : QpId) (s : State) : Answer := .next (dataStep (fun c d => quietDue c d q.val) s)

/-- The length of a pacing epoch in nanoseconds (R350). -/
def epochNs : Nat := 16000000

/-- A pacing epoch ends: the least round trip of the ended one is kept for the next (R350). -/
def epochDue (c : Ctl) (d : Plane) (n : Nat) : Plane :=
  let q := d.qp n
  if q.state ≠ .ready ∨ c.ns < q.epochAt + epochNs then d
  else
    let q := { q with basePrev := q.baseCur, baseCur := none, epochAt := q.epochAt + epochNs }
    d.setQp n { q with base := baseOf q }

/-- PACE_EPOCH (R350). -/
def execPaceEpoch (q : QpId) (s : State) : Answer := .next (dataStep (fun c d => epochDue c d q.val) s)

/-- MGMT_REQ_EXECUTE (R283, R284). -/
def execMgmtReqExecute (s : State) : Answer := .next (ctlStep mgmtExecute s)

end Sys2Proof.Machine
end

