-- ==== Sys2Proof/Machine/TimeCmds.lean ====
section
/-! DEFINITION. The commands of the Lodestone time block (R372 to R386). -/
namespace Sys2Proof.Machine

/-- TIME_REQ_TX (R373). -/
def execTimeReqTx (p : PortId) (s : State) : Answer := .next (dataStep (fun c d => sendTimeReq c d p.val) s)

/-- ADVERT_EXPIRY (R377). -/
def execAdvertExpiry (p : PortId) (s : State) : Answer := .next (ctlStep (fun s => expireAd s p.val) s)

/-- PARENT_TIMEOUT (R379): 500 µs without a complete exchange on the parent port. -/
def execParentTimeout (s : State) : Answer := .next (ctlStep elect s)

/-- CANDIDATE_TIMEOUT (R376). -/
def execCandidateTimeout (s : State) : Answer := .next (ctlStep candidateDue s)

/-- LODESTONE_CLAIM (R379). -/
def execLodestoneClaim (s : State) : Answer := .next (ctlStep claimLode s)

/-- HOLDOVER_LIMIT (R379). -/
def execHoldoverLimit (s : State) : Answer := .next (ctlStep holdoverOver s)

/-- SYNC_RX (R384, R397): a frame that a TIME filter steers to the time block. -/
def execSyncRx (f : RxFrame) (s : State) : Answer := .next (dataStep (receiveOf (fun k => k == .ptp .sync) f) s)

/-- FOLLOW_UP_RX (R384). -/
def execFollowUpRx (f : RxFrame) (s : State) : Answer := .next (dataStep (receiveOf (fun k => k == .ptp .followUp) f) s)

/-- DELAY_RESP_RX (R384, R385). -/
def execDelayRespRx (f : RxFrame) (s : State) : Answer := .next (dataStep (receiveOf (fun k => k == .ptp .delayResp) f) s)

/-- PTP_DISCARD (R384). -/
def execPtpDiscard (f : RxFrame) (s : State) : Answer := .next (dataStep (receiveOf (fun k => k == .ptp .none) f) s)

/-- PTP_LOST (R386). -/
def execPtpLost (s : State) : Answer := .next (ctlStep loseMaster s)

end Sys2Proof.Machine
end

