-- ==== Sys2Proof/Machine/CollCmds.lean ====
section
/-! DEFINITION. The commands of the collective engines that no packet carries (R414 to R436). -/
namespace Sys2Proof.Machine

/-- COLLECTIVE_START (R414); a halted engine starts nothing (R524). -/
def execCollectiveStart (q : QuadId) (s : State) : Answer :=
  .next (dataStep (fun c d => if c.halted (srcColl q.val) q.val then d else startNext c d q.val) s)

/-- CHUNK_RESEND_TIMEOUT (R421). -/
def execChunkResendTimeout (comm : Nat) (id : DWord) (chunk dest : Nat) (s : State) : Answer :=
  .next (dataStep (fun c d => chunkTimeout c d comm id chunk dest) s)

/-- COLL_COMPUTE_FAULT (R434). -/
def execCollComputeFault (comm : Nat) (id : DWord) (chunk : Nat) (s : State) : Answer :=
  .next (dataStep (fun c d => computeFault c d comm id chunk) s)

/-- MQ_RESEND_TIMEOUT (R432, R435). -/
def execMqResendTimeout (comm : Nat) (id : DWord) (s : State) : Answer := .next (dataStep (fun c d => mqTimeout c d comm id) s)

end Sys2Proof.Machine
end

