-- ==== Sys2Proof/Machine/VeinCmds.lean ====
section
/-! DEFINITION. The commands of the veins: a stage's turn in general and for each kind (R446 to R475), and steered packets
that go on (R455). -/
namespace Sys2Proof.Machine

/-- VEIN_UNIT_READY (R446, R449). -/
def execVeinUnitReady (v : VeinId) (st : StageId) (s : State) : Answer :=
  .next (dataStep (fun c d => stageTurn c d v.val st.val none) s)

/-- The turn of a stage of one kind. -/
def kindTurn (kind : Nat) (v : VeinId) (st : StageId) : State → State :=
  dataStep fun c d => stageTurn c d v.val st.val (some kind)

/-- UNSEAL (R462). -/
def execUnseal (v : VeinId) (st : StageId) (s : State) : Answer := .next (kindTurn kUnseal v st s)

/-- SEAL (R462). -/
def execSeal (v : VeinId) (st : StageId) (s : State) : Answer := .next (kindTurn kSeal v st s)

/-- DEQUANTIZE (R463). -/
def execDequantize (v : VeinId) (st : StageId) (s : State) : Answer := .next (kindTurn kDequantize v st s)

/-- QUANTIZE (R464). -/
def execQuantize (v : VeinId) (st : StageId) (s : State) : Answer := .next (kindTurn kQuantize v st s)

/-- CONVERT (R465). -/
def execConvert (v : VeinId) (st : StageId) (s : State) : Answer := .next (kindTurn kConvert v st s)

/-- REDUCE (R466). -/
def execReduce (v : VeinId) (st : StageId) (s : State) : Answer := .next (kindTurn kReduce v st s)

/-- MATMUL (R467). -/
def execMatmul (v : VeinId) (st : StageId) (s : State) : Answer := .next (kindTurn kMatmul v st s)

/-- ATTENTION (R470 to R474). -/
def execAttention (v : VeinId) (st : StageId) (s : State) : Answer := .next (kindTurn kAttention v st s)

/-- SCATTER (R468). -/
def execScatter (v : VeinId) (st : StageId) (s : State) : Answer := .next (kindTurn kScatter v st s)

/-- GATHER (R468). -/
def execGather (v : VeinId) (st : StageId) (s : State) : Answer := .next (kindTurn kGather v st s)

/-- PACK (R469). -/
def execPack (v : VeinId) (st : StageId) (s : State) : Answer := .next (kindTurn kPack v st s)

/-- UNPACK (R469). -/
def execUnpack (v : VeinId) (st : StageId) (s : State) : Answer := .next (kindTurn kUnpack v st s)

/-- STEERED_PACKET_RESUME (R455). -/
def execSteeredPacketResume (q : QuadId) (qp : QpId) (s : State) : Answer :=
  .next (dataStep (fun c d => resumeSteered c d q.val qp.val) s)

end Sys2Proof.Machine
end

