-- ==== Sys2Proof/Machine/CipherCmds.lean ====
section
/-! DEFINITION. The commands of the link cipher: keys and finished requests (R484 to R497). -/
namespace Sys2Proof.Machine

/-- A write of CIP_KEY_CMD (R496, R508). -/
def keyWrite (a : Via) (f : Nat → Plane → Plane) : State → State := viaWrite a 0x600000 (onPlane fun _ d => f (viaFn a) d)

/-- LOAD (R485). -/
def execLoad (a : Via) (slot : BitVec 16) (s : State) : Answer :=
  .next (ctlStep (keyWrite a fun f d => keyLoad d f slot.toNat) s)

/-- KEY_RECORD_READ_DONE (R485). -/
def execKeyRecordReadDone (ok : Bool) (s : State) : Answer := .next (dataStep (fun c d => recordRead c d ok) s)

/-- CLEAR (R487). -/
def execClear (a : Via) (slot : BitVec 16) (phase : Bool) (s : State) : Answer :=
  .next (ctlStep (keyWrite a fun f d => keyClear d f slot.toNat phase) s)

/-- ACTIVATE (R487). -/
def execActivate (a : Via) (slot : BitVec 16) (phase : Bool) (s : State) : Answer :=
  .next (ctlStep (keyWrite a fun f d => keyActivate d f slot.toNat phase) s)

/-- CIPHER_REQUEST_DONE (R490, R491, R493). -/
def execCipherRequestDone (core : Nat) (parityError : Bool) (s : State) : Answer :=
  .next (dataStep (fun c d => cipherDone c d core parityError) s)

end Sys2Proof.Machine
end

