-- ==== Sys2Proof/Machine/PartCmds.lean ====
section
/-! DEFINITION. The commands of partitions and virtual functions (R500 to R507). -/
namespace Sys2Proof.Machine

/-- A write of PAR_CMD (R510). -/
def parWrite (a : Agent) (cmd p v : Nat) : State → State := owned a 0x100000 (onPlane fun c d => parCommand c d cmd p v)

/-- PAR_ENABLE (R501). -/
def execParEnable (a : Agent) (p : PartId) (s : State) : Answer := .next (ctlStep (parWrite a parEnableCmd p.val 0) s)

/-- RESIZE (R502). -/
def execResize (a : Agent) (p : PartId) (s : State) : Answer := .next (ctlStep (parWrite a parResizeCmd p.val 0) s)

/-- PARTITION_RESET (R500, R503). -/
def execPartitionReset (a : Agent) (p : PartId) (s : State) : Answer := .next (ctlStep (parWrite a parResetCmd p.val 0) s)

/-- PAR_DISABLE (R500, R503). -/
def execParDisable (a : Agent) (p : PartId) (s : State) : Answer := .next (ctlStep (parWrite a parDisableCmd p.val 0) s)

/-- BIND (R506). -/
def execBind (a : Agent) (p : PartId) (v : VfId) (s : State) : Answer := .next (ctlStep (parWrite a parBindCmd p.val v.val) s)

/-- UNBIND (R506). -/
def execUnbind (a : Agent) (p : PartId) (v : VfId) (s : State) : Answer := .next (ctlStep (parWrite a parUnbindCmd p.val v.val) s)

/-- PARTITION_RESET_DONE (R500, R503); a partition that a recovery contains resumes with that recovery (R525). -/
def execPartitionResetDone (p : PartId) (s : State) : Answer :=
  .next (dataStep (fun _ d => if (d.part p.val).contained then d else partResetDone d p.val) s)

end Sys2Proof.Machine
end

