-- ==== Sys2Proof/Machine/FaultCmds.lean ====
section
/-! DEFINITION. The commands of the fault collector and of the reserve seam (R514 to R543). -/
namespace Sys2Proof.Machine

/-- FAULT_REPORT (R516, R517). -/
def execFaultReport (source : BitVec 16) (cause : Byte) (part : Option PartId) (s : State) : Answer :=
  .next (linkStep (fun s => faultReport s source.toNat cause.toNat (part.map (·.val))) s)

/-- WIRE_FAULT (R518). -/
def execWireFault (source : BitVec 16) (s : State) : Answer := .next (linkStep (fun s => wireReport s source.toNat) s)

/-- RECOVERY_DONE (R525, R526, R530). -/
def execRecoveryDone (slot : Fin 4) (passed : Bool) (s : State) : Answer :=
  .next (linkStep (fun s => recoveryDone s slot.val passed) s)

/-- PENDING_CLEAR (R522). -/
def execPendingClear (a : Agent) (k : Fin 64) (v : Word) (s : State) : Answer :=
  .next (ctlStep (owned a (0x81000 + 4 * k.val) fun s => clearPending s k.val v) s)

/-- FORCE_FAULT (R523). -/
def execForceFault (a : Agent) (source : BitVec 16) (cause : Byte) (s : State) : Answer :=
  .next (linkStep (owned a 0x80008 fun s => forceFault s source.toNat cause.toNat) s)

/-- FORCE_WIRE (R523): CAUSE is ignored. -/
def execForceWire (a : Agent) (source : BitVec 16) (_cause : Byte) (s : State) : Answer :=
  .next (linkStep (owned a 0x80008 fun s => forceWire s source.toNat) s)

/-- LASER_BIAS_CHECK (R536, R540). -/
def execLaserBiasCheck (l : Fin 80) (drift : Nat) (lost : Bool) (s : State) : Answer :=
  .next (ctlStep (fun s => laserCheck s l.val drift lost) s)

/-- HBM_CE_CHECK (R534, R540). -/
def execHbmCeCheck (x : StackId) (pc : Fin 32) (errors : Nat) (s : State) : Answer :=
  .next (ctlStep (fun s => ceCheck s x.val pc.val errors) s)

/-- TILE_SLOWDOWN_CHECK (R540). -/
def execTileSlowdownCheck (t : Fin 272) (slow : Nat) (s : State) : Answer := .next (ctlStep (fun s => tileCheck s t.val slow) s)

/-- PC_COPY_DONE (R534). -/
def execPcCopyDone (x : StackId) (bad : List Nat) (s : State) : Answer := .next (ctlStep (fun s => copyDone s x.val bad) s)

/-- LASER_SWAP (R536). -/
def execLaserSwap (q : QuadId) (s : State) : Answer := .next (ctlStep (fun s => laserSwap s q.val) s)

end Sys2Proof.Machine
end

