-- ==== Sys2Proof/Machine/ObsCmds.lean ====
section
/-! DEFINITION. The commands of observation: samplers, the trace and the observation port (R547 to R558), and the coalescing
of window violations (R219). -/
namespace Sys2Proof.Machine

/-- SAMPLE_INTERVAL (R549 to R552). -/
def execSampleInterval (w : Sampler) (counts : List SetCount) (s : State) : Answer :=
  .next (dataStep (fun c d => sampleDue c d w counts) s)

/-- TRACE_SYNC (R555). -/
def execTraceSync (s : State) : Answer := .next (dataStep syncDue s)

/-- OBS_FRAME_TX (R557). -/
def execObsFrameTx (s : State) : Answer := .next (dataStep obsSend s)

/-- COALESCING_INTERVAL_END (R219). -/
def execCoalescingIntervalEnd (w : QpId) (s : State) : Answer := .next (dataStep (fun c d => coalesceOver c d w.val) s)

end Sys2Proof.Machine
end

