-- ==== Sys2Proof/Machine/Dispatch.lean ====
section
/-! DEFINITION. The dispatch of a command to its meaning: one arm for each constructor of `Instr`. -/
namespace Sys2Proof.Machine

def exec (i : Instr) (s : State) : Host.Outcome State Fault Refusal :=
  match i with
  | .vinOutOfRange => Sys2Proof.Machine.execVinOutOfRange s
  | .vinInRange slotId => Sys2Proof.Machine.execVinInRange slotId s
  | .pwrEnRise => Sys2Proof.Machine.execPwrEnRise s
  | .mainRailsGood => Sys2Proof.Machine.execMainRailsGood s
  | .pwrEnFall => Sys2Proof.Machine.execPwrEnFall s
  | .resetNLow => Sys2Proof.Machine.execResetNLow s
  | .pllLocked p => Sys2Proof.Machine.execPllLocked p s
  | .pllLockLoss p => Sys2Proof.Machine.execPllLockLoss p s
  | .refclkLoss => Sys2Proof.Machine.execRefclkLoss s
  | .pcieRefclkLoss => Sys2Proof.Machine.execPcieRefclkLoss s
  | .bootEntry => Sys2Proof.Machine.execBootEntry s
  | .pcieLinkUp => Sys2Proof.Machine.execPcieLinkUp s
  | .pcieLinkDown => Sys2Proof.Machine.execPcieLinkDown s
  | .deviceResetComplete r => Sys2Proof.Machine.execDeviceResetComplete r s
  | .functionResetPf => Sys2Proof.Machine.execFunctionResetPf s
  | .functionResetVf v => Sys2Proof.Machine.execFunctionResetVf v s
  | .functionResetDrained f => Sys2Proof.Machine.execFunctionResetDrained f s
  | .laserBankBiased => Sys2Proof.Machine.execLaserBankBiased s
  | .trainingComplete => Sys2Proof.Machine.execTrainingComplete s
  | .timeAcquisitionTimeout => Sys2Proof.Machine.execTimeAcquisitionTimeout s
  | .alertToggle => Sys2Proof.Machine.execAlertToggle s
  | .dutyStep r => Sys2Proof.Machine.execDutyStep r s
  | .thermalTrip k celsius => Sys2Proof.Machine.execThermalTrip k celsius s
  | .i3cTransfer sent readLen => Sys2Proof.Machine.execI3cTransfer sent readLen s
  | .registerWrite a addr size v => Sys2Proof.Machine.execRegisterWrite a addr size v s
  | .loSnapshotRead a addr => Sys2Proof.Machine.execLoSnapshotRead a addr s
  | .hiRead a addr => Sys2Proof.Machine.execHiRead a addr s
  | .loWriteHold a addr v => Sys2Proof.Machine.execLoWriteHold a addr v s
  | .hiWriteApply a addr v => Sys2Proof.Machine.execHiWriteApply a addr v s
  | .bar4Access offset store data => Sys2Proof.Machine.execBar4Access offset store data s
  | .apply a => Sys2Proof.Machine.execApply a s
  | .writeSlot a slotB => Sys2Proof.Machine.execWriteSlot a slotB s
  | .setActive a slotB => Sys2Proof.Machine.execSetActive a slotB s
  | .stage a => Sys2Proof.Machine.execStage a s
  | .arm a => Sys2Proof.Machine.execArm a s
  | .disarm a => Sys2Proof.Machine.execDisarm a s
  | .loadWeights a => Sys2Proof.Machine.execLoadWeights a s
  | .discard a => Sys2Proof.Machine.execDiscard a s
  | .firstPassDone ok => Sys2Proof.Machine.execFirstPassDone ok s
  | .secondPassDone ok => Sys2Proof.Machine.execSecondPassDone ok s
  | .slotCommit => Sys2Proof.Machine.execSlotCommit s
  | .weightLoadDone => Sys2Proof.Machine.execWeightLoadDone s
  | .quiescePoint => Sys2Proof.Machine.execQuiescePoint s
  | .readyCutoff => Sys2Proof.Machine.execReadyCutoff s
  | .abortCutoff => Sys2Proof.Machine.execAbortCutoff s
  | .switchTick => Sys2Proof.Machine.execSwitchTick s
  | .mqReadyRx f => Sys2Proof.Machine.execMqReadyRx f s
  | .mqAbortRx f => Sys2Proof.Machine.execMqAbortRx f s
  | .ownClaim a v => Sys2Proof.Machine.execOwnClaim a v s
  | .renew a => Sys2Proof.Machine.execRenew a s
  | .release a => Sys2Proof.Machine.execRelease a s
  | .leaseExpiry => Sys2Proof.Machine.execLeaseExpiry s
  | .handoverName a successor => Sys2Proof.Machine.execHandoverName a successor s
  | .handoverAccept a successor => Sys2Proof.Machine.execHandoverAccept a successor s
  | .handoverTimeout => Sys2Proof.Machine.execHandoverTimeout s
  | .inbandPeerWrite a v => Sys2Proof.Machine.execInbandPeerWrite a v s
  | .deviceReset a => Sys2Proof.Machine.execDeviceReset a s
  | .rejoin a => Sys2Proof.Machine.execRejoin a s
  | .trustWrite a index => Sys2Proof.Machine.execTrustWrite a index s
  | .trustClear a index => Sys2Proof.Machine.execTrustClear a index s
  | .passwordSet a => Sys2Proof.Machine.execPasswordSet a s
  | .passwordClear a => Sys2Proof.Machine.execPasswordClear a s
  | .obsChallenge a => Sys2Proof.Machine.execObsChallenge a s
  | .obsRespond a => Sys2Proof.Machine.execObsRespond a s
  | .obsPassword a => Sys2Proof.Machine.execObsPassword a s
  | .obsClose a => Sys2Proof.Machine.execObsClose a s
  | .ownCmdFlashDone ok => Sys2Proof.Machine.execOwnCmdFlashDone ok s
  | .authLockoutExpiry => Sys2Proof.Machine.execAuthLockoutExpiry s
  | .nonceExpiry => Sys2Proof.Machine.execNonceExpiry s
  | .obsSessionExpiry => Sys2Proof.Machine.execObsSessionExpiry s
  | .heartbeatTx p => Sys2Proof.Machine.execHeartbeatTx p s
  | .heartbeatRx f => Sys2Proof.Machine.execHeartbeatRx f s
  | .peerOkTimeout p => Sys2Proof.Machine.execPeerOkTimeout p s
  | .peerDeadDeclare p => Sys2Proof.Machine.execPeerDeadDeclare p s
  | .linkAligned p => Sys2Proof.Machine.execLinkAligned p s
  | .portTrainTimeout p => Sys2Proof.Machine.execPortTrainTimeout p s
  | .linkSignalLoss p lane e => Sys2Proof.Machine.execLinkSignalLoss p lane e s
  | .linkSignalRestored p => Sys2Proof.Machine.execLinkSignalRestored p s
  | .pauseTimeout p => Sys2Proof.Machine.execPauseTimeout p s
  | .retrain a p => Sys2Proof.Machine.execRetrain a p s
  | .laneFault p lane e => Sys2Proof.Machine.execLaneFault p lane e s
  | .prtHeldWrite a p offset v => Sys2Proof.Machine.execPrtHeldWrite a p offset v s
  | .rxFrameDiscard f => Sys2Proof.Machine.execRxFrameDiscard f s
  | .hostSteeredFrame f => Sys2Proof.Machine.execHostSteeredFrame f s
  | .nakRepeat p => Sys2Proof.Machine.execNakRepeat p s
  | .ackHeartbeat p => Sys2Proof.Machine.execAckHeartbeat p s
  | .hopReplayTimeout p => Sys2Proof.Machine.execHopReplayTimeout p s
  | .frameForward f => Sys2Proof.Machine.execFrameForward f s
  | .portFrameStart p => Sys2Proof.Machine.execPortFrameStart p s
  | .translationWalkDone x ok => Sys2Proof.Machine.execTranslationWalkDone x ok s
  | .faultEventTimer slot => Sys2Proof.Machine.execFaultEventTimer slot s
  | .faultRetry a slot => Sys2Proof.Machine.execFaultRetry a slot s
  | .faultFail a slot => Sys2Proof.Machine.execFaultFail a slot s
  | .faultSlotTimeout slot => Sys2Proof.Machine.execFaultSlotTimeout slot s
  | .faultTimeoutWrite a v => Sys2Proof.Machine.execFaultTimeoutWrite a v s
  | .workDoorbell f page size v => Sys2Proof.Machine.execWorkDoorbell f page size v s
  | .cqDoorbell f page size v => Sys2Proof.Machine.execCqDoorbell f page size v s
  | .workEntryFetch k ok => Sys2Proof.Machine.execWorkEntryFetch k ok s
  | .descriptorFetch k ok => Sys2Proof.Machine.execDescriptorFetch k ok s
  | .nop k => Sys2Proof.Machine.execNop k s
  | .write k idx => Sys2Proof.Machine.execWrite k idx s
  | .writeNotify k idx => Sys2Proof.Machine.execWriteNotify k idx s
  | .read k idx => Sys2Proof.Machine.execRead k idx s
  | .send k idx => Sys2Proof.Machine.execSend k idx s
  | .atomicAdd k idx => Sys2Proof.Machine.execAtomicAdd k idx s
  | .atomicCas k idx => Sys2Proof.Machine.execAtomicCas k idx s
  | .windowOpen k idx => Sys2Proof.Machine.execWindowOpen k idx s
  | .windowRevoke k idx => Sys2Proof.Machine.execWindowRevoke k idx s
  | .windowClosed w => Sys2Proof.Machine.execWindowClosed w s
  | .invalidateRange k idx => Sys2Proof.Machine.execInvalidateRange k idx s
  | .invalidatePartition k idx => Sys2Proof.Machine.execInvalidatePartition k idx s
  | .invalidateDrained k idx => Sys2Proof.Machine.execInvalidateDrained k idx s
  | .prefetch k idx => Sys2Proof.Machine.execPrefetch k idx s
  | .evict k idx => Sys2Proof.Machine.execEvict k idx s
  | .warm k idx => Sys2Proof.Machine.execWarm k idx s
  | .pageMoveDone k idx => Sys2Proof.Machine.execPageMoveDone k idx s
  | .allReduce k idx => Sys2Proof.Machine.execAllReduce k idx s
  | .reduceScatter k idx => Sys2Proof.Machine.execReduceScatter k idx s
  | .allGather k idx => Sys2Proof.Machine.execAllGather k idx s
  | .broadcast k idx => Sys2Proof.Machine.execBroadcast k idx s
  | .allToAll k idx => Sys2Proof.Machine.execAllToAll k idx s
  | .dispatch k idx => Sys2Proof.Machine.execDispatch k idx s
  | .combine k idx => Sys2Proof.Machine.execCombine k idx s
  | .barrier k idx => Sys2Proof.Machine.execBarrier k idx s
  | .veinRun k idx => Sys2Proof.Machine.execVeinRun k idx s
  | .fence k idx => Sys2Proof.Machine.execFence k idx s
  | .wrgEnable a k => Sys2Proof.Machine.execWrgEnable a k s
  | .wrgShutdown a k => Sys2Proof.Machine.execWrgShutdown a k s
  | .cmpEnable a c => Sys2Proof.Machine.execCmpEnable a c s
  | .cmpDisable a c => Sys2Proof.Machine.execCmpDisable a c s
  | .writeRx f => Sys2Proof.Machine.execWriteRx f s
  | .writeNotifyRx f => Sys2Proof.Machine.execWriteNotifyRx f s
  | .readReqRx f => Sys2Proof.Machine.execReadReqRx f s
  | .readRespRx f => Sys2Proof.Machine.execReadRespRx f s
  | .sendRx f => Sys2Proof.Machine.execSendRx f s
  | .atomicReqRx f => Sys2Proof.Machine.execAtomicReqRx f s
  | .atomicRespRx f => Sys2Proof.Machine.execAtomicRespRx f s
  | .ackRx f => Sys2Proof.Machine.execAckRx f s
  | .nakGapRx f => Sys2Proof.Machine.execNakGapRx f s
  | .busyRx f => Sys2Proof.Machine.execBusyRx f s
  | .accessRx f => Sys2Proof.Machine.execAccessRx f s
  | .fencedAckRx f => Sys2Proof.Machine.execFencedAckRx f s
  | .noQpRx f => Sys2Proof.Machine.execNoQpRx f s
  | .connectReqRx f => Sys2Proof.Machine.execConnectReqRx f s
  | .connectAcceptRx f => Sys2Proof.Machine.execConnectAcceptRx f s
  | .connectRejectRx f => Sys2Proof.Machine.execConnectRejectRx f s
  | .disconnectRx f => Sys2Proof.Machine.execDisconnectRx f s
  | .mgmtReqRx f => Sys2Proof.Machine.execMgmtReqRx f s
  | .mgmtReqExecute => Sys2Proof.Machine.execMgmtReqExecute s
  | .mgmtRespRx f => Sys2Proof.Machine.execMgmtRespRx f s
  | .fenceRx f => Sys2Proof.Machine.execFenceRx f s
  | .packetPlaced q psn => Sys2Proof.Machine.execPacketPlaced q psn s
  | .ackDelayExpiry q => Sys2Proof.Machine.execAckDelayExpiry q s
  | .reorderTimeout q => Sys2Proof.Machine.execReorderTimeout q s
  | .rtoExpiry q => Sys2Proof.Machine.execRtoExpiry q s
  | .busyResend q psn => Sys2Proof.Machine.execBusyResend q psn s
  | .busyLimitExpiry q psn => Sys2Proof.Machine.execBusyLimitExpiry q psn s
  | .hostAtomicCompletion q psn successful original => Sys2Proof.Machine.execHostAtomicCompletion q psn successful original s
  | .connRetryTimeout q => Sys2Proof.Machine.execConnRetryTimeout q s
  | .create a q => Sys2Proof.Machine.execCreate a q s
  | .modify a q => Sys2Proof.Machine.execModify a q s
  | .query a q => Sys2Proof.Machine.execQuery a q s
  | .connect a q => Sys2Proof.Machine.execConnect a q s
  | .qpReset a q => Sys2Proof.Machine.execQpReset a q s
  | .destroy a q => Sys2Proof.Machine.execDestroy a q s
  | .qpEvict a q => Sys2Proof.Machine.execQpEvict a q s
  | .qpFetch a q => Sys2Proof.Machine.execQpFetch a q s
  | .qpcFetchDone q ok => Sys2Proof.Machine.execQpcFetchDone q ok s
  | .qpcWritebackDone q => Sys2Proof.Machine.execQpcWritebackDone q s
  | .qpcRegionWrite a r hi v => Sys2Proof.Machine.execQpcRegionWrite a r hi v s
  | .xptFenceRead a index => Sys2Proof.Machine.execXptFenceRead a index s
  | .xptQpcDropRead a q => Sys2Proof.Machine.execXptQpcDropRead a q s
  | .wheelSlotTick q => Sys2Proof.Machine.execWheelSlotTick q s
  | .ecnQuietPeriod q => Sys2Proof.Machine.execEcnQuietPeriod q s
  | .paceEpoch q => Sys2Proof.Machine.execPaceEpoch q s
  | .schQpRead a q => Sys2Proof.Machine.execSchQpRead a q s
  | .quantumWrite a p c v => Sys2Proof.Machine.execQuantumWrite a p c v s
  | .shaperWrite a p c burst v => Sys2Proof.Machine.execShaperWrite a p c burst v s
  | .timeReqTx p => Sys2Proof.Machine.execTimeReqTx p s
  | .timeReqRx f => Sys2Proof.Machine.execTimeReqRx f s
  | .timeRespRx f => Sys2Proof.Machine.execTimeRespRx f s
  | .advertExpiry p => Sys2Proof.Machine.execAdvertExpiry p s
  | .parentTimeout => Sys2Proof.Machine.execParentTimeout s
  | .candidateTimeout => Sys2Proof.Machine.execCandidateTimeout s
  | .lodestoneClaim => Sys2Proof.Machine.execLodestoneClaim s
  | .holdoverLimit => Sys2Proof.Machine.execHoldoverLimit s
  | .syncRx f => Sys2Proof.Machine.execSyncRx f s
  | .followUpRx f => Sys2Proof.Machine.execFollowUpRx f s
  | .delayRespRx f => Sys2Proof.Machine.execDelayRespRx f s
  | .ptpDiscard f => Sys2Proof.Machine.execPtpDiscard f s
  | .ptpLost => Sys2Proof.Machine.execPtpLost s
  | .timedLaunchPoint k idx => Sys2Proof.Machine.execTimedLaunchPoint k idx s
  | .timedStart k idx => Sys2Proof.Machine.execTimedStart k idx s
  | .deadlineExpiry k idx => Sys2Proof.Machine.execDeadlineExpiry k idx s
  | .mqLateRx f => Sys2Proof.Machine.execMqLateRx f s
  | .lodLateCountRead a => Sys2Proof.Machine.execLodLateCountRead a s
  | .lodMissCountRead a => Sys2Proof.Machine.execLodMissCountRead a s
  | .collectiveStart q => Sys2Proof.Machine.execCollectiveStart q s
  | .addendChunkRx f => Sys2Proof.Machine.execAddendChunkRx f s
  | .resultChunkRx f => Sys2Proof.Machine.execResultChunkRx f s
  | .dataChunkRx f => Sys2Proof.Machine.execDataChunkRx f s
  | .collAckRx f => Sys2Proof.Machine.execCollAckRx f s
  | .collNotStartedRx f => Sys2Proof.Machine.execCollNotStartedRx f s
  | .collNoCreditRx f => Sys2Proof.Machine.execCollNoCreditRx f s
  | .collResendRx f => Sys2Proof.Machine.execCollResendRx f s
  | .chunkResendTimeout comm id chunk dest => Sys2Proof.Machine.execChunkResendTimeout comm id chunk dest s
  | .collComputeFault comm id chunk => Sys2Proof.Machine.execCollComputeFault comm id chunk s
  | .mqCloseRx f => Sys2Proof.Machine.execMqCloseRx f s
  | .mqDataRx f => Sys2Proof.Machine.execMqDataRx f s
  | .mqResendTimeout comm id => Sys2Proof.Machine.execMqResendTimeout comm id s
  | .veinUnitReady v st => Sys2Proof.Machine.execVeinUnitReady v st s
  | .unseal v st => Sys2Proof.Machine.execUnseal v st s
  | .seal v st => Sys2Proof.Machine.execSeal v st s
  | .dequantize v st => Sys2Proof.Machine.execDequantize v st s
  | .quantize v st => Sys2Proof.Machine.execQuantize v st s
  | .convert v st => Sys2Proof.Machine.execConvert v st s
  | .reduce v st => Sys2Proof.Machine.execReduce v st s
  | .matmul v st => Sys2Proof.Machine.execMatmul v st s
  | .attention v st => Sys2Proof.Machine.execAttention v st s
  | .scatter v st => Sys2Proof.Machine.execScatter v st s
  | .gather v st => Sys2Proof.Machine.execGather v st s
  | .pack v st => Sys2Proof.Machine.execPack v st s
  | .unpack v st => Sys2Proof.Machine.execUnpack v st s
  | .steeredPacketResume q qp => Sys2Proof.Machine.execSteeredPacketResume q qp s
  | .venErrcntRead a v => Sys2Proof.Machine.execVenErrcntRead a v s
  | .load a slot => Sys2Proof.Machine.execLoad a slot s
  | .keyRecordReadDone ok => Sys2Proof.Machine.execKeyRecordReadDone ok s
  | .clear a slot phase => Sys2Proof.Machine.execClear a slot phase s
  | .activate a slot phase => Sys2Proof.Machine.execActivate a slot phase s
  | .cipSlotRead a slot => Sys2Proof.Machine.execCipSlotRead a slot s
  | .cipherRequestDone core parityError => Sys2Proof.Machine.execCipherRequestDone core parityError s
  | .parEnable a p => Sys2Proof.Machine.execParEnable a p s
  | .resize a p => Sys2Proof.Machine.execResize a p s
  | .partitionReset a p => Sys2Proof.Machine.execPartitionReset a p s
  | .parDisable a p => Sys2Proof.Machine.execParDisable a p s
  | .bind a p v => Sys2Proof.Machine.execBind a p v s
  | .unbind a p v => Sys2Proof.Machine.execUnbind a p v s
  | .partitionResetDone p => Sys2Proof.Machine.execPartitionResetDone p s
  | .faultReport source cause part => Sys2Proof.Machine.execFaultReport source cause part s
  | .wireFault source => Sys2Proof.Machine.execWireFault source s
  | .recoveryDone slot passed => Sys2Proof.Machine.execRecoveryDone slot passed s
  | .pendingClear a k v => Sys2Proof.Machine.execPendingClear a k v s
  | .forceFault a source cause => Sys2Proof.Machine.execForceFault a source cause s
  | .forceWire a source cause => Sys2Proof.Machine.execForceWire a source cause s
  | .fltClearFirst a v => Sys2Proof.Machine.execFltClearFirst a v s
  | .fltHistRead a age => Sys2Proof.Machine.execFltHistRead a age s
  | .laserBiasCheck l drift lost => Sys2Proof.Machine.execLaserBiasCheck l drift lost s
  | .hbmCeCheck x pc errors => Sys2Proof.Machine.execHbmCeCheck x pc errors s
  | .tileSlowdownCheck t slow => Sys2Proof.Machine.execTileSlowdownCheck t slow s
  | .pcCopyDone x bad => Sys2Proof.Machine.execPcCopyDone x bad s
  | .laserSwap q => Sys2Proof.Machine.execLaserSwap q s
  | .hbmUeRead a x => Sys2Proof.Machine.execHbmUeRead a x s
  | .sampleInterval w counts => Sys2Proof.Machine.execSampleInterval w counts s
  | .traceSync => Sys2Proof.Machine.execTraceSync s
  | .obsFrameTx => Sys2Proof.Machine.execObsFrameTx s
  | .obsTraceLostRead a => Sys2Proof.Machine.execObsTraceLostRead a s
  | .pcCqErrRead a p => Sys2Proof.Machine.execPcCqErrRead a p s
  | .coalescingIntervalEnd w => Sys2Proof.Machine.execCoalescingIntervalEnd w s
  | .winRead a index => Sys2Proof.Machine.execWinRead a index s
  | .parityRebuildTimeout p => Sys2Proof.Machine.execParityRebuildTimeout p s
  | .laneLockRestored p lane => Sys2Proof.Machine.execLaneLockRestored p lane s
  | .setActiveFlashDone => Sys2Proof.Machine.execSetActiveFlashDone s
  | .inbandPeerFlashStored => Sys2Proof.Machine.execInbandPeerFlashStored s
  | .pwrEventCondition r => Sys2Proof.Machine.execPwrEventCondition r s

end Sys2Proof.Machine
end

