-- ==== Sys2Proof/Safety.lean ====
section
/-! DEFINITION. The conditions in whose terms statements about the K920 are made: what holds between two commands, when a
write of an agent is accepted, and when the device runs without a reset or a recovery. -/
namespace Sys2Proof.Machine

/-- Nothing that an earlier command asked of the control side is still to be done: so it is between any two commands. -/
abbrev Quiet (s : State) : Prop := s.pl.effects = []

/-- A write of an agent to a block is accepted: it arrives, its agent is the owner, and the block is powered and out of
reset (R92, R96, R121). -/
abbrev Accepted (s : State) (a : Agent) (addr : Nat) : Prop :=
  s.ctl.arrives a = true ∧ s.ctl.own.owner.toNat = agentId a ∧ s.ctl.blockUp addr = true

/-- The device is in BOOT or a later state and no device reset runs (R84, R566). -/
abbrev Running (s : State) : Prop := s.ctl.dev.state.booted = true ∧ s.ctl.dev.inReset = false

/-- No recovery runs and none waits (R526, R527). -/
abbrev NoRecovery (s : State) : Prop := s.ctl.flt.slots = [] ∧ s.ctl.flt.queue = []

/-- Every reading is below its throttle limit (R137). -/
abbrev Cool (r : Readings) : Prop := r.tile < 95 ∧ r.stack < 90 ∧ r.laser < 70 ∧ r.coolant < 45

/-- The receive MAC passes a frame on, and steering takes it as the GXT packet `p`, for this node, from bytes `raw` without an
error of length, version or type (R147, R167, R288 steps 1 to 4). -/
abbrev PacketIn (s : State) (f : RxFrame) (raw : List Byte) (ce : Bool) (p : Pkt) : Prop :=
  (macIn s.ctl s.pl f).1 = some f.frame
    ∧ steer s.ctl f.port.val (s.pl.port f.port.val) f.frame = .gxt raw ce
    ∧ gxtBad raw (s.pl.port f.port.val).group (leastBody f.frame (s.pl.port f.port.val).group) = none
    ∧ p = { parsePkt raw with
        payload := (raw.drop (32 + 8 * rawUnits raw)).take ((payloadLen raw (s.pl.port f.port.val).group).getD 0) }
    ∧ p.dst = s.ctl.selfNode

/-- The sender of a packet has no valid fence record (R288 step 5). -/
abbrev Unfenced (s : State) (p : Pkt) : Prop := fenceOf s.ctl s.pl p.src = none

/-- The state after the receive MAC has done its part with a frame: acknowledgements taken, the frame counted (R161 to R164). -/
abbrev afterMac (s : State) (f : RxFrame) : State := { s with pl := (macIn s.ctl s.pl f).2 }

/-- A packet of the peer of a READY and resident queue pair, which is not sealed and behind which no parked packet waits, as
steps 4 to 8 of R288 and the checks of R289 let it pass. -/
abbrev PeerPacket (s : State) (f : RxFrame) (raw : List Byte) (ce : Bool) (p : Pkt) : Prop :=
  PacketIn s f raw ce p ∧ Unfenced s p ∧ rawSealed raw = false ∧ p.dstQp < 2 ^ 20
    ∧ (let q := s.pl.qp p.dstQp
      q.state = .ready ∧ q.resident = true ∧ q.isSealed = false ∧ q.peerNode = p.src ∧ q.peerQp = p.srcQp ∧ q.peerInc = p.inc
        ∧ ∀ x ∈ s.pl.parked q.home, x.1 ≠ p.dstQp)

/-- A PSN inside the receive window that has not been received, placed or begun (R310, R311, R321). -/
abbrev NewPsn (q : Qp) (psn : BitVec 32) : Prop :=
  psnDist psn q.recvPsn < q.window ∧ psnDist psn q.recvPsn < 2 ^ 31 ∧ (∀ g ∈ q.got, g.1 ≠ psn) ∧ (∀ y ∈ q.places, y.psn ≠ psn)
    ∧ ∀ y ∈ q.hostAtomics, y.psn ≠ psn

/-- The next PSN in order, with nothing received after it and no message open. -/
abbrev NextPsn (q : Qp) (psn : BitVec 32) : Prop := psn = q.recvPsn ∧ q.got = [] ∧ q.rxMsgs = [] ∧ NewPsn q psn

/-- A fetched entry of ring `k` that may start, is not timed and was not lost with the link (R108, R240, R241, R296). -/
abbrev Startable (s : State) (k : Nat) (i : BitVec 16) (e : Fetched) : Prop :=
  s.pl.entry k i = some e ∧ e.phase = .fetched ∧ canStart (s.pl.ring k) e = true ∧ behindQp (s.pl.ring k) e = false
    ∧ e.timed = false ∧ e.lost = false

/-- The completion ring of work ring `k` is enabled and can be written: it lies in host memory, the PCIe link is up, and the host
denies the function that holds it nothing. -/
abbrev CompRing (s : State) (k : Nat) : Prop :=
  (s.pl.cq (s.pl.wrgCq k)).enabled = true ∧ s.pl.ringLoc (Reg.cmp (s.pl.wrgCq k) 0) = false ∧ s.ctl.dev.pcieUp = true
    ∧ ∀ x ∈ s.pl.hostBad, x.fn ≠ some (s.pl.holder (s.pl.wrgCq k))

/-- From `s` to `t` the entry `e` of ring `k` completes: it is fetched no more, and the next slot of its completion ring holds the
32 bytes of R245. -/
abbrev Completes (s t : State) (k : Nat) (e : Fetched) (status : Nat) (result : DWord) (bytes : Nat) (detail : Word) : Prop :=
  let x := s.pl.wrgCq k
  let q := s.pl.cq x
  (t.pl.ring k).fetched = (s.pl.ring k).fetched.filter (·.index != e.index)
    ∧ (t.pl.cq x).write = q.write + 1 ∧ (t.pl.cq x).pending = q.pending - 1
    ∧ Mem.readN t.pl.host (s.pl.ringBase (Reg.cmp x 0) + q.write.toNat % s.pl.cmpSize x * 32) 32 =
        Comp.image { tag := e.tag, status := status, solicited := e.solicit, opcode := e.opcode, ring := k, result := result
                     bytes := bytes, qp := e.qp, detail := detail, index := e.index } (lapOf q.write (s.pl.cmpSize x))

/-- Every completion and event ring lies in host memory (R229: LOC 0). -/
abbrev HostRings (s : State) : Prop := ∀ x, s.pl.ringLoc (Reg.cmp x 0) = false

/-- A command after which only the time block has looked at its advertisements again: beside the data side, only LOD's
state may have changed (R377, R379). -/
abbrev CtlButTime (s t : State) : Prop := t.ctl = { s.ctl with lod := t.ctl.lod } ∧ t.pending = s.pending

/-- The event that the collector writes at this moment for a fault of a source (R519). -/
abbrev eventAt (s : State) (source : BitVec 16) (cause : Byte) (cls level domain : Nat) (forced absorbed : Bool) : FltEvent :=
  { tick := s.ctl.lod.tick, cycle := BitVec.ofNat 32 ((s.ctl.ns - s.ctl.flt.poweredAt) / 4), source := source, cls := cls
    level := level, cause := cause, forced := forced, escalated := false, absorbed := absorbed, seq := s.ctl.flt.seq, domain := domain }

/-- From `s` to `t` the history has taken the events `es`, newest first: the last 32 events stay, the first event of class 1 to 3 is
kept, and each of these classes sets the pending bit of its source (R519, R520, R522). -/
abbrev Recorded (s t : State) (es : List FltEvent) : Prop :=
  let f := s.ctl.flt
  let g := t.ctl.flt
  g.hist = (es ++ f.hist).take 32 ∧ g.seq = f.seq + BitVec.ofNat 16 es.length
    ∧ g.first = (match f.first with | some x => some x | none => es.reverse.find? (·.cls != 0))
    ∧ ∀ j b, b < 32 → (SMap.find 0 g.pend j).getLsbD b =
        ((SMap.find 0 f.pend j).getLsbD b || es.any fun e => e.cls != 0 && e.source.toNat == 32 * j + b)

/-- Beside the record of its events and the wires of its pairs, the collector has left everything as it was. -/
abbrev OnlyRecorded (s t : State) : Prop :=
  t = { s with ctl := { s.ctl with flt := { s.ctl.flt with
    hist := t.ctl.flt.hist, seq := t.ctl.flt.seq, first := t.ctl.flt.first, pend := t.ctl.flt.pend, pairs := t.ctl.flt.pairs, wireLatch := t.ctl.flt.wireLatch } } }

/-- A fault that the reserve seam does not look at: no memory error of a tile, a stack or a slice and no parity error of a
cipher core (R530). -/
abbrev Plain (source cause : Nat) : Prop :=
  (cause = 2 ∨ cause = 3 → ¬ source < 0x154 ∧ ¬ (0x1C0 ≤ source ∧ source < 0x1C4))
    ∧ (cause = 1 → ¬ (0x200 ≤ source ∧ source < 0x268))

/-- What holds between any two commands of every run: nothing is left to be done; the history holds at most 32 events and at most 32
faults wait (R519, R527); the optical outputs are lit in TRAINING, SERVICE, DEGRADED and QUARANTINE only (R84, R106); the PCIe
link is up only in BOOT or a later state without a device reset (R87, R108, R566); a device reset runs in BOOT, and meanwhile the
loader is idle (R566); the slot check of BOOT runs in BOOT and APPLY in AWAIT_HOST (R69, R76). -/
abbrev Lawful (s : State) : Prop :=
  let x := s.ctl.dev
  let l := s.ctl.lat
  s.pl.effects = []
    ∧ s.ctl.flt.hist.length ≤ 32 ∧ s.ctl.flt.queue.length ≤ 32
    ∧ (x.lit = true → x.state = .training ∨ x.state = .service ∨ x.state = .degraded ∨ x.state = .quarantine)
    ∧ (x.pcieUp = true → x.state.booted = true ∧ x.inReset = false)
    ∧ (x.inReset = true → x.state = .boot ∧ l.phase = .idle)
    ∧ (l.phase = .firstPass ∨ l.phase = .secondPass → (l.reading = 0 → x.state = .boot) ∧ (l.reading = ltApply → x.state = .awaitHost))

/-- No line of memory is uncorrectable (R514). -/
abbrev Sound (s : State) : Prop := s.pl.poison = []

end Sys2Proof.Machine
end

