-- ==== Sys2Proof/Certificates/Slice0/Obligations.lean ====
section
/-! DEFINITION. The statements about the K920, in the order of the spec's files. Each says for the commands it names that
they answer a next state, what that state holds by the rules cited, and what it leaves as it was. -/

open Sys2Proof Sys2Proof.Machine

/-! ### Steps, reset -/

/-- With a command at the front of the queue, a step is that command's effect on the state with the rest of the queue. -/
def Obligations.StepRunsTheFrontCommand : Prop :=
  ∀ (s : State) (c : Instr), step { s with pending := c :: s.pending } = exec c s

/-- With no command waiting, one MGT cycle of 4 ns passes: local time advances by 4 ns, the Lodestone counter by 16 ticks at
the nominal frequency while the LOD PLL is locked, the trace cycle count by 6 while the XPT PLL is locked, and nothing
else changes (the model's choice, log 2). -/
def Obligations.IdleStepPassesOneCycle : Prop :=
  ∀ s : State, s.pending = [] → ∃ t, step s = .next t
    ∧ t = { s with
        ctl := { s.ctl with ns := s.ctl.ns + 4, lod := { s.ctl.lod with tick := t.ctl.lod.tick, part := t.ctl.lod.part } }
        pl := { s.pl with obs := { s.pl.obs with cycle := t.pl.obs.cycle } } }
    ∧ (s.ctl.dev.rails = true → s.ctl.dev.inReset = false →
        (s.ctl.dev.locks.lod = true → s.ctl.lod.freq = 0 → s.ctl.lod.part = 0 →
          t.ctl.lod.tick = s.ctl.lod.tick + 16 ∧ t.ctl.lod.part = 0)
        ∧ (s.ctl.dev.locks.xpt = true → t.pl.obs.cycle = s.pl.obs.cycle + 6))
    ∧ ((s.ctl.dev.rails = false ∨ s.ctl.dev.inReset = true) → t.ctl.lod = s.ctl.lod ∧ t.pl = s.pl)

/-! ### Power, pins, clocks and device states -/

/-- R119, R122, R123, R139: the input leaves its range and everything but flash is lost; it returns and the device is in
STANDBY; PWR_EN rises; the main rails reach regulation. -/
def Obligations.InputPowerSequence : Prop :=
  (∀ s, Quiet s → ∃ t, exec .vinOutOfRange s = .next t
    ∧ t.ctl.dev.state = .off ∧ t.ctl.dev.rails = false ∧ t.ctl.dev.lit = false ∧ t.ctl.dev.pcieUp = false
    ∧ t.ctl.dev.pins = { s.ctl.dev.pins with vinOk := false } ∧ t.ctl.dev.inReset = false
    ∧ t.ctl.flash = s.ctl.flash ∧ t.ctl.own = {} ∧ t.ctl.flt = {} ∧ t.ctl.image = none ∧ t.ctl.lod = {}
    ∧ t.pl.regs = [] ∧ t.pl.mem = [] ∧ t.pl.host = s.pl.host ∧ t.pl.qps = [] ∧ t.pl.rings = [] ∧ t.pl.ports = []
    ∧ t.pl.keys = [] ∧ t.pl.wins = [] ∧ t.pending = s.pending)
  ∧ (∀ s slot, Quiet s → s.ctl.dev.state = .off → exec (.vinInRange slot) s = .next { s with
      ctl := { s.ctl with
        dev := { s.ctl.dev with
          state := .standby, pins := { s.ctl.dev.pins with vinOk := true }, slotId := slot
          incarnation := s.ctl.flash.incarnation, enteredAt := s.ctl.ns, alertLow := false, alertAt := s.ctl.ns }
        own := { s.ctl.own with inbandNode := s.ctl.flash.inbandNode, inbandValid := s.ctl.flash.inbandValid }
        flt := { s.ctl.flt with poweredAt := s.ctl.ns } } })
  ∧ (∀ s, Quiet s →
      exec .pwrEnRise s = .next (onDev (fun x => { x with pins := { x.pins with pwrEn := true } }) s))
  ∧ (∀ s, Quiet s → s.ctl.dev.pins.vinOk = true → s.ctl.dev.pins.pwrEn = true →
      s.ctl.dev.pwrEnFellAt + 20000000 ≤ s.ctl.ns → (s.ctl.dev.tripped = true → Cool s.ctl.dev.sensors) →
      exec .mainRailsGood s = .next (onDev (fun x => { x with rails := true }) s))
  ∧ (∀ s, Quiet s → (s.ctl.dev.pwrEnFellAt ≠ 0 ∧ s.ctl.ns < s.ctl.dev.pwrEnFellAt + 20000000
        ∨ s.ctl.dev.tripped = true ∧ ¬ Cool s.ctl.dev.sensors) → exec .mainRailsGood s = .next s)

/-- R84, R89, R91, R566: PWR_EN falls in BOOT or a later state: dark outputs, rails off, a rail-off reset into STANDBY with cause
5. Flash, memory, ownership, the lease, the fault history and the wear of lasers and tiles stay; rings, queue pairs, windows'
accesses, the image and the session are gone; the registers of the PWR and FLT blocks keep their values and every other one
has its reset value. RESET_N low
begins a device reset with cause 1; a cause that arrives while one runs joins it and RESET_CAUSE keeps the first. Of the registers
only PWR_EVENTS keeps its value. -/
def Obligations.PowerEnableAndResetPinReset : Prop :=
  (∀ s, Quiet s → s.ctl.dev.state.booted = true → ∃ t, exec .pwrEnFall s = .next t
    ∧ t.ctl.dev.state = .standby ∧ t.ctl.dev.rails = false ∧ t.ctl.dev.lit = false ∧ t.ctl.dev.pcieUp = false
    ∧ t.ctl.dev.resetCause = 5 ∧ t.ctl.dev.pins.pwrEn = false ∧ t.ctl.dev.locks = {} ∧ t.ctl.dev.incarnation = s.ctl.dev.incarnation
    ∧ t.ctl.flash = s.ctl.flash ∧ t.ctl.image = none ∧ t.ctl.lat = {} ∧ t.ctl.lod = {}
    ∧ t.ctl.own.owner = s.ctl.own.owner ∧ t.ctl.own.leaseEnd = s.ctl.own.leaseEnd ∧ t.ctl.own.session.isOpen = false
    ∧ t.ctl.flt.hist = s.ctl.flt.hist ∧ t.ctl.flt.first = s.ctl.flt.first ∧ t.ctl.flt.pend = s.ctl.flt.pend
    ∧ t.ctl.flt.laserDrift = s.ctl.flt.laserDrift ∧ t.ctl.flt.tileSlow = s.ctl.flt.tileSlow
    ∧ t.ctl.flt.retirePending = s.ctl.flt.retirePending
    ∧ t.pl.mem = s.pl.mem ∧ t.pl.host = s.pl.host ∧ t.pl.rings = [] ∧ t.pl.cqs = [] ∧ t.pl.qps = [] ∧ t.pl.ports = []
    ∧ t.pl.keys = [] ∧ t.pl.parts = []
    ∧ (∀ a, t.pl.reg a = if (0x30000 ≤ a ∧ a < 0x40000) ∨ (0x80000 ≤ a ∧ a < 0xC0000) then s.pl.reg a else regReset a)
    ∧ t.pending = s.pending)
  ∧ (∀ s, Quiet s → s.ctl.dev.state.booted = false → exec .pwrEnFall s = .next (onDev (fun x => { x with
      pins := { x.pins with pwrEn := false }, pwrEnFellAt := max 1 s.ctl.ns, rails := false, locks := {} }) s))
  ∧ (∀ s, Quiet s → Running s → ∃ t, exec .resetNLow s = .next t
    ∧ t.ctl.dev.state = .boot ∧ t.ctl.dev.inReset = true ∧ t.ctl.dev.resetCause = 1 ∧ t.ctl.dev.lit = false
    ∧ t.ctl.dev.pcieUp = false ∧ t.ctl.dev.pins = { s.ctl.dev.pins with resetN := false }
    ∧ t.ctl.dev.incarnation = s.ctl.dev.incarnation ∧ t.ctl.dev.joinPending = s.ctl.dev.joinPending
    ∧ t.ctl.flash = s.ctl.flash ∧ t.ctl.image = none ∧ t.ctl.lat = {} ∧ t.ctl.lod = {} ∧ t.ctl.hbm = []
    ∧ t.ctl.own.owner = s.ctl.own.owner ∧ t.ctl.own.leaseEnd = s.ctl.own.leaseEnd ∧ t.ctl.own.reject = s.ctl.own.reject
    ∧ t.ctl.own.session.isOpen = false ∧ t.ctl.own.handover = false ∧ t.ctl.own.busy = false ∧ t.ctl.own.nonceLive = false
    ∧ t.ctl.flt.hist = s.ctl.flt.hist ∧ t.ctl.flt.first = s.ctl.flt.first ∧ t.ctl.flt.pend = s.ctl.flt.pend
    ∧ t.pl.mem = s.pl.mem ∧ t.pl.host = s.pl.host ∧ t.pl.rings = [] ∧ t.pl.cqs = [] ∧ t.pl.qps = [] ∧ t.pl.ports = []
    ∧ t.pl.keys = [] ∧ t.pl.parts = [] ∧ t.pl.veins = []
    ∧ (∀ a, t.pl.reg a = if a = Reg.pwrEvents then s.pl.reg a else regReset a)
    ∧ t.pending = s.pending)
  ∧ (∀ s, Quiet s → s.ctl.dev.inReset = true →
      exec .resetNLow s = .next (onDev (fun x => { x with pins := { x.pins with resetN := false } }) s))

/-- R84, R87, R88, R109, R130, R566: with PWR_EN high, the rails good, REFCLK there and the CORE, XPT, LOD and stack PLLs locked,
BOOT begins, from STANDBY or at the end of a device reset: the incarnation advances by one, from 0xFFFF to 1, never to 0, and is
stored in flash, no output is enabled, and the check of the active slot starts. After a thermal trip a reset completes only once
every sensor is below its throttle limit, and without REFCLK neither BOOT nor the end of a reset comes. -/
def Obligations.BootAdvancesTheIncarnation : Prop :=
  ∀ (s : State), Quiet s → s.ctl.dev.pins.vinOk = true → s.ctl.dev.pins.pwrEn = true → s.ctl.dev.rails = true →
    s.ctl.dev.pins.refclk = true → s.ctl.dev.locks.core = true → s.ctl.dev.locks.xpt = true → s.ctl.dev.locks.lod = true → s.ctl.dev.locks.stackPlls = 0xFFFFF →
    let n : BitVec 16 := if s.ctl.flash.incarnation = 0xFFFF then 1 else s.ctl.flash.incarnation + 1
    n ≠ 0
    ∧ (s.ctl.dev.state = .standby → ∃ t, exec .bootEntry s = .next t
        ∧ t.ctl.dev = { s.ctl.dev with
            state := .boot, inReset := false, incarnation := n, joinPending := s.ctl.flash.quarantine
            pins := { s.ctl.dev.pins with resetN := true }, enteredAt := s.ctl.ns }
        ∧ t.ctl.flash = { s.ctl.flash with incarnation := n }
        ∧ t.ctl.lat = { phase := .firstPass, slotB := s.ctl.flash.activeB }
        ∧ t.ctl.own = { s.ctl.own with inbandNode := s.ctl.flash.inbandNode, inbandValid := s.ctl.flash.inbandValid }
        ∧ t = { s with
            ctl := { s.ctl with dev := t.ctl.dev, flash := t.ctl.flash, lat := t.ctl.lat, own := t.ctl.own }
            pl := { s.pl with xpt := { s.pl.xpt with banksLost := s.ctl.flash.banksLost } } })
    ∧ (∀ r, s.ctl.dev.state = .boot → s.ctl.dev.inReset = true → atTrip r = false → (s.ctl.dev.tripped = true → Cool r) →
        ∃ t, exec (.deviceResetComplete r) s = .next t
        ∧ t.ctl.dev = { s.ctl.dev with
            inReset := false, tripped := false, sensors := r, incarnation := n, joinPending := s.ctl.flash.quarantine
            pins := { s.ctl.dev.pins with resetN := true }, enteredAt := s.ctl.ns }
        ∧ t.ctl.flash = { s.ctl.flash with incarnation := n }
        ∧ t.ctl.lat = { phase := .firstPass, slotB := s.ctl.flash.activeB }
        ∧ t.ctl.own = { s.ctl.own with inbandNode := s.ctl.flash.inbandNode, inbandValid := s.ctl.flash.inbandValid }
        ∧ (∀ a, a ≠ Reg.pwrEvents → t.pl.reg a = s.pl.reg a)
        ∧ t = { s with
            ctl := { s.ctl with dev := t.ctl.dev, flash := t.ctl.flash, lat := t.ctl.lat, own := t.ctl.own }
            pl := { s.pl with regs := t.pl.regs, xpt := { s.pl.xpt with banksLost := s.ctl.flash.banksLost } } })
    ∧ (∀ r, s.ctl.dev.tripped = true → ¬ Cool r → atTrip r = false → exec (.deviceResetComplete r) s = .next s)
    ∧ (let u := onDev (fun x => { x with pins := { x.pins with refclk := false } }) s
       exec .bootEntry u = .next u ∧ ∀ r, atTrip r = false → exec (.deviceResetComplete r) u = .next u)

/-- R84, R379: in CONFIGURED a biased laser bank lights the ports of mode 1 or 2 and TRAINING begins with the acquisition of
time; TRAINING ends in SERVICE, or DEGRADED when a unit kind is short of spares, once every such port is trained or failed
and time is locked; after 5 s without time lock a time-acquisition fault is recorded and the device stays in TRAINING. An
event not listed for a state leaves the state unchanged. -/
def Obligations.ConfiguredTrainsAndServes : Prop :=
  (∀ s, Quiet s → s.ctl.dev.state = .configured → ∃ t, exec .laserBankBiased s = .next t
    ∧ t.ctl.dev = { s.ctl.dev with
        state := .training, lit := true, enteredAt := s.ctl.ns }
    ∧ t.ctl.lod = { s.ctl.lod with
        state := if s.ctl.lod.state = .free then .acquiring else s.ctl.lod.state
        claimAt := t.ctl.lod.claimAt, candidate := t.ctl.lod.candidate, quietAt := t.ctl.lod.quietAt }
    ∧ (∀ n, t.pl.port n = if n < 48 ∧ ((s.pl.port n).mode = 1 ∨ (s.pl.port n).mode = 2) ∧ (s.pl.port n).link = .dark then
        { s.pl.port n with link := .training, since := s.ctl.ns, failed := false, txPll := true, txLit := (s.pl.port n).lanesLit }
      else s.pl.port n)
    ∧ t = { s with ctl := { s.ctl with dev := t.ctl.dev, lod := t.ctl.lod }, pl := { s.pl with ports := t.pl.ports } })
  ∧ (∀ s, Quiet s → s.ctl.dev.state ≠ .configured → exec .laserBankBiased s = .next s)
  ∧ (∀ s, Quiet s → s.ctl.dev.state = .training → (s.ctl.lod.state = .locked ∨ s.ctl.lod.state = .lodestone) →
      (∀ n, n < 48 → (s.pl.port n).mode = 1 ∨ (s.pl.port n).mode = 2 →
        (s.pl.port n).link = .up ∨ (s.pl.port n).link = .paused ∨ (s.pl.port n).failed = true) →
      exec .trainingComplete s = .next { s with ctl := { s.ctl with
        dev := { s.ctl.dev with
          state := if s.ctl.flash.short then .degraded else .service
          enteredAt := s.ctl.ns, alertLow := false, alertAt := s.ctl.ns }
        lod := { s.ctl.lod with served := true } } })
  ∧ (∀ s, Quiet s → s.ctl.dev.state ≠ .training → exec .trainingComplete s = .next s)
  ∧ (∀ s, Quiet s → s.ctl.dev.state = .training → s.ctl.dev.timeFault = false → s.ctl.dev.enteredAt + 5000000000 ≤ s.ctl.ns →
      s.ctl.lod.state ≠ .locked → s.ctl.lod.state ≠ .lodestone →
      ∃ t e, exec .timeAcquisitionTimeout s = .next t
        ∧ t.ctl.dev = { s.ctl.dev with timeFault := true }
        ∧ t.ctl.flt.hist = (e :: s.ctl.flt.hist).take 32 ∧ e.source = 0x281 ∧ e.cause = 0x08 ∧ e.cls = 1
        ∧ e.seq = s.ctl.flt.seq ∧ t.ctl.flt.seq = s.ctl.flt.seq + 1
        ∧ t = { s with ctl := { s.ctl with dev := t.ctl.dev, flt := t.ctl.flt } })

/-- R39 to R41, R130, R562: a PLL that locks shows it in its own bit only; an in-use CORE, XPT or LOD PLL that loses lock
is a fault of device-level containment (cause 4), and so is the loss of REFCLK, which takes every PLL that REFCLK feeds out of
lock, in STANDBY too; the loss of PCIE_REFCLK takes the PCIe link down and is contained at engine level, and the loss of the OBS
PLL closes the observation session. -/
def Obligations.ClocksLockAndFail : Prop :=
  (∀ s p, Quiet s → s.ctl.dev.rails = true → (p = .obs → s.ctl.own.session.isOpen = true) → ∃ t,
    exec (.pllLocked p) s = .next t
    ∧ getLock t.ctl.dev.locks p = true ∧ (∀ q, q ≠ p → getLock t.ctl.dev.locks q = getLock s.ctl.dev.locks q)
    ∧ t.ctl.dev.pins = (if p = .hif then { s.ctl.dev.pins with pcieRefclk := true } else { s.ctl.dev.pins with refclk := true })
    ∧ t = { s with ctl := { s.ctl with dev := { s.ctl.dev with locks := t.ctl.dev.locks, pins := t.ctl.dev.pins } } })
  ∧ (∀ s p, Quiet s → Running s → p = .core ∨ p = .xpt ∨ p = .lod → getLock s.ctl.dev.locks p = true → ∃ t e,
      exec (.pllLockLoss p) s = .next t
      ∧ t.ctl.dev.state = .boot ∧ t.ctl.dev.inReset = true ∧ t.ctl.dev.resetCause = 4 ∧ t.ctl.dev.lit = false
      ∧ getLock t.ctl.dev.locks p = false ∧ t.ctl.flt.hist = (e :: s.ctl.flt.hist).take 32 ∧ e.cause = 0x05 ∧ e.level = 3
      ∧ e.source = (if p = .core then 0x290 else if p = .xpt then 0x291 else 0x293) ∧ t.ctl.flash = s.ctl.flash
      ∧ t.pl.mem = s.pl.mem ∧ t.pending = s.pending)
  ∧ (∀ s, Quiet s → s.ctl.dev.locks.obs = false → exec (.pllLockLoss .obs) s = .next s)
  ∧ (∀ s, Quiet s → Running s → NoRecovery s → s.ctl.policyOf 0x294 = none → s.ctl.dev.locks.obs = true → ∃ t e,
      exec (.pllLockLoss .obs) s = .next t
      ∧ t.ctl.own.session.isOpen = false ∧ t.ctl.dev = { s.ctl.dev with locks := { s.ctl.dev.locks with obs := false } }
      ∧ flag (t.pl.reg Reg.clkUnlock) 4 = true ∧ (∀ a, a ≠ Reg.clkUnlock → t.pl.reg a = s.pl.reg a)
      ∧ t.ctl.flt.hist = (e :: s.ctl.flt.hist).take 32 ∧ e.source = 0x294 ∧ e.cause = 0x05 ∧ e.level = 0
      ∧ t.ctl.flt.slot 0 = some ⟨0, 0x294, 0x294⟩ ∧ t.pl.obs.trace = [] ∧ t.ctl.lod = s.ctl.lod)
  ∧ (∀ s, Quiet s → Running s → ∃ t, exec .refclkLoss s = .next t
      ∧ t.ctl.dev.state = .boot ∧ t.ctl.dev.inReset = true ∧ t.ctl.dev.resetCause = 4 ∧ t.ctl.dev.pins.refclk = false
      ∧ t.ctl.dev.locks.core = false ∧ t.ctl.dev.locks.xpt = false ∧ t.ctl.dev.locks.lod = false
      ∧ t.ctl.dev.locks.stackPlls = 0 ∧ t.ctl.dev.locks.hif = s.ctl.dev.locks.hif ∧ t.ctl.flash.incarnation = s.ctl.flash.incarnation)
  ∧ (∀ s, Quiet s → s.ctl.dev.state = .standby → ∃ t, exec .refclkLoss s = .next t
      ∧ t.ctl.dev = { s.ctl.dev with pins := { s.ctl.dev.pins with refclk := false }
                                     locks := { s.ctl.dev.locks with core := false, xpt := false, lod := false, obs := false, stackPlls := 0 } }
      ∧ (s.ctl.dev.locks.core = true → flag (t.pl.reg Reg.clkUnlock) 0 = true)
      ∧ (∃ e ∈ t.ctl.flt.hist, e.source = 0x283 ∧ e.cause = 0x0F) ∧ t.ctl.own = s.ctl.own ∧ t.pl.mem = s.pl.mem)
  ∧ (∀ s, Quiet s → Running s → NoRecovery s → s.ctl.policyOf 0x292 = none → s.ctl.dev.locks.hif = true → ∃ t e,
      exec .pcieRefclkLoss s = .next t
      ∧ t.ctl.dev = { s.ctl.dev with
          pcieUp := false, pins := { s.ctl.dev.pins with pcieRefclk := false }, locks := { s.ctl.dev.locks with hif := false } }
      ∧ t.ctl.flt.hist = (e :: s.ctl.flt.hist).take 32 ∧ e.source = 0x292 ∧ e.cause = 0x05 ∧ e.level = 0
      ∧ t.ctl.flt.slot 0 = some ⟨0, 0x292, 0x292⟩ ∧ t.ctl.own = s.ctl.own ∧ t.ctl.lod = s.ctl.lod)

/-- R138, R140: each 1 ms the duty moves by one sixteenth under the thermal and the power rule, and nothing but the duties,
the readings and PWR_EVENTS changes; a step before its millisecond is over does nothing. -/
def Obligations.DutyStepFollowsTheLimits : Prop :=
  (∀ (s : State) (r : Readings), Quiet s → s.ctl.ns < s.ctl.dev.dutyAt + 1000000 → exec (.dutyStep r) s = .next s)
  ∧ ∀ (s : State) (r : Readings), Quiet s → s.ctl.dev.state.booted = true → s.ctl.dev.rails = true → atTrip r = false →
    s.ctl.dev.dutyAt + 1000000 ≤ s.ctl.ns → ∃ t,
    exec (.dutyStep r) s = .next t
    ∧ (r.tile ≥ 95 ∨ r.stack ≥ 90 ∨ r.laser ≥ 70 ∨ r.coolant ≥ 45 → t.ctl.dev.duty = max 4 (s.ctl.dev.duty - 1))
    ∧ (r.tile + 3 ≤ 95 → r.stack + 3 ≤ 90 → r.laser + 3 ≤ 70 → r.coolant + 3 ≤ 45 →
        t.ctl.dev.duty = min 16 (s.ctl.dev.duty + 1))
    ∧ (Cool r → ¬ (r.tile + 3 ≤ 95 ∧ r.stack + 3 ≤ 90 ∧ r.laser + 3 ≤ 70 ∧ r.coolant + 3 ≤ 45) →
        t.ctl.dev.duty = s.ctl.dev.duty)
    ∧ t.ctl.dev.dutyPower = (if (s.pl.reg Reg.pwrLimit).toNat < r.watts then max 4 (s.ctl.dev.dutyPower - 1)
        else min 16 (s.ctl.dev.dutyPower + 1))
    ∧ t.ctl.dev.sensors = r
    ∧ (∀ a, a ≠ Reg.pwrEvents → t.pl.reg a = s.pl.reg a)
    ∧ t = { s with
        ctl := { s.ctl with dev := { s.ctl.dev with
          duty := t.ctl.dev.duty, dutyPower := t.ctl.dev.dutyPower, sensors := r, dutyAt := s.ctl.ns } }
        pl := { s.pl with regs := t.pl.regs } }

/-- R132, R139, R142: a sensor at its trip limit, in whichever reading, turns the rails off in a device reset of cause 4 that
keeps the trip in PWR_EVENTS; a low input voltage or a warm coolant inlet sets its own bit of PWR_EVENTS when it arises; in Alive mode
ALERT_N changes level after each 500 µs, and not in Static mode. -/
def Obligations.TripsConditionsAndAlert : Prop :=
  (∀ s c, Quiet s → Running s → s.ctl.dev.tripped = false → atTrip s.ctl.dev.sensors = false →
    (∃ k v, c = .thermalTrip k v ∧ tripLimit k ≤ v)
      ∨ (∃ r, atTrip r = true ∧ (c = .pwrEventCondition r ∨ c = .deviceResetComplete r
          ∨ c = .dutyStep r ∧ s.ctl.dev.rails = true ∧ s.ctl.dev.dutyAt + 1000000 ≤ s.ctl.ns)) →
    ∃ t e, exec c s = .next t
    ∧ t.ctl.dev.state = .boot ∧ t.ctl.dev.inReset = true ∧ t.ctl.dev.resetCause = 4 ∧ t.ctl.dev.tripped = true
    ∧ t.ctl.dev.rails = false ∧ t.ctl.dev.lit = false ∧ t.ctl.dev.locks = {} ∧ flag (t.pl.reg Reg.pwrEvents) 6 = true
    ∧ t.ctl.flt.hist = (e :: s.ctl.flt.hist).take 32 ∧ e.source = 0x283 ∧ e.cause = 0x0A ∧ e.level = 3
    ∧ t.ctl.flash = s.ctl.flash ∧ t.pl.mem = s.pl.mem)
  ∧ (∀ s k v, Quiet s → v < tripLimit k → exec (.thermalTrip k v) s = .next s)
  ∧ (∀ s (r : Readings), Quiet s → atTrip r = false → ∃ t, exec (.pwrEventCondition r) s = .next t
      ∧ t.ctl.dev = { s.ctl.dev with sensors := r }
      ∧ (flag (t.pl.reg Reg.pwrEvents) 0 = true ↔
          flag (s.pl.reg Reg.pwrEvents) 0 = true ∨ (r.vin < 22500 ∧ 22500 ≤ s.ctl.dev.sensors.vin))
      ∧ (flag (t.pl.reg Reg.pwrEvents) 3 = true ↔
          flag (s.pl.reg Reg.pwrEvents) 3 = true ∨ (40 < r.coolant ∧ s.ctl.dev.sensors.coolant ≤ 40))
      ∧ (∀ a, a ≠ Reg.pwrEvents → t.pl.reg a = s.pl.reg a)
      ∧ t = { s with ctl := { s.ctl with dev := t.ctl.dev }, pl := { s.pl with regs := t.pl.regs } })
  ∧ (∀ s, Quiet s → s.ctl.dev.state ≠ .off → s.ctl.dev.state ≠ .service → s.ctl.dev.state ≠ .degraded →
      s.ctl.flt.uncleared = false → s.ctl.dev.alertAt + 500000 ≤ s.ctl.ns →
      exec .alertToggle s = .next (onDev (fun x => { x with alertLow := !x.alertLow, alertAt := s.ctl.ns }) s))
  ∧ (∀ s, Quiet s → (s.ctl.dev.state = .service ∨ s.ctl.dev.state = .degraded ∨ s.ctl.flt.uncleared = true) →
      exec .alertToggle s = .next s)

/-- R42, R87, R89, R90, R108, R237: the PCIe link comes up once it has trained, with the size that the host gives BAR4, a free one (log 118); when it
goes down every entry outstanding is lost, so that none completes later, and nothing else of the rings or of memory changes; a
reset of the physical function abandons every ring of every function without a completion, and one of a virtual function
those it holds; the reset of a function completes once its transfers have drained. -/
def Obligations.LinkAndFunctionResets : Prop :=
  (∀ s, Quiet s → Running s → s.ctl.dev.rails = true → s.ctl.dev.pins.pcieRefclk = true → s.ctl.dev.locks.hif = true →
    NoRecovery s → exec .pcieLinkUp s =
      .next (onDev (fun x => { x with pcieUp := true, bar4 := 2 ^ (30 + (Config.freeValue s.pl.seq).toNat % 11) })
        { s with pl := { s.pl with seq := s.pl.seq + 1 } }))
  ∧ (∀ s, Quiet s → ∃ t, exec .pcieLinkDown s = .next t
      ∧ t.ctl = { s.ctl with dev := { s.ctl.dev with pcieUp := false } }
      ∧ (∀ k, t.pl.ring k = { s.pl.ring k with fetched := (s.pl.ring k).fetched.map fun e => { e with lost := true }, descs := [] })
      ∧ (∀ n, t.pl.qp n = { s.pl.qp n with rxMsgs := (t.pl.qp n).rxMsgs })
      ∧ t = { s with ctl := t.ctl, pl := { s.pl with rings := t.pl.rings, cqs := t.pl.cqs, qps := t.pl.qps } })
  ∧ (∀ s, Quiet s → s.ctl.dev.state.booted = true → ∃ t, exec .functionResetPf s = .next t
      ∧ t.pl.rings = [] ∧ t.pl.cqs = [] ∧ .pf ∈ t.ctl.dev.funcReset ∧ t.pl.mem = s.pl.mem ∧ t.pl.host = s.pl.host
      ∧ t.pl.qps = s.pl.qps ∧ t.pl.keys = s.pl.keys ∧ t.pl.parts = s.pl.parts
      ∧ t.ctl = { s.ctl with dev := { s.ctl.dev with funcReset := t.ctl.dev.funcReset } })
  ∧ (∀ s v, Quiet s → s.ctl.dev.state.booted = true → s.ctl.job.veins = [] → s.pl.col.colls = [] → ∃ t,
      exec (.functionResetVf v) s = .next t
      ∧ (∀ k, t.pl.ring k = if (s.pl.vf v.val).bound = true ∧ (s.pl.vf v.val).first ≤ k ∧
            k < (s.pl.vf v.val).first + (s.pl.vf v.val).count then {} else s.pl.ring k)
      ∧ .vf v ∈ t.ctl.dev.funcReset ∧ t.pl.mem = s.pl.mem ∧ t.pl.host = s.pl.host ∧ t.pl.qps = s.pl.qps
      ∧ t.pl.vfs = s.pl.vfs ∧ t.pl.parts = s.pl.parts ∧ t.pl.wins = s.pl.wins
      ∧ t.ctl = { s.ctl with dev := { s.ctl.dev with funcReset := t.ctl.dev.funcReset } })
  ∧ (∀ s f, Quiet s → f ∈ s.ctl.dev.funcReset → funcBlocked s.pl f = false →
      (∀ n, (s.pl.qp n).msgs = [] ∧ (s.pl.qp n).places = [] ∧ (s.pl.qp n).resps = [] ∧ (s.pl.qp n).rxMsgs = []) →
      (∀ r ∈ s.pl.rings, r.2.fetched = []) → s.pl.xpt.destroying = [] → ∃ t, exec (.functionResetDrained f) s = .next t
      ∧ t.ctl = { s.ctl with dev := { s.ctl.dev with funcReset := s.ctl.dev.funcReset.filter (· != f) } }
      ∧ t.pl.mem = s.pl.mem ∧ t.pl.host = s.pl.host ∧ t.pl.rings = s.pl.rings
      ∧ (f = .pf → ∀ n, (s.pl.qp n).state = .init ∨ (s.pl.qp n).state = .connecting ∨ (s.pl.qp n).state = .ready →
          (t.pl.qp n).state = .error))

/-! ### Registers -/

/-- R8, R35, R36, R97, R561: a read of the _LO register of a 64-bit quantity answers the low half and holds all 64 bits in the
reading agent's snapshot; its next read of the _HI register answers the snapshot's upper half and uses it up; without a
snapshot the live upper half is answered. A read of another size over PCIe answers all-ones and takes no snapshot. Every other
snapshot, and everything else, stays. -/
def Obligations.SixtyFourBitReadsUseASnapshot : Prop :=
  ∀ (s : State) (g : Agent) (lo : Nat), Quiet s → s.ctl.arrives g = true → lo % 4 = 0 → lo + 4 < 0x4000000 →
    (standbyBlock lo = true ∨ s.ctl.dev.state.booted = true ∧ s.ctl.dev.rails = true) →
    (standbyBlock (lo + 4) = true ∨ s.ctl.dev.state.booted = true ∧ s.ctl.dev.rails = true) →
    quantityOf lo = some lo → quantityOf (lo + 4) = some lo →
    let low := readWord s.ctl s.pl lo
    let high := readWord s.ctl s.pl (lo + 4)
    (∃ t, exec (.loSnapshotRead ⟨.bar g, 4⟩ lo) s = .next t
      ∧ t.pl = { s.pl with bus := { data := low } }
      ∧ t.ctl.snap (agentId g) lo = some (high ++ low)
      ∧ (∀ a q, q < 2 ^ 32 → (a, q) ≠ (agentId g, lo) → t.ctl.snap a q = s.ctl.snap a q)
      ∧ t.ctl = { s.ctl with snaps := t.ctl.snaps } ∧ t.pending = s.pending)
    ∧ (∃ t, exec (.hiRead ⟨.bar g, 4⟩ (lo + 4)) s = .next t
      ∧ t.pl = { s.pl with bus := { data := match s.ctl.snap (agentId g) lo with | some v => (v >>> 32).setWidth 32 | none => high } }
      ∧ t.ctl.snap (agentId g) lo = none
      ∧ (∀ a q, q < 2 ^ 32 → (a, q) ≠ (agentId g, lo) → t.ctl.snap a q = s.ctl.snap a q)
      ∧ t.ctl = { s.ctl with snaps := t.ctl.snaps } ∧ t.pending = s.pending)
    ∧ (∀ n, n ≠ 4 → g = .pcie →
      let ones : State := { s with pl := { s.pl with bus := { data := 0xFFFFFFFF, wide := List.replicate n 0xFF } } }
      exec (.loSnapshotRead ⟨.bar g, n⟩ lo) s = .next ones ∧ exec (.hiRead ⟨.bar g, n⟩ (lo + 4)) s = .next ones)

/-- R37, R561: a write of the owner to the _LO register of a writable 64-bit quantity is held, in place of what another
agent held there; its write to the _HI register applies both halves at once and uses the held half up; without a half of
its own the high half is applied alone. The quantities of LAT, LOD, XLT, XPT_QP_BUF, CIP and OBS. -/
def Obligations.SixtyFourBitWritesAreHeld : Prop :=
  ∀ (s : State) (g : Agent) (lo : Nat) (v : Word) (r r' : RegRow), Quiet s → Accepted s g lo → Accepted s g (lo + 4) →
    lo % 4 = 0 → (lo + 4 < 0x500000 ∨ 0x600000 ≤ lo ∧ lo + 4 < 0x1000000) → ¬ (0x400100 ≤ lo ∧ lo < 0x400180) → lo ≠ Reg.faultTimeout → lo + 4 ≠ Reg.faultTimeout →
    quantityOf lo = some lo → quantityOf (lo + 4) = some lo →
    regRow lo = some r → regRow (lo + 4) = some r' → r.acc = .rw → r'.acc = .rw →
    let h : Hold := SMap.find {} s.ctl.held lo
    (∃ t, exec (.loWriteHold (.bar g) lo v) s = .next t
      ∧ t.pl = s.pl ∧ SMap.find {} t.ctl.held lo = { owner := agentId g, value := some (v.setWidth 64) }
      ∧ (∀ q, q ≠ lo → SMap.find {} t.ctl.held q = SMap.find {} s.ctl.held q)
      ∧ t.ctl = { s.ctl with held := t.ctl.held } ∧ t.pending = s.pending)
    ∧ (∃ t, exec (.hiWriteApply (.bar g) (lo + 4) v) s = .next t
      ∧ t.pl.reg (lo + 4) = r'.written v
      ∧ t.pl.reg lo = (match (if h.owner = agentId g then h.value else none) with
          | some x => r.written (x.setWidth 32) | none => s.pl.reg lo)
      ∧ (∀ a, a ≠ lo → a ≠ lo + 4 → t.pl.reg a = s.pl.reg a)
      ∧ (h.owner = agentId g → SMap.find {} t.ctl.held lo = { owner := 0, value := none } ∨ h.value = none)
      ∧ t = { s with ctl := { s.ctl with held := t.ctl.held }, pl := { s.pl with regs := t.pl.regs } })

/-- R9, R12, R96: a 32-bit write by the owner to a storage register of XLT, WIN, XPT, CIP, COL, VEN, PAR or OBS takes effect by
its access code: RW takes the value with reserved bits 0 and clamped fields in range, W1C clears the bits written 1, the
others ignore it; no other register changes, and a sampler that is enabled begins its interval (log 151). A write of another size, a misaligned one or one by an agent that is not the
owner changes no register, and the last sets that agent's bit of OWN_REJECT. -/
def Obligations.RegisterWritesFollowTheAccessCode : Prop :=
  (∀ (s : State) (g : Agent) (a : Nat) (v : Word) (r : RegRow), Quiet s → Accepted s g a → a % 4 = 0 →
    ((0xC0000 ≤ a ∧ a < 0x500000) ∨ (0x600000 ≤ a ∧ a < 0x1000000)) → ¬ (0x400100 ≤ a ∧ a < 0x400180) →
    a ≠ Reg.faultTimeout → quantityOf a = none → regRow a = some r → ∃ t, exec (.registerWrite (.bar g) a 4 v) s = .next t
      ∧ t.pl.reg a = (match r.acc with | .rw => r.written v | .w1c => s.pl.reg a &&& ~~~v | .rc | .snap => s.pl.reg a)
      ∧ (∀ b, b ≠ a → t.pl.reg b = s.pl.reg b)
      ∧ (a ≠ Reg.smpCfg → (∀ p, p < 32 → a ≠ Reg.pc p 0x40) → t.pl.obs = s.pl.obs)
      ∧ t = { s with pl := { s.pl with regs := t.pl.regs, obs := { s.pl.obs with smpAt := t.pl.obs.smpAt, edges := t.pl.obs.edges } } })
  ∧ (∀ (s : State) (g : Agent) (v : Word), Quiet s → Accepted s g 0x30014 → ∃ t,
      exec (.registerWrite (.bar g) 0x30014 4 v) s = .next t
      ∧ (t.pl.reg 0x30014).toNat = (if v.toNat < 1000 then 1000 else if 2700 < v.toNat then 2700 else v.toNat)
      ∧ (∀ b, b ≠ 0x30014 → t.pl.reg b = s.pl.reg b) ∧ t = { s with pl := { s.pl with regs := t.pl.regs } })
  ∧ (∀ (s : State) (g : Agent) (a n : Nat) (v : Word), Quiet s → n ≠ 4 ∨ a % 4 ≠ 0 → exec (.registerWrite (.bar g) a n v) s = .next s)
  ∧ (∀ (s : State) (g : Agent) (a : Nat) (v : Word), Quiet s → s.ctl.arrives g = true → s.ctl.own.owner.toNat ≠ agentId g →
      a % 4 = 0 → a < 0x4000000 → a ≠ 0x10000 → a ≠ 0x10008 → a ≠ 0x1000C →
      exec (.registerWrite (.bar g) a 4 v) s =
        .next (onOwn (fun o => { o with reject := o.reject ||| BitVec.ofNat 3 (2 ^ (agentId g - 1)) }) s))

/-- R97, R128: an I3C transfer of 8 bytes writes the register whose address and then data it sends, least significant byte
first; one of 4 bytes with a read of 4 answers the register; the target NACKs any other length and performs no access. It answers at
its dynamic address, or at the static one while it has none, and NACKs any other; a dynamic address is taken while it has none, by
the static address or by arbitration, and a reset of the addresses takes it away (PRESUMED, log 136). -/
def Obligations.I3cTransfersByLength : Prop :=
  (∀ (s : State) (a : BitVec 7) (sent : List Byte) (n : Nat), Quiet s → s.ctl.dev.state ≠ .off →
    let x := s.ctl.dev
    let taken : State := onDev (fun x => { x with i3cAddr := some a }) { s with pl := { s.pl with bus := {} } }
    let nacked : State := { s with pl := { s.pl with bus := { nack := true } } }
    (a ≠ x.i3cAddr.getD x.i3cStatic → exec (.i3cTransfer ⟨.transfer a, sent⟩ n) s = .next nacked)
    ∧ (x.i3cAddr = none → exec (.i3cTransfer ⟨.setStatic x.i3cStatic a, sent⟩ n) s = .next taken
        ∧ exec (.i3cTransfer ⟨.setDynamic a, sent⟩ n) s = .next taken)
    ∧ (x.i3cAddr ≠ none → exec (.i3cTransfer ⟨.setStatic x.i3cStatic a, sent⟩ n) s = .next nacked
        ∧ exec (.i3cTransfer ⟨.setDynamic a, sent⟩ n) s = .next nacked)
    ∧ (∀ b, b ≠ x.i3cStatic → exec (.i3cTransfer ⟨.setStatic b a, sent⟩ n) s = .next nacked)
    ∧ exec (.i3cTransfer ⟨.resetDynamic, sent⟩ n) s =
        .next (onDev (fun x => { x with i3cAddr := none }) { s with pl := { s.pl with bus := {} } }))
  ∧ (∀ (s : State) (sent : List Byte) (a : Nat) (r : RegRow), Quiet s → sent.length = 8 → leNat (sent.take 4) = a →
    Accepted s .i3c a → a % 4 = 0 → ((0xC0000 ≤ a ∧ a < 0x500000) ∨ (0x600000 ≤ a ∧ a < 0x1000000)) →
    ¬ (0x400100 ≤ a ∧ a < 0x400180) → a ≠ Reg.faultTimeout → quantityOf a = none → regRow a = some r → r.acc = .rw → ∃ t,
      exec (.i3cTransfer ⟨.transfer (s.ctl.dev.i3cAddr.getD s.ctl.dev.i3cStatic), sent⟩ 0) s = .next t
      ∧ t.pl.reg a = r.written (BitVec.ofNat 32 (leNat (sent.drop 4))) ∧ t.pl.bus = {}
      ∧ (∀ b, b ≠ a → t.pl.reg b = s.pl.reg b)
      ∧ t = { s with pl := { s.pl with
          regs := t.pl.regs, bus := {}, obs := { s.pl.obs with smpAt := t.pl.obs.smpAt, edges := t.pl.obs.edges } } })
  ∧ (∀ (s : State) (sent : List Byte) (a : Nat), Quiet s → sent.length = 4 → leNat sent = a → s.ctl.dev.state ≠ .off →
      a % 4 = 0 → a < 0x4000000 → (standbyBlock a = true ∨ s.ctl.dev.state.booted = true ∧ s.ctl.dev.rails = true) →
      quantityOf a = none → ¬ (0xC1000 ≤ a ∧ a < 0xC2000) → (∀ r, regRow a = some r → r.acc ≠ .rc) →
      exec (.i3cTransfer ⟨.transfer (s.ctl.dev.i3cAddr.getD s.ctl.dev.i3cStatic), sent⟩ 4) s = .next { s with pl := { s.pl with bus := { data := readWord s.ctl s.pl a } } })
  ∧ (∀ (s : State) (sent : List Byte) (n : Nat), Quiet s → s.ctl.dev.state ≠ .off → ¬ (sent.length = 8 ∧ n = 0) →
      ¬ (sent.length = 4 ∧ n = 4) →
      exec (.i3cTransfer ⟨.transfer (s.ctl.dev.i3cAddr.getD s.ctl.dev.i3cStatic), sent⟩ n) s = .next { s with pl := { s.pl with bus := { nack := true } } })

/-- R42, R188: BAR4 offset x, below the size of BAR4, is the stacked-memory address XLT_BAR4_BASE.UNIT × 1 GiB + x. A write stores
its bytes there and nowhere else, a read answers them; beyond 900 GiB a read answers all-ones and a write is discarded. -/
def Obligations.Bar4ReachesStackedMemory : Prop :=
  ∀ (s : State) (x : Nat) (data : List Byte), Quiet s → s.ctl.dev.pcieUp = true → Running s → data ≠ [] →
    x + data.length ≤ s.ctl.dev.bar4 →
    let a := bits (s.pl.reg 0x200004) 9 0 * 2 ^ 30 + x
    (a + data.length ≤ 900 * 2 ^ 30 → ∃ t, exec (.bar4Access x true data) s = .next t
      ∧ (∀ b, Mem.read t.pl.mem b = if a ≤ b ∧ b < a + data.length then data[b - a]?.getD 0 else Mem.read s.pl.mem b)
      ∧ t = { s with pl := { s.pl with mem := t.pl.mem, poison := t.pl.poison } })
    ∧ (900 * 2 ^ 30 < a + data.length → exec (.bar4Access x true data) s = .next s)
    ∧ (a + data.length ≤ 900 * 2 ^ 30 → (∀ l ∈ s.pl.poison, l * 64 + 64 ≤ a ∨ a + data.length ≤ l * 64) →
        exec (.bar4Access x false data) s =
          .next { s with pl := { s.pl with bus := { wide := Mem.readN s.pl.mem a data.length } } })
    ∧ (900 * 2 ^ 30 < a + data.length → exec (.bar4Access x false data) s =
          .next { s with pl := { s.pl with bus := { wide := List.replicate data.length 0xFF } } })

/-- R8, R12, R478, R559: a 32-bit read of a counter that clears on read answers the count and clears it, and no other register:
XPT_QPC_DROP_q, LOD_LATE_COUNT, LOD_MISS_COUNT, HBM_s_UE, OBS_TRACE_LOST and PC_CQ_ERR; a read of VEN_VEIN_v_ERRCNT
also clears and re-arms the error words of its vein. A read of another size over PCIe answers all-ones and clears nothing. -/
def Obligations.CountersClearWhenRead : Prop :=
  ∀ (s : State) (g : Agent), Quiet s → s.ctl.arrives g = true → s.ctl.dev.state.booted = true → s.ctl.dev.rails = true →
    let cleared (c : Instr) (a : Nat) : Prop := ∃ t, exec c s = .next t
      ∧ t.pl.bus = { data := s.pl.reg a } ∧ t.pl.reg a = 0 ∧ (∀ b, b ≠ a → t.pl.reg b = s.pl.reg b)
      ∧ t = { s with pl := { s.pl with regs := t.pl.regs, bus := t.pl.bus } }
    (∀ q : QuadId, cleared (.xptQpcDropRead ⟨g, 4⟩ q) (0x401008 + q.val * 0x10))
    ∧ cleared (.lodLateCountRead ⟨g, 4⟩) 0x40028
    ∧ cleared (.lodMissCountRead ⟨g, 4⟩) 0x4002C
    ∧ (∀ k : StackId, cleared (.hbmUeRead ⟨g, 4⟩ k) (0x1400008 + k.val * 0x10000))
    ∧ cleared (.obsTraceLostRead ⟨g, 4⟩) 0xC000C
    ∧ (∀ p : PartId, cleared (.pcCqErrRead ⟨.bar g, 4⟩ p) (0xC8020 + p.val * 0x100))
    ∧ (∀ v : VeinId, ∃ t, exec (.venErrcntRead ⟨g, 4⟩ v) s = .next t
        ∧ t.pl.bus = { data := s.pl.reg (0x80100C + v.val * 0x10) } ∧ t.pl.reg (0x80100C + v.val * 0x10) = 0
        ∧ t.pl.vein v.val = { s.pl.vein v.val with
            err0 := 0, err1 := 0, errArmed := true, saturated := false, nanOut := false, infOut := false }
        ∧ (∀ w, w ≠ v.val → t.pl.vein w = s.pl.vein w) ∧ (∀ b, b ≠ 0x80100C + v.val * 0x10 → t.pl.reg b = s.pl.reg b)
        ∧ t = { s with pl := { s.pl with regs := t.pl.regs, bus := t.pl.bus, veins := t.pl.veins } })
    ∧ (∀ (n : Nat) (c : Instr), n ≠ 4 → g = .pcie →
        c ∈ [.xptQpcDropRead ⟨g, n⟩ 0, .lodLateCountRead ⟨g, n⟩, .lodMissCountRead ⟨g, n⟩, .venErrcntRead ⟨g, n⟩ 0, .hbmUeRead ⟨g, n⟩ 0
            , .obsTraceLostRead ⟨g, n⟩, .pcCqErrRead ⟨.bar g, n⟩ 0] →
        exec c s = .next { s with pl := { s.pl with bus := { data := 0xFFFFFFFF, wide := List.replicate n 0xFF } } })

/-- R221, R344, R366, R496, R520, R541: a write to a snapshot register places the words of one window, fence record, queue pair,
key slot or history entry in its snapshot words, and a write of 1 to FLT_CLEAR_FIRST clears the first-error entry; nothing
else changes. -/
def Obligations.SnapshotRegistersFill : Prop :=
  ∀ (s : State) (g : Agent), Quiet s → s.ctl.arrives g = true → s.ctl.own.owner.toNat = agentId g → Running s →
    (∀ i : BitVec 20, ∃ t, exec (.winRead g i) s = .next t
      ∧ (let w := s.pl.win i.toNat
         bits (t.pl.reg 0x300010) 1 0 = (match w.state with | .closed => 0 | .isOpen => 1 | .closing => 2)
         ∧ bits (t.pl.reg 0x300010) 23 12 = w.gen.toNat ∧ bits (t.pl.reg 0x300010) 9 7 = w.rights % 8
         ∧ (t.pl.reg 0x300014).toNat = w.base % 2 ^ 32 ∧ (t.pl.reg 0x30001C).toNat = w.len % 2 ^ 32
         ∧ bits (t.pl.reg 0x300024) 19 0 = w.peerNode % 2 ^ 20)
      ∧ (∀ b, b < 0x300010 ∨ 0x300028 ≤ b → t.pl.reg b = s.pl.reg b)
      ∧ t = { s with pl := { s.pl with regs := t.pl.regs } })
    ∧ (∀ i : BitVec 10, ∃ t, exec (.xptFenceRead g i) s = .next t
      ∧ (let r := s.pl.fenceRec i.toNat
         flag (t.pl.reg 0x400060) 31 = r.valid ∧ bits (t.pl.reg 0x400064) 15 0 = r.inc.toNat ∧ flag (t.pl.reg 0x400064) 16 = r.here
         ∧ t.pl.reg 0x400068 = r.epoch)
      ∧ (∀ b, b < 0x400060 ∨ 0x40006C ≤ b → t.pl.reg b = s.pl.reg b)
      ∧ t = { s with pl := { s.pl with regs := t.pl.regs } })
    ∧ (∀ q : BitVec 20, ∃ t, exec (.schQpRead g q) s = .next t
      ∧ (let x := s.pl.qp q.toNat
         if x.resident = true ∧ x.state = .ready then
           bits (t.pl.reg 0x500030) 20 0 = x.rateD % 2 ^ 21 ∧ flag (t.pl.reg 0x500030) 31 = true
             ∧ bits (t.pl.reg 0x500034) 20 0 = x.rateE % 2 ^ 21
         else t.pl.reg 0x500030 = 0 ∧ t.pl.reg 0x500034 = 0 ∧ t.pl.reg 0x500038 = 0 ∧ t.pl.reg 0x50003C = 0)
      ∧ (∀ b, b < 0x500030 ∨ 0x500040 ≤ b → t.pl.reg b = s.pl.reg b)
      ∧ t = { s with pl := { s.pl with regs := t.pl.regs } })
    ∧ (∀ k : BitVec 16, ∃ t, exec (.cipSlotRead (.bar g) k) s = .next t
      ∧ (t.pl.reg 0x600024, t.pl.reg 0x600028, t.pl.reg 0x60002C) =
          (if slotAllowed s.pl 0 k.toNat then slotInfoWords s.pl k.toNat else (0, 0, 0))
      ∧ (∀ b, b < 0x600024 ∨ 0x600030 ≤ b → t.pl.reg b = s.pl.reg b)
      ∧ t = { s with pl := { s.pl with regs := t.pl.regs } })
    ∧ (∀ age : BitVec 5, ∃ t, exec (.fltHistRead g age) s = .next t
      ∧ (∀ w, w < 5 → t.pl.reg (0x80010 + 4 * w) = (match s.ctl.flt.hist[age.toNat]? with | some e => e.word w | none => 0))
      ∧ (∀ b, b < 0x80010 ∨ 0x80024 ≤ b → t.pl.reg b = s.pl.reg b)
      ∧ t = { s with pl := { s.pl with regs := t.pl.regs } })
    ∧ (∀ v : Word, exec (.fltClearFirst g v) s =
        .next (if v.getLsbD 0 then onFlt (fun f => { f with first := none }) s else s))

/-- R178, R204, R305, R357, R359: the registers whose write does more than store, or less. A held port register takes the
value while its port is not disabled; a region base is held and applied as one quantity while no queue pair of the region
is in use; a quantum of at least 36 caps the deficit of its class; a shaper write cuts the tokens to the new burst, and a
bucket that was unshaped is full; a fault time limit takes its value when no open slot is that old. -/
def Obligations.RegistersWithRules : Prop :=
  ∀ (s : State) (g : Agent), Quiet s → s.ctl.arrives g = true → s.ctl.own.owner.toNat = agentId g → Running s →
    (∀ (p : PortId) (o : Nat) (v : Word) (r : RegRow), o ∈ [0xC, 0x10, 0x1C, 0x20, 0x24] →
      regRow (0x1000000 + p.val * 0x10000 + o) = some r →
      ∃ t, exec (.prtHeldWrite g p o v) s = .next t
        ∧ t.pl.reg (0x1000000 + p.val * 0x10000 + o) =
            (if (s.pl.port p.val).link = .disabled then s.pl.reg (0x1000000 + p.val * 0x10000 + o) else r.written v)
        ∧ (∀ b, b ≠ 0x1000000 + p.val * 0x10000 + o → t.pl.reg b = s.pl.reg b)
        ∧ t.ctl.inEffect = s.ctl.inEffect ∧ t = { s with pl := { s.pl with regs := t.pl.regs } })
    ∧ (∀ (r : Fin 16) (v w : Word), (s.pl.qps.any fun x => x.1 / 65536 == r.val && x.2.state != .free) = false → ∃ t u,
        exec (.qpcRegionWrite g r false v) s = .next t ∧ t.pl = s.pl
        ∧ exec (.qpcRegionWrite g r true w) t = .next u
        ∧ u.pl.reg (0x400100 + 8 * r.val) = v &&& 0xFC000003 ∧ u.pl.reg (0x400104 + 8 * r.val) = w
        ∧ (∀ b, b ≠ 0x400100 + 8 * r.val → b ≠ 0x400104 + 8 * r.val → u.pl.reg b = s.pl.reg b)
        ∧ u = { s with ctl := { s.ctl with held := u.ctl.held }, pl := { s.pl with regs := u.pl.regs } })
    ∧ (∀ (p : PortId) (k : Fin 7) (v : Word), ∃ t, exec (.quantumWrite g p k v) s = .next t
        ∧ (t.pl.reg (0x501000 + p.val * 0x100 + 4 * k.val)).toNat = max 36 (v.toNat % 4096)
        ∧ ((t.pl.port p.val).cls k.val).deficit =
            min ((s.pl.port p.val).cls k.val).deficit (256 * max 36 (v.toNat % 4096))
        ∧ (∀ n, n ≠ p.val → t.pl.port n = s.pl.port n)
        ∧ (∀ b, b ≠ 0x501000 + p.val * 0x100 + 4 * k.val → t.pl.reg b = s.pl.reg b)
        ∧ t = { s with pl := { s.pl with regs := t.pl.regs, ports := t.pl.ports } })
    ∧ (∀ (p : PortId) (k : Fin 7) (burst : Bool) (v : Word), ∃ t, exec (.shaperWrite g p k burst v) s = .next t
        ∧ (let a := 0x501020 + p.val * 0x100 + 8 * k.val + if burst then 4 else 0
           let full : Int := (bits (t.pl.reg (0x501024 + p.val * 0x100 + 8 * k.val)) 15 0 * 1024 : Nat) * 80
           (t.pl.reg a).toNat = (if burst then max 1 (v.toNat % 65536) else min 16000 (v.toNat % 32768))
           ∧ ((t.pl.port p.val).cls k.val).tokens =
               (if bits (s.pl.reg (0x501020 + p.val * 0x100 + 8 * k.val)) 14 0 = 0 then full
                else min (tokensNow s.ctl s.pl p.val k.val) full)
           ∧ ((t.pl.port p.val).cls k.val).tokAt = s.ctl.ns
           ∧ (∀ b, b ≠ a → t.pl.reg b = s.pl.reg b))
        ∧ (∀ n, n ≠ p.val → t.pl.port n = s.pl.port n)
        ∧ t = { s with pl := { s.pl with regs := t.pl.regs, ports := t.pl.ports } })
    ∧ (∀ v : Word, (∀ k, k < 512 → (s.pl.slot k).isOpen = false) → ∃ t, exec (.faultTimeoutWrite g v) s = .next t
        ∧ (t.pl.reg 0x200008).toNat = v.toNat % 16384
        ∧ (∀ b, b ≠ 0x200008 → t.pl.reg b = s.pl.reg b)
        ∧ t = { s with pl := { s.pl with regs := t.pl.regs } })

/-! ### The loader, ownership and the observation session -/

/-- R94 to R96, R100: a claim while the owner is 0 makes its agent the owner with a lease of 2,000 ms; of claims in one cycle the
lowest agent id wins; another write of OWN_CLAIM is dropped and noted; the owner renews or gives up; a lease that reaches zero ends the ownership and sets LAPSED. -/
def Obligations.OwnershipIsClaimedAndLeased : Prop :=
  (∀ (s : State) (g : Agent) (v : Word), Quiet s → s.ctl.arrives g = true → s.ctl.own.owner = 0 → bits v 1 0 = agentId g →
    exec (.ownClaim g v) s = .next (onOwn (fun o => { o with
      owner := BitVec.ofNat 2 (agentId g), lapsed := false, leaseEnd := s.ctl.ns + 2000 * 1000000, claimedAt := some s.ctl.ns }) s))
  ∧ (∀ (s : State) (g h : Agent) (v : Word), Quiet s → s.ctl.arrives g = true → s.ctl.own.owner.toNat = agentId h →
    s.ctl.own.claimedAt = some s.ctl.ns → agentId g < agentId h → bits v 1 0 = agentId g →
    exec (.ownClaim g v) s = .next (onOwn (fun o => { o with
      owner := BitVec.ofNat 2 (agentId g), lapsed := false, leaseEnd := s.ctl.ns + 2000 * 1000000, claimedAt := some s.ctl.ns
      reject := o.reject ||| BitVec.ofNat 3 (2 ^ (agentId h - 1)) }) s))
  ∧ (∀ (s : State) (g : Agent) (v : Word), Quiet s → s.ctl.arrives g = true →
    bits v 1 0 ≠ agentId g ∨ s.ctl.own.owner ≠ 0 ∧ (s.ctl.own.claimedAt = some s.ctl.ns → s.ctl.own.owner.toNat ≤ agentId g) →
    exec (.ownClaim g v) s = .next (onOwn (fun o => { o with reject := o.reject ||| BitVec.ofNat 3 (2 ^ (agentId g - 1)) }) s))
  ∧ (∀ (s : State) (g : Agent), Quiet s → Accepted s g 0x10004 →
    exec (.renew g) s = .next (onOwn (fun o => { o with leaseEnd := s.ctl.ns + 2000 * 1000000 }) s))
  ∧ (∀ (s : State) (g : Agent), Quiet s → Accepted s g 0x10004 → ∃ t, exec (.release g) s = .next t
    ∧ t.ctl.own.owner = 0 ∧ t.ctl.own.handover = false ∧ (s.ctl.own.handover = true → t.ctl.own.expired = true)
    ∧ t.ctl.own.lapsed = s.ctl.own.lapsed ∧ t.ctl.own.reject = s.ctl.own.reject ∧ t.ctl.own.session = s.ctl.own.session
    ∧ t = { s with ctl := { s.ctl with own := t.ctl.own } })
  ∧ (∀ (s : State), Quiet s → s.ctl.own.owner ≠ 0 → s.ctl.own.leaseEnd ≤ s.ctl.ns → ∃ t, exec .leaseExpiry s = .next t
    ∧ t.ctl.own.owner = 0 ∧ t.ctl.own.lapsed = true ∧ t.ctl.own.handover = false
    ∧ (s.ctl.own.handover = true → t.ctl.own.expired = true) ∧ t.ctl.own.session = s.ctl.own.session
    ∧ t = { s with ctl := { s.ctl with own := t.ctl.own } })
  ∧ (∀ (s : State), Quiet s → s.ctl.ns < s.ctl.own.leaseEnd → exec .leaseExpiry s = .next s)

/-- R98: the owner names a successor, who has 100 ms to accept; 0 or its own id cancels without EXPIRED, another name
replaces it and restarts the time; the acceptance makes the successor the owner with a fresh lease; 100 ms without one, the end
of the owner's lease and its RELEASE each end the handover and set EXPIRED. Another agent's acceptance, and one that comes
after the end, is dropped and noted. -/
def Obligations.HandoverRuns : Prop :=
  (∀ (s : State) (g : Agent) (n : BitVec 2), Quiet s → Accepted s g 0x10008 →
    exec (.handoverName g n) s = .next (onOwn (fun o =>
      if n = 0 ∨ n = o.owner then { o with successor := 0, handover := false, expired := false }
      else { o with successor := n, handover := true, expired := false, handoverEnd := s.ctl.ns + 100 * 1000000 }) s))
  ∧ (∀ (s : State) (g : Agent) (n : BitVec 2), Quiet s → s.ctl.arrives g = true → s.ctl.own.handover = true →
    s.ctl.own.successor = n → n.toNat = agentId g →
    exec (.handoverAccept g n) s = .next (onOwn (fun o => { o with
      owner := n, successor := 0, handover := false, claimedAt := none, leaseEnd := s.ctl.ns + 2000 * 1000000 }) s))
  ∧ (∀ (s : State) (g : Agent) (n : BitVec 2), Quiet s → s.ctl.arrives g = true → s.ctl.own.owner.toNat ≠ agentId g →
    s.ctl.own.handover = false ∨ s.ctl.own.successor ≠ n ∨ n.toNat ≠ agentId g →
    exec (.handoverAccept g n) s =
      .next (onOwn (fun o => { o with reject := o.reject ||| BitVec.ofNat 3 (2 ^ (agentId g - 1)) }) s))
  ∧ (∀ (s : State), Quiet s → s.ctl.own.handover = true → s.ctl.own.handoverEnd ≤ s.ctl.ns →
    exec .handoverTimeout s = .next (onOwn (fun o => { o with handover := false, successor := 0, expired := true }) s))
  ∧ (∀ (s : State), Quiet s → s.ctl.own.handover = false ∨ s.ctl.ns < s.ctl.own.handoverEnd → exec .handoverTimeout s = .next s)
  ∧ (∀ (s : State), Quiet s → s.ctl.own.handover = true → s.ctl.own.owner ≠ 0 → s.ctl.own.leaseEnd ≤ s.ctl.ns →
    ∃ t, exec .leaseExpiry s = .next t ∧ t.ctl.own.handover = false ∧ t.ctl.own.expired = true ∧ t.ctl.own.owner = 0
      ∧ t = { s with ctl := { s.ctl with own := t.ctl.own } })
  ∧ (∀ (s : State) (g : Agent), Quiet s → Accepted s g 0x10004 → s.ctl.own.handover = true → ∃ t,
    exec (.release g) s = .next t ∧ t.ctl.own.handover = false ∧ t.ctl.own.expired = true ∧ t.ctl.own.owner = 0
      ∧ t = { s with ctl := { s.ctl with own := t.ctl.own } })

/-- R100, R104: a write of OWN_INBAND_PEER takes the node and VALID at once, and its flash copy follows when the store
completes; a device reset before that keeps the old flash value. -/
def Obligations.InbandPeerIsStored : Prop :=
  (∀ (s : State) (g : Agent) (v : Word), Quiet s → Accepted s g 0x10010 → ∃ t, exec (.inbandPeerWrite g v) s = .next t
    ∧ t.ctl.own.inbandNode.toNat = v.toNat % 2 ^ 20 ∧ t.ctl.own.inbandValid = v.getLsbD 20 ∧ t.ctl.own.inbandStore = true
    ∧ t = onOwn (fun o => { o with
        inbandNode := t.ctl.own.inbandNode, inbandValid := t.ctl.own.inbandValid, inbandStore := true }) s)
  ∧ (∀ (s : State), Quiet s → s.ctl.own.inbandStore = true →
    exec .inbandPeerFlashStored s = .next (onOwn (fun o => { o with inbandStore := false })
      (onFlash (fun f => { f with inbandNode := s.ctl.own.inbandNode, inbandValid := s.ctl.own.inbandValid }) s)))
  ∧ (∀ (s : State), Quiet s → s.ctl.own.inbandStore = false → exec .inbandPeerFlashStored s = .next s)
  ∧ (∀ (s t : State), Quiet s → Running s → exec .resetNLow s = .next t → t.ctl.own.inbandStore = false ∧
      t.ctl.flash.inbandNode = s.ctl.flash.inbandNode ∧ t.ctl.flash.inbandValid = s.ctl.flash.inbandValid)

/-- R84, R89, R101, R109: the owner's DEVICE_RESET begins a device reset with cause 2, and REJOIN, in QUARANTINE, one with cause
3 that leaves JOIN_PENDING set; a DEVICE_RESET while a reset runs joins it and completes OK with it; in a wrong state each ends WRONG_STATE and empties the data buffer; a command written while
another runs is discarded. -/
def Obligations.OwnerResetsTheDevice : Prop :=
  ∀ (s : State) (g : Agent), Quiet s → Accepted s g 0x10018 → s.ctl.own.busy = false →
    (Running s → ∃ t, exec (.deviceReset g) s = .next t
      ∧ t.ctl.dev.state = .boot ∧ t.ctl.dev.inReset = true ∧ t.ctl.dev.resetCause = 2 ∧ t.ctl.dev.lit = false
      ∧ t.ctl.own.owner = s.ctl.own.owner ∧ t.ctl.own.busy = false ∧ t.ctl.own.result = 0 ∧ t.ctl.own.dataLen = 0
      ∧ t.ctl.flash = s.ctl.flash ∧ t.ctl.image = none ∧ t.pl.mem = s.pl.mem ∧ t.pl.qps = [] ∧ t.pl.rings = [])
    ∧ (s.ctl.dev.state = .boot → s.ctl.dev.inReset = true → ∃ t, exec (.deviceReset g) s = .next t
      ∧ t.ctl.own.busy = false ∧ t.ctl.own.result = 0 ∧ t.ctl.own.dataLen = 0 ∧ t.ctl.own.owner = s.ctl.own.owner
      ∧ t = { s with ctl := { s.ctl with own := t.ctl.own } })
    ∧ (s.ctl.dev.state = .standby → exec (.deviceReset g) s = .next (onOwn (fun o => { o with
        lastCmd := 1, result := 0x01, busy := false, data := [], dataLen := 0 }) s))
    ∧ (s.ctl.dev.state = .quarantine → s.ctl.dev.inReset = false → ∃ t, exec (.rejoin g) s = .next t
      ∧ t.ctl.dev.state = .boot ∧ t.ctl.dev.inReset = true ∧ t.ctl.dev.resetCause = 3 ∧ t.ctl.dev.joinPending = true
      ∧ t.ctl.own.owner = s.ctl.own.owner ∧ t.ctl.flash = s.ctl.flash ∧ t.pl.mem = s.pl.mem ∧ t.pl.qps = [] ∧ t.pl.rings = [])
    ∧ (s.ctl.dev.state ≠ .quarantine → exec (.rejoin g) s = .next (onOwn (fun o => { o with
        lastCmd := 2, result := 0x01, busy := false, data := [], dataLen := 0 }) s))
    ∧ (∀ u : State, u = onOwn (fun o => { o with busy := true }) s →
        exec (.deviceReset g) u = .next u ∧ exec (.rejoin g) u = .next u)

/-- R101 to R104, R114: TRUST_WRITE, TRUST_CLEAR, PASSWORD_SET and PASSWORD_CLEAR run until their flash write completes, which
stores the digest or hash captured at their start, sets the result and zeroes the data buffer; a refused one ends at once
with its result and no flash write. -/
def Obligations.OwnerCommandsWriteFlash : Prop :=
  ∀ (s : State) (g : Agent), Quiet s → Accepted s g 0x10018 → s.ctl.own.busy = false →
    let o := s.ctl.own
    let begun (cmd index : Nat) (v : BitVec 384) : State :=
      onOwn (fun o => { o with lastCmd := cmd, busy := true, index := index, stored := v }) s
    let ended (cmd result : Nat) : State :=
      onOwn (fun o => { o with lastCmd := cmd, busy := false, result := result, data := [], dataLen := 0 }) s
    (∀ i : BitVec 2, exec (.trustWrite g i) s = .next (
      if i = 0 then ended 3 0x02 else if o.dataLen ≠ 48 then ended 3 0x04
      else if (SMap.find none s.ctl.flash.trust i.toNat).isSome then ended 3 0x03
      else begun 3 i.toNat (BitVec.ofNat 384 (beNat o.bytes))))
    ∧ (∀ i : BitVec 2, exec (.trustClear g i) s = .next (if i = 0 then ended 4 0x02 else begun 4 i.toNat 0))
    ∧ exec (.passwordSet g) s = .next (if o.dataLen < 8 ∨ 64 < o.dataLen then ended 5 0x04 else begun 5 0 (sha384 o.bytes))
    ∧ exec (.passwordClear g) s = .next (begun 6 0 0)
    ∧ (∀ u : State, Quiet u → u.ctl.own.busy = true → ∃ t, exec (.ownCmdFlashDone true) u = .next t
        ∧ t.ctl.own = { u.ctl.own with busy := false, result := 0, data := [], dataLen := 0 }
        ∧ (u.ctl.own.lastCmd = 3 → ∀ i, SMap.find none t.ctl.flash.trust i =
            if i = u.ctl.own.index then some u.ctl.own.stored else SMap.find none u.ctl.flash.trust i)
        ∧ (u.ctl.own.lastCmd = 4 → ∀ i, SMap.find none t.ctl.flash.trust i =
            if i = u.ctl.own.index then none else SMap.find none u.ctl.flash.trust i)
        ∧ t.ctl.flash.password = (if u.ctl.own.lastCmd = 5 then some u.ctl.own.stored else if u.ctl.own.lastCmd = 6 then none
            else u.ctl.flash.password)
        ∧ t = { u with ctl := { u.ctl with own := t.ctl.own, flash := { u.ctl.flash with
            trust := t.ctl.flash.trust, password := t.ctl.flash.password } } })
    ∧ (∀ u : State, Quiet u → u.ctl.own.busy = true → u.ctl.policyOf 0x284 = none → ∃ t e,
        exec (.ownCmdFlashDone false) u = .next t
        ∧ t.ctl.own = { u.ctl.own with busy := false, result := 0x09, data := [], dataLen := 0 } ∧ t.ctl.flash = u.ctl.flash
        ∧ t.ctl.flt.hist = (e :: u.ctl.flt.hist).take 32 ∧ e.source = 0x284 ∧ e.cause = 0x10 ∧ t.pl = u.pl)

/-- R113 to R116: OBS_CHALLENGE issues a fresh nonce; OBS_RESPOND opens a session when the data buffer holds the 32-byte
HMAC-SHA-256 of the nonce and the serial number under the device's key, and uses the nonce up either way; OBS_PASSWORD opens
one when the SHA-384 of the buffer is the stored hash; a failed attempt counts, locks out for 1 s, and for good at the
16th; OBS_CLOSE ends the session and discards unsent trace; the three time limits. -/
def Obligations.ObservationSessionsOpenAndEnd : Prop :=
  (∀ (s : State) (g : Agent), Quiet s → Accepted s g 0x10018 → s.ctl.own.busy = false →
    let o := s.ctl.own
    let x := o.session
    let refused (cmd result : Nat) : State :=
      onOwn (fun o => { o with lastCmd := cmd, busy := false, result := result, data := [], dataLen := 0 }) s
    let opened (cmd : Nat) (method : Bool) (nonce : Bool) : State :=
      onOwn (fun o => { o with
        lastCmd := cmd, busy := false, result := 0, data := [], dataLen := 0, nonceLive := nonce
        session := { x with isOpen := true, method := method, fails := 0, openedAt := s.ctl.ns } }) s
    let failed (cmd : Nat) (nonce : Bool) : State :=
      onOwn (fun o => { o with
        lastCmd := cmd, busy := false, result := 0x07, data := [], dataLen := 0, nonceLive := nonce
        session := { x with
          fails := min 16 (x.fails + 1), lockedOut := x.lockedOut || decide (16 ≤ x.fails + 1)
          retryWait := true, retryAt := s.ctl.ns + 1000 * 1000000 } }) s
    (∃ t, exec (.obsChallenge g) s = .next t
      ∧ t.ctl.own = { o with
          lastCmd := 7, busy := false, result := 0, data := [], dataLen := 0, nonce := t.ctl.own.nonce
          nonceLive := true, nonceAt := s.ctl.ns }
      ∧ t = { s with ctl := { s.ctl with own := t.ctl.own }, pl := { s.pl with seq := t.pl.seq } })
    ∧ (x.lockedOut = true ∨ x.retryWait = true →
        exec (.obsRespond g) s = .next (refused 8 0x08) ∧ exec (.obsPassword g) s = .next (refused 9 0x08))
    ∧ (x.lockedOut = false → x.retryWait = false →
        exec (.obsRespond g) s = .next (if o.dataLen ≠ 32 then refused 8 0x04 else if o.nonceLive = false then refused 8 0x06
          else if o.bytes = obsResponse s.ctl o.nonce then opened 8 false false else failed 8 false)
        ∧ (o.dataLen < 8 ∨ 64 < o.dataLen → exec (.obsPassword g) s = .next (refused 9 0x04))
        ∧ (8 ≤ o.dataLen → o.dataLen ≤ 64 → exec (.obsPassword g) s = .next (match s.ctl.flash.password with
            | none => refused 9 0x05
            | some h => if sha384 o.bytes = h then opened 9 true o.nonceLive else failed 9 o.nonceLive)))
    ∧ (∃ t, exec (.obsClose g) s = .next t ∧ t.ctl.own.session.isOpen = false ∧ t.ctl.own.result = 0 ∧ t.pl.obs.trace = []
        ∧ t.ctl.dev = { s.ctl.dev with locks := { s.ctl.dev.locks with obs := false } }
        ∧ t.ctl.own.session.fails = x.fails ∧ t.ctl.own.owner = o.owner
        ∧ t = { s with ctl := { s.ctl with own := t.ctl.own, dev := t.ctl.dev }, pl := { s.pl with obs := { s.pl.obs with trace := [] } } }))
  ∧ (∀ s : State, Quiet s → s.ctl.own.session.retryWait = true → s.ctl.own.session.retryAt ≤ s.ctl.ns →
      exec .authLockoutExpiry s = .next (onOwn (fun o => { o with session := { o.session with retryWait := false } }) s))
  ∧ (∀ s : State, Quiet s → s.ctl.own.nonceLive = true → s.ctl.own.nonceAt + 60 * 1000000000 ≤ s.ctl.ns →
      exec .nonceExpiry s = .next (onOwn (fun o => { o with nonceLive := false }) s))
  ∧ (∀ s : State, Quiet s → s.ctl.own.session.isOpen = true → s.ctl.own.session.openedAt + 8 * 3600 * 1000000000 ≤ s.ctl.ns →
      ∃ t, exec .obsSessionExpiry s = .next t ∧ t.ctl.own.session = { s.ctl.own.session with isOpen := false, method := false, openedAt := 0 }
        ∧ t.ctl.dev.locks.obs = false ∧ t.pl.obs.trace = [] ∧ t.pl.regs = s.pl.regs ∧ t.pl.mem = s.pl.mem)
  ∧ (∀ s : State, Quiet s → s.ctl.own.session.retryWait = false → exec .authLockoutExpiry s = .next s)
  ∧ (∀ s : State, Quiet s → s.ctl.own.nonceLive = false → exec .nonceExpiry s = .next s)
  ∧ (∀ s : State, Quiet s → s.ctl.own.session.isOpen = false → exec .obsSessionExpiry s = .next s)

/-- R63, R64, R67, R73 to R78, R450: a write of LAT_CTRL by the owner while no command runs. APPLY, WRITE_SLOT and STAGE begin
the first pass over LAT_LEN bytes from LAT_SRC or end with BAD_LENGTH; SET_ACTIVE begins its flash write; ARM arms at LAT_SWITCH_TICK; DISARM
and DISCARD drop the switch and the staged job; LOAD_WEIGHTS begins; each ends at once with its result in a wrong state. While
a command runs the write is discarded and DROPPED is set. -/
def Obligations.LoaderCommandsAreChecked : Prop :=
  (∀ (s : State) (g : Agent), Quiet s → Accepted s g 0x20000 → s.ctl.lat.busy = false →
    let l := s.ctl.lat
    let n := (s.pl.reg 0x20010).toNat
    let ends (cmd result : Nat) (u : State) : State :=
      onLat (fun l => { l with lastCmd := cmd, dropped := false, result := result, failOffset := 0xFFFFFFFF }) u
    let reads (cmd : Nat) (b : Bool) : State :=
      if 384 ≤ n ∧ n ≤ 125829120 ∧ n % 64 = 0 then onLat (fun l => { l with
        lastCmd := cmd, dropped := false, busy := true, phase := .firstPass, reading := cmd, slotB := b
        src := (s.pl.reg64 0x20008).toNat, len := n }) s
      else ends cmd 0x03 s
    exec (.apply g) s = .next (if s.ctl.dev.state ≠ .awaitHost ∨ l.phase ≠ .idle then ends 1 0x10 s else reads 1 false)
    ∧ (∀ b : Bool, exec (.writeSlot g b) s = .next (
        if l.phase ≠ .idle ∨ (l.fromSlot = true ∧ s.ctl.image.isSome = true ∧ s.ctl.flash.bootB = b) then ends 2 0x10 s
        else reads 2 b))
    ∧ (∀ b : Bool, exec (.setActive g b) s = .next (
        if l.phase ≠ .idle then ends 3 0x10 s
        else if (if b then s.ctl.flash.slotB else s.ctl.flash.slotA).commit = false then ends 3 0x0F s
        else onLat (fun l => { l with lastCmd := 3, dropped := false, busy := true, phase := .flash, slotB := b }) s))
    ∧ exec (.stage g) s = .next (
        if l.armed.isSome = true ∨ l.phase ≠ .idle
          ∨ (s.ctl.dev.state ≠ .configured ∧ s.ctl.dev.state ≠ .service ∧ s.ctl.dev.state ≠ .degraded) then ends 4 0x10 s
        else reads 4 false)
    ∧ exec (.arm g) s = .next (
        if s.ctl.lod.state = .free ∨ s.ctl.lod.state = .acquiring ∨ l.armed.isSome = true then ends 5 0x10 s
        else if l.staged = none then ends 5 0x14 s
        else if (s.pl.reg64 0x20018).toNat < s.ctl.lod.tick.toNat + s.ctl.group.leadUs * 4000 + 4000000 then ends 5 0x11 s
        else ends 5 0x00 (onLat (fun l => { l with
          armed := some (s.pl.reg64 0x20018), quiescing := false, cutReady := false, cutAbort := false, readySent := false
          readies := [], aborted := false, weightsBusy := false, weightsOk := false }) s))
    ∧ exec (.disarm g) s = .next (
        if l.armed = none then ends 6 0x10 s else if l.quiescing = true then ends 6 0x15 s
        else ends 6 0x00 (onLat (fun l => { l with armed := none, readies := [], aborted := false }) s))
    ∧ exec (.loadWeights g) s = .next (
        if s.ctl.image = none ∨ l.phase ≠ .idle then ends 7 0x10 s
        else onLat (fun l => { l with lastCmd := 7, dropped := false, busy := true, phase := .weights }) s)
    ∧ exec (.discard g) s = .next (
        if l.armed.isSome = true then ends 8 0x10 s else if l.staged = none then ends 8 0x14 s
        else ends 8 0x00 (onLat (fun l => { l with staged := none }) s)))
  ∧ (∀ (s : State) (g : Agent) (b : Bool), Quiet s → Accepted s g 0x20000 → s.ctl.lat.busy = true →
      ∀ c ∈ [Instr.apply g, .writeSlot g b, .setActive g b, .stage g, .arm g, .disarm g, .loadWeights g, .discard g],
        exec c s = .next (onLat (fun l => { l with dropped := true }) s))

/-- R64 to R70, R76, R78: the passes over an image in host memory. The first ends in the refusal of the checks with its offset, or
keeps the digest, and withdraws the marker of the slot to be written; the second applies, stages or writes the image, or
ends BAD_SIGNATURE when the digest differs. A slot's marker is written once its contents are; SET_ACTIVE stores the active
slot and raises the floor, never lowers it. -/
def Obligations.LoaderPassesEnd : Prop :=
  (∀ (s : State), Quiet s → s.ctl.dev.pcieUp = true → s.pl.hostBad = [] →
    let l := s.ctl.lat
    let b := Mem.readN s.pl.host l.src l.len
    let ends (result : Nat) (at_ : Word) (u : State) : State :=
      onLat (fun l => { l with busy := false, phase := .idle, parsed := none, result := result, failOffset := at_ }) u
    l.reading = 1 ∨ l.reading = 2 ∨ l.reading = 4 →
    (l.phase = .firstPass →
      exec (.firstPassDone false) s = .next (ends 0x0F 0xFFFFFFFF s)
      ∧ (∀ r, checkImage s.ctl (quotaFor s.pl (l.reading == 4)) (l.reading == 4) l.len b = .error r →
          exec (.firstPassDone true) s = .next (ends r.code (BitVec.ofNat 32 r.offset) s))
      ∧ (∀ i, checkImage s.ctl (quotaFor s.pl (l.reading == 4)) (l.reading == 4) l.len b = .ok i → ∃ t, exec (.firstPassDone true) s = .next t
          ∧ t.ctl.lat = { l with phase := .secondPass, parsed := some i, digest := imageDigest b }
          ∧ t.ctl.flash = (if l.reading ≠ 2 then s.ctl.flash
              else if l.slotB then { s.ctl.flash with slotB := { s.ctl.flash.slotB with commit := false } }
              else { s.ctl.flash with slotA := { s.ctl.flash.slotA with commit := false } })
          ∧ t = { s with ctl := { s.ctl with lat := t.ctl.lat, flash := t.ctl.flash } }))
    ∧ (∀ i, l.phase = .secondPass → l.parsed = some i →
      (imageDigest b ≠ l.digest → exec (.secondPassDone true) s = .next (ends 0x06 0xFFFFFFFF s))
      ∧ (imageDigest b = l.digest → ∃ t, exec (.secondPassDone true) s = .next t
          ∧ (l.reading = 1 → t.ctl.image = some i ∧ t.ctl.dev.state = .configured ∧ t.ctl.lat.result = 0
              ∧ t.ctl.lat.busy = false ∧ t.ctl.lat.imageVersion = i.version ∧ t.ctl.lat.fromSlot = false
              ∧ t.ctl.flash.slotA = s.ctl.flash.slotA ∧ t.ctl.flash.slotB = s.ctl.flash.slotB
              ∧ (∀ p, p < 32 → (t.pl.part p).state =
                  (if i.static.parts.any (·.part == p) then (if (s.pl.part p).state = .absent then .idle else (s.pl.part p).state)
                   else .absent))
              ∧ t.pl.rings = s.pl.rings ∧ t.pl.qps = s.pl.qps ∧ t.pl.host = s.pl.host)
          ∧ (l.reading = 2 → t = onLat (fun l => { l with phase := .commit }) (onFlash (fun f =>
              if l.slotB then { f with slotB := { bytes := b, commit := false } }
              else { f with slotA := { bytes := b, commit := false } }) s))
          ∧ (l.reading = 4 → t = ends 0x00 0xFFFFFFFF (onLat (fun l => { l with
              staged := some { job := i.job, staticTag := i.staticTag } }) s))
          ∧ t.ctl.own = s.ctl.own ∧ t.pending = s.pending)))
  ∧ (∀ (s : State), Quiet s → s.ctl.lat.phase = .commit → exec .slotCommit s = .next (onLat (fun l => { l with
      busy := false, phase := .idle, parsed := none, result := 0x00, failOffset := 0xFFFFFFFF })
      (onFlash (fun f => if s.ctl.lat.slotB then { f with slotB := { f.slotB with commit := true } }
        else { f with slotA := { f.slotA with commit := true } }) s)))
  ∧ (∀ (s : State), Quiet s → s.ctl.lat.phase = .flash → ∃ t, exec .setActiveFlashDone s = .next t
      ∧ t.ctl.flash.activeB = s.ctl.lat.slotB
      ∧ t.ctl.flash.floor.toNat = max s.ctl.flash.floor.toNat
          (getLe (if s.ctl.lat.slotB then s.ctl.flash.slotB else s.ctl.flash.slotA).bytes 28 2)
      ∧ t.ctl.lat = { s.ctl.lat with busy := false, phase := .idle, parsed := none, result := 0x00, failOffset := 0xFFFFFFFF }
      ∧ t = { s with ctl := { s.ctl with lat := t.ctl.lat, flash := { s.ctl.flash with
          activeB := t.ctl.flash.activeB, floor := t.ctl.flash.floor } } })
  ∧ (∀ (s : State) (ok : Bool), Quiet s → s.ctl.lat.phase = .idle →
      exec (.firstPassDone ok) s = .next s ∧ exec (.secondPassDone ok) s = .next s ∧ exec .slotCommit s = .next s
      ∧ exec .setActiveFlashDone s = .next s)

/-- R58, R450: when the weights of the running job have been read, every vein whose stages' digests all match is READY with
its weights, every other vein that was loaded is FAILED, and the command ends OK or WEIGHT_DIGEST; memory stays. -/
def Obligations.WeightsMustMatchTheirDigests : Prop :=
  ∀ (s : State), Quiet s → s.pl.poison = [] → s.ctl.lat.phase = .weights → (s.ctl.job.veins.map (·.vein)).Nodup → ∃ t,
    exec .weightLoadDone s = .next t
    ∧ t.ctl.lat = { s.ctl.lat with
        busy := false, phase := .idle, parsed := none, result := t.ctl.lat.result, failOffset := t.ctl.lat.failOffset }
    ∧ (∀ v ∈ s.ctl.job.veins, (s.pl.vein v.vein).state ≠ .absent → (s.pl.vein v.vein).state ≠ .ready →
        (∀ x ∈ v.stages, (s.ctl.tileOf x.tile).isSome = true) →
        (t.pl.vein v.vein).state = (if v.stages.all fun x => x.weightLen == 0 ||
            ((readLocal s.ctl s.pl 0 x.weightAddr x.weightLen).1.map sha384 == some x.digest) then .ready else .failed))
    ∧ (t.ctl.lat.result = 0 ∨ t.ctl.lat.result = 0x13)
    ∧ (t.ctl.lat.result = 0 ↔ ∀ v ∈ s.ctl.job.veins, (s.pl.vein v.vein).state ≠ .absent →
        (s.pl.vein v.vein).state ≠ .ready → (∀ x ∈ v.stages, (s.ctl.tileOf x.tile).isSome = true) →
        (t.pl.vein v.vein).state = .ready)
    ∧ t = { s with ctl := { s.ctl with lat := t.ctl.lat }, pl := { s.pl with veins := t.pl.veins } }

/-- R79, R111, R565: the job switch. At the quiesce point fetching stops and the staged weights are loaded; at the ready cutoff a ready device
counts its own READY and sends it; an unready one, or one that lacks a READY or holds a differing one, aborts at the abort
cutoff; a READY or ABORT counts when it names T and comes before T; at T the staged job runs, or the switch ends
SWITCH_ABORTED with the running job and the staged one as they were. Before its moment each does nothing. -/
def Obligations.JobSwitchRuns : Prop :=
  ∀ (s : State) (tick : DWord) (j : Staged), Quiet s → s.ctl.lat.armed = some tick → s.ctl.lat.staged = some j →
    let now := s.ctl.lod.tick.toNat
    let own : ReadyNote :=
      { member := (s.ctl.memberIndex s.ctl.selfNode).getD 0, jobId := j.job.jobId, tick := tick, staticTag := j.staticTag
        commTag := j.job.commTag }
    let bad : Prop := s.ctl.lat.readySent = false ∨ isReady s = false
      ∨ (∃ i m, s.ctl.group.members[i]? = some m ∧ fenceOf s.ctl s.pl m.node = none ∧ ∀ r ∈ s.ctl.lat.readies, r.member ≠ i)
      ∨ ∃ r ∈ s.ctl.lat.readies, r ≠ { own with member := r.member }
    let ended : Machine.Lat := { s.ctl.lat with
      armed := none, quiescing := false, cutReady := false, cutAbort := false, readySent := false, readies := []
      aborted := false, weightsBusy := false, weightsOk := false }
    (s.ctl.lat.quiescing = false → tick.toNat ≤ now + s.ctl.group.leadUs * 4000 →
      exec .quiescePoint s = .next (onLat (fun l => { l with quiescing := true, weightsBusy := true, weightsOk := false }) s))
    ∧ (s.ctl.lat.cutReady = false → tick.toNat ≤ now + 800000 → ∃ t, exec .readyCutoff s = .next t
        ∧ t.ctl.lat = (if isReady s then { s.ctl.lat with
              cutReady := true, readySent := true, readies := s.ctl.lat.readies ++ [own] }
            else { s.ctl.lat with cutReady := true })
        ∧ t.ctl = { s.ctl with lat := t.ctl.lat } ∧ t.pl = { s.pl with ports := t.pl.ports } ∧ t.pending = s.pending)
    ∧ (s.ctl.lat.cutAbort = false → tick.toNat ≤ now + 400000 → bad → ∃ t, exec .abortCutoff s = .next t
        ∧ t.ctl = { s.ctl with lat := { s.ctl.lat with cutAbort := true, aborted := true } }
        ∧ t.pl = { s.pl with ports := t.pl.ports } ∧ t.pending = s.pending)
    ∧ (s.ctl.lat.cutAbort = false → tick.toNat ≤ now + 400000 → ¬ bad →
        exec .abortCutoff s = .next (onLat (fun l => { l with cutAbort := true }) s))
    ∧ (tick.toNat ≤ now → s.ctl.lat.aborted = false → ∃ t, exec .switchTick s = .next t
        ∧ t.ctl.lat = { ended with staged := none } ∧ t.ctl.job = (if s.ctl.image.isSome then j.job else {})
        ∧ t.ctl.static = s.ctl.static ∧ (∀ v ∈ j.job.veins, (t.pl.vein v.vein).state = .ready)
        ∧ t.ctl.dev.joinPending = (s.ctl.dev.joinPending && !s.ctl.lat.readySent)
        ∧ t.ctl.flash.quarantine = (s.ctl.flash.quarantine && !(s.ctl.lat.readySent && s.ctl.dev.joinPending))
        ∧ (∀ r ∈ s.ctl.lat.readies, SMap.find {} t.pl.xpt.fences r.member = {})
        ∧ (∀ i, (∀ r ∈ s.ctl.lat.readies, r.member ≠ i) → SMap.find {} t.pl.xpt.fences i = SMap.find {} s.pl.xpt.fences i)
        ∧ t.pl.rings = s.pl.rings ∧ t.pl.qps = s.pl.qps ∧ t.pl.host = s.pl.host ∧ t.pl.regs = s.pl.regs ∧ t.pending = s.pending)
    ∧ (tick.toNat ≤ now → s.ctl.lat.aborted = true → ∃ t e, exec .switchTick s = .next t
        ∧ t.ctl.lat = { ended with result := 0x12, failOffset := 0xFFFFFFFF } ∧ t.ctl.image = s.ctl.image
        ∧ t.ctl.flt.hist = (e :: s.ctl.flt.hist).take 32 ∧ e.source = 0x282 ∧ e.cause = 0x0B
        ∧ t.ctl.dev = s.ctl.dev ∧ t.ctl.flash = s.ctl.flash ∧ t.pl.veins = s.pl.veins ∧ t.pl.xpt = s.pl.xpt)
    ∧ (now < tick.toNat → exec .switchTick s = .next s)
    ∧ (now + s.ctl.group.leadUs * 4000 < tick.toNat → exec .quiescePoint s = .next s)
    ∧ (now + 800000 < tick.toNat → exec .readyCutoff s = .next s)
    ∧ (now + 400000 < tick.toNat → exec .abortCutoff s = .next s)
    ∧ (∀ (f : RxFrame) (raw : List Byte) (ce : Bool) (p : Pkt) (i : Nat), PacketIn s f raw ce p → Unfenced s p →
        s.ctl.memberIndex p.src = some i → mqPktOk p = true → (mqHdr p.ext).src = i → now < tick.toNat →
        getBe p.payload 8 8 = tick.toNat →
        (p.ptype = 0x37 → p.payload.length = 32 → exec (.mqReadyRx f) s = .next (onLat (fun l => { l with
          readies := l.readies ++ [{ member := i, jobId := getBe p.payload 0 2, tick := tick
                                     staticTag := BitVec.ofNat 64 (getBe p.payload 16 8)
                                     commTag := BitVec.ofNat 64 (getBe p.payload 24 8) }] }) (afterMac s f)))
        ∧ (p.ptype = 0x38 → p.payload.length = 40 →
            exec (.mqAbortRx f) s = .next (onLat (fun l => { l with aborted := true }) (afterMac s f))))
    ∧ (∀ (f : RxFrame) (raw : List Byte) (ce : Bool) (p : Pkt), PacketIn s f raw ce p → Unfenced s p →
        getBe p.payload 8 8 ≠ tick.toNat ∨ tick.toNat ≤ now → ∃ t, (p.ptype = 0x37 → exec (.mqReadyRx f) s = .next t)
          ∧ (p.ptype = 0x38 → exec (.mqAbortRx f) s = .next t) ∧ t.ctl = s.ctl)

/-! ### Ports -/

/-- R152, R157, R158: the link states of a port. TRAINING ends UP with an empty replay buffer and HOP_SEQ 0 when every data lane is
aligned, or all but one that a locked parity lane of a group link rebuilds; 500 ms of it report the port failed; on a fabric port a lost lane pauses the port, on a group link the parity lane rebuilds the first one and a second
pauses it; signal back within 10 µs gives UP, else the port is unusable and trains; RETRAIN trains at once. No other port
changes, and of the control side only the time block's choice of a parent. -/
def Obligations.PortsTrainPauseAndReturn : Prop :=
  ∀ (s : State) (n : PortId), Quiet s →
    let p := s.pl.port n.val
    let sticky := 0x1000008 + n.val * 0x10000
    let only (t : State) : Prop := CtlButTime s t ∧ t.pl = { s.pl with ports := t.pl.ports, regs := t.pl.regs }
      ∧ (∀ m, m ≠ n.val → t.pl.port m = s.pl.port m) ∧ (∀ a, a ≠ sticky → a ≠ 0x40024 → t.pl.reg a = s.pl.reg a)
    let trains (t : State) : Prop :=
      (t.pl.port n.val).link = .training ∧ (t.pl.port n.val).since = s.ctl.ns ∧ (t.pl.port n.val).replay = []
        ∧ (t.pl.port n.val).peerOk = false ∧ (t.pl.port n.val).dataOk = false ∧ (t.pl.port n.val).mode = p.mode
    (∀ lanes : BitVec 9, p.link = .training → p.inUse = true →
      let lost := (List.range 8).filter fun i => !lanes.getLsbD i
      let parity := p.group && lanes.getLsbD 8
      (lost = [] ∨ (parity = true ∧ lost.length = 1) → ∃ t, exec (.linkAligned ⟨n, lanes⟩) s = .next t ∧ only t
        ∧ (t.pl.port n.val).link = .up ∧ (t.pl.port n.val).replay = [] ∧ (t.pl.port n.val).hopNext = 0
        ∧ (t.pl.port n.val).hopExpect = 0 ∧ (t.pl.port n.val).failed = false ∧ (t.pl.port n.val).heads = p.heads
        ∧ (t.pl.port n.val).parityOk = parity ∧ (t.pl.port n.val).spared = lost.head?
        ∧ (lost = [] → t.pl.reg sticky = s.pl.reg sticky) ∧ (lost ≠ [] → flag (t.pl.reg sticky) 14 = true))
      ∧ (1 < lost.length ∨ (lost ≠ [] ∧ parity = false) → ∃ t, exec (.linkAligned ⟨n, lanes⟩) s = .next t ∧ only t
        ∧ t.pl.ports = s.pl.ports))
    ∧ (p.link = .training → p.since + 500000000 ≤ s.ctl.ns → ∃ t, exec (.portTrainTimeout n) s = .next t
      ∧ t.pl.port n.val = { p with failed := true } ∧ (∀ m, m ≠ n.val → t.pl.port m = s.pl.port m)
      ∧ t = { s with ctl := { s.ctl with flash := { s.ctl.flash with portsRetired := t.ctl.flash.portsRetired } }
                     pl := { s.pl with ports := t.pl.ports } }
      ∧ (p.group = true → t.ctl.flash.portsRetired = s.ctl.flash.portsRetired))
    ∧ (p.link ≠ .training ∨ s.ctl.ns < p.since + 500000000 → exec (.portTrainTimeout n) s = .next s)
    ∧ (∀ (l : Fin 8) (e : LaneEvent), p.link = .up → ∃ t, exec (.linkSignalLoss n l e) s = .next t ∧ only t
      ∧ flag (t.pl.reg sticky) (if e = .signal then 0 else 1) = true
      ∧ (p.group = false ∨ (p.spared ≠ some l.val ∧ (p.spared.isSome = true ∨ p.parityOk = false)) →
          (t.pl.port n.val).link = .paused ∧ (t.pl.port n.val).since = s.ctl.ns ∧ (t.pl.port n.val).peerOk = false
          ∧ (t.pl.port n.val).replay = p.replay ∧ (t.pl.port n.val).rxLock.getLsbD l.val = false)
      ∧ (p.group = true → p.spared = none → p.parityOk = true →
          t.pl.port n.val = { p with
            spared := some l.val, sparedAt := s.ctl.ns, rebuildNoted := false, rxLock := (t.pl.port n.val).rxLock }
          ∧ (t.pl.port n.val).rxLock.getLsbD l.val = false ∧ flag (t.pl.reg sticky) 14 = true))
    ∧ (p.link = .paused → s.ctl.ns ≤ p.since + 10000 → ∃ t, exec (.linkSignalRestored n) s = .next t ∧ only t
      ∧ (t.pl.port n.val).link = .up ∧ (t.pl.port n.val).since = s.ctl.ns ∧ (t.pl.port n.val).replay = p.replay
      ∧ (t.pl.port n.val).hopExpect = p.hopExpect ∧ (t.pl.port n.val).parityOk = (p.parityOk || p.spared.isSome)
      ∧ t.pl.reg sticky = s.pl.reg sticky)
    ∧ (p.link = .paused → p.since + 10000 ≤ s.ctl.ns → ∃ t, exec (.pauseTimeout n) s = .next t ∧ only t ∧ trains t)
    ∧ (∀ g : Agent, Accepted s g (0x1000000 + n.val * 0x10000) → p.link = .up → ∃ t, exec (.retrain g n) s = .next t ∧ only t
      ∧ trains t ∧ t.pl.reg sticky = s.pl.reg sticky)

/-- R158, R159, R532: on a group link one failed data lane is rebuilt while the port stays UP, a failed parity lane alone only clears
PARITY_OK and sets LANE_SPARED, and both together pause the port; a lane that regains lock ends the rebuild; a rebuild of 10 s records
EXHAUSTED once and takes SERVICE to DEGRADED. -/
def Obligations.LanesAreRebuiltFromParity : Prop :=
  ∀ (s : State) (n : PortId), Quiet s → (s.pl.port n.val).group = true →
    let p := s.pl.port n.val
    let sticky := 0x1000008 + n.val * 0x10000
    let only (t : State) : Prop := CtlButTime s t ∧ t.pl = { s.pl with ports := t.pl.ports, regs := t.pl.regs }
      ∧ (∀ m, m ≠ n.val → t.pl.port m = s.pl.port m) ∧ (∀ a, a ≠ sticky → a ≠ 0x40024 → t.pl.reg a = s.pl.reg a)
    (∀ (l : Fin 9) (e : LaneEvent), p.link = .up → ∃ t, exec (.laneFault n l e) s = .next t ∧ only t
      ∧ (l.val < 8 → p.spared = none → p.parityOk = true →
          t.pl.port n.val = { p with
            spared := some l.val, sparedAt := s.ctl.ns, rebuildNoted := false, rxLock := (t.pl.port n.val).rxLock }
          ∧ flag (t.pl.reg sticky) 14 = true)
      ∧ (l.val < 8 → p.spared ≠ some l.val → p.spared.isSome = true ∨ p.parityOk = false →
          (t.pl.port n.val).link = .paused ∧ (t.pl.port n.val).peerOk = false ∧ (t.pl.port n.val).spared = p.spared)
      ∧ (l.val = 8 → p.parityOk = true → (t.pl.port n.val).parityOk = false ∧ flag (t.pl.reg sticky) 14 = true
          ∧ (t.pl.port n.val).link = (if p.spared.isSome then .paused else .up))
      ∧ (l.val = 8 → p.spared = none → ∀ b, b < 2 → flag (t.pl.reg sticky) b = flag (s.pl.reg sticky) b)
      ∧ (l.val < 8 → e ≠ .errors → flag (t.pl.reg sticky) (if e = .signal then 0 else 1) = true))
    ∧ (∀ l : Fin 9, p.link = .up → ∃ t, exec (.laneLockRestored n l) s = .next t
      ∧ t.pl.port n.val = (if l.val = 8 then { p with parityOk := true, rxLock := (t.pl.port n.val).rxLock }
          else if p.spared = some l.val then
            { p with spared := none, rebuildNoted := false, rxLock := (t.pl.port n.val).rxLock } else p)
      ∧ (l.val = 8 ∨ p.spared = some l.val → (t.pl.port n.val).rxLock.getLsbD l.val = true)
      ∧ (∀ m, m ≠ n.val → t.pl.port m = s.pl.port m) ∧ t = { s with pl := { s.pl with ports := t.pl.ports } })
    ∧ (p.spared.isSome = true → p.rebuildNoted = false → p.sparedAt + 10000000000 ≤ s.ctl.ns → ∃ t e,
      exec (.parityRebuildTimeout n) s = .next t
      ∧ t.pl.port n.val = { p with rebuildNoted := true } ∧ (∀ m, m ≠ n.val → t.pl.port m = s.pl.port m)
      ∧ t.ctl.flt.hist = (e :: s.ctl.flt.hist).take 32 ∧ e.source.toNat = 0x180 + n.val ∧ e.cause = 0x0D
      ∧ t.ctl.flash = { s.ctl.flash with short := true }
      ∧ t.ctl.dev.state = (if s.ctl.dev.state = .service then .degraded else s.ctl.dev.state)
      ∧ t.pl = { s.pl with ports := t.pl.ports } ∧ t.pending = s.pending)
    ∧ (p.rebuildNoted = true ∨ s.ctl.ns < p.sparedAt + 10000000000 → exec (.parityRebuildTimeout n) s = .next s)

/-- R107, R154 to R157, R163 to R165: a heartbeat is sent on each group link that is UP or PAUSED and carries the sender's incarnation, node,
group, state and JOIN_PENDING; an acknowledgement that is due and a NAK repeated after 12 µs go out in one. A received one
with the right group and node sets PEER_OK, and DATA_OK by the peer's state; another group's or node's does not; 8 µs
without one clear both, and DEAD_TIME_US without one declares the peer dead with a fence record. The replay buffer of an UP
port is sent again when its oldest frame is 12 µs old; a 17th replay trains the port. The last clause, a peer of which no
heartbeat was ever heard, is the model's choice (log 147). -/
def Obligations.HeartbeatsKeepALink : Prop :=
  ∀ (s : State) (n : PortId), Quiet s →
    let p := s.pl.port n.val
    let lives : Prop := p.group = true ∧ (p.link = .up ∨ p.link = .paused) ∧ (s.ctl.dev.state = .training
      ∨ s.ctl.dev.state = .service ∨ s.ctl.dev.state = .degraded ∨ s.ctl.dev.state = .quarantine)
    let sent (f : Frame) : Prop := f.etype = s.ctl.etypeLink n.val ∧ 64 ≤ frameLen f
      ∧ getByte f.body 0 = 1 ∧ getByte f.body 1 = 1 ∧ getBe f.body 2 2 = s.ctl.dev.incarnation.toNat
      ∧ getBe f.body 4 4 = s.ctl.selfNode % 2 ^ 32 ∧ getBe f.body 8 4 = s.ctl.group.groupId % 2 ^ 32
      ∧ getByte f.body 12 = n.val ∧ getByte f.body 13 = s.ctl.dev.state.num
      ∧ getByte f.body 14 % 2 = (if s.ctl.dev.joinPending then 1 else 0)
    let beat (t : State) (q : Port) : Prop := ∃ f, sent f ∧ t.pl.port n.val = { q with queue7 := p.queue7 ++ [f] }
      ∧ (∀ m, m ≠ n.val → t.pl.port m = s.pl.port m) ∧ t = { s with pl := { s.pl with ports := t.pl.ports } }
    (lives → ∃ t, exec (.heartbeatTx n) s = .next t ∧ beat t p)
    ∧ (¬ lives → exec (.heartbeatTx n) s = .next s)
    ∧ (lives → p.ackDue = true → p.ackAt + 500 ≤ s.ctl.ns ∨ 32 ≤ p.accepted → ∃ t, exec (.ackHeartbeat n) s = .next t ∧ beat t p)
    ∧ (lives → p.nakOut = true → p.nakAt + 12000 ≤ s.ctl.ns → ∃ t, exec (.nakRepeat n) s = .next t
        ∧ beat t { p with nakAt := s.ctl.ns, nakDue := true })
    ∧ (∀ x xs, p.replay = x :: xs → p.link = .up → x.sentAt + 12000 ≤ s.ctl.ns → ∃ t,
        exec (.hopReplayTimeout n) s = .next t ∧ CtlButTime s t
        ∧ (p.replays < 16 → t.pl.port n.val =
              { p with toReplay := p.replay.map fun y => (y.seq, y.frame), replays := p.replays + 1
                       replay := p.replay.map fun y => { y with sentAt := s.ctl.ns } }
            ∧ flag (t.pl.reg (0x1000008 + n.val * 0x10000)) 8 = true)
        ∧ (16 ≤ p.replays → (t.pl.port n.val).link = .training ∧ (t.pl.port n.val).replay = []
            ∧ flag (t.pl.reg (0x1000008 + n.val * 0x10000)) 1 = true)
        ∧ (∀ m, m ≠ n.val → t.pl.port m = s.pl.port m) ∧ t.pl = { s.pl with ports := t.pl.ports, regs := t.pl.regs })
    ∧ ((∀ x ∈ p.replay.head?, s.ctl.ns < x.sentAt + 12000) ∨ p.link ≠ .up → ∃ t, exec (.hopReplayTimeout n) s = .next t
        ∧ CtlButTime s t ∧ t.pl.ports = s.pl.ports)
    ∧ (p.peerOk = true → p.hbAt + 8000 < s.ctl.ns → ∃ t, exec (.peerOkTimeout n) s = .next t ∧ CtlButTime s t
        ∧ t.pl.port n.val = { p with peerOk := false, dataOk := false } ∧ (∀ m, m ≠ n.val → t.pl.port m = s.pl.port m)
        ∧ (∀ a, a ≠ 0x40024 → t.pl.reg a = s.pl.reg a) ∧ t.pl = { s.pl with ports := t.pl.ports, regs := t.pl.regs })
    ∧ (∀ f : RxFrame, f.port = n → p.group = true → (macIn s.ctl s.pl f).1 = some f.frame →
        f.frame.etype = s.ctl.etypeLink n.val → getByte f.frame.body 0 = 1 →
        let b := f.frame.body
        let q := (afterMac s f).pl.port n.val
        (getByte b 1 = 1 → getBe b 8 4 = s.ctl.group.groupId → getBe b 4 4 % 2 ^ 20 = p.peerNode →
          fenceOf s.ctl s.pl p.peerNode = none → ∃ t, exec (.heartbeatRx f) s = .next t ∧ CtlButTime s t
          ∧ t.pl.port n.val = { q with
              peerOk := true, heard := true, hbAt := s.ctl.ns, hbInc := BitVec.ofNat 16 (getBe b 2 2)
              hbState := getByte b 13, hbJoin := decide (getByte b 14 % 2 = 1), dead := false
              reqAt := (t.pl.port n.val).reqAt, queue7 := (t.pl.port n.val).queue7
              dataOk := decide ((getByte b 13 = 6 ∨ getByte b 13 = 7) ∧ getByte b 14 % 2 = 0) }
          ∧ (∀ m, m ≠ n.val → t.pl.port m = s.pl.port m))
        ∧ (getByte b 1 = 1 → getBe b 8 4 ≠ s.ctl.group.groupId → ∃ t, exec (.heartbeatRx f) s = .next t ∧ CtlButTime s t
          ∧ t.pl.port n.val = q ∧ flag (t.pl.reg (0x1000008 + n.val * 0x10000)) 13 = true)
        ∧ (getByte b 1 = 1 → getBe b 8 4 = s.ctl.group.groupId → getBe b 4 4 % 2 ^ 20 ≠ p.peerNode →
          ∃ t e, exec (.heartbeatRx f) s = .next t
          ∧ (t.pl.port n.val).peerOk = q.peerOk ∧ (t.pl.port n.val).cabling = true
          ∧ flag (t.pl.reg (0x1000008 + n.val * 0x10000)) 12 = true
          ∧ t.ctl.flt.hist = (e :: s.ctl.flt.hist).take 32 ∧ e.source.toNat = 0x180 + n.val ∧ e.cause = 0x09))
    ∧ (∀ i, p.group = true → p.heard = true → p.dead = false → s.ctl.memberIndex p.peerNode = some i →
        (∀ m, m < 48 → (s.pl.port m).group = true → (s.pl.port m).peerNode = p.peerNode → (s.pl.port m).heard = true →
          (s.pl.port m).hbAt + s.ctl.group.deadTimeUs * 1000 ≤ s.ctl.ns ∧ ((s.pl.port m).hbInc = p.hbInc)) →
        s.pl.col.colls = [] → (∀ x ∈ s.pl.qps, x.2.peerNode ≠ p.peerNode ∨ x.2.state = .free) → ∃ t,
        exec (.peerDeadDeclare n) s = .next t ∧ CtlButTime s t
        ∧ SMap.find {} t.pl.xpt.fences i = { valid := true, inc := p.hbInc, epoch := s.pl.xpt.fenceEpoch + 1, here := true }
        ∧ (s.pl.xpt.fenceEpoch ≠ 0xFFFFFFFF → t.pl.xpt.fenceEpoch = s.pl.xpt.fenceEpoch + 1)
        ∧ (∀ j, j ≠ i → SMap.find {} t.pl.xpt.fences j = SMap.find {} s.pl.xpt.fences j)
        ∧ (∀ m, m < 48 → (s.pl.port m).group = true → (s.pl.port m).peerNode = p.peerNode → (t.pl.port m).dead = true)
        ∧ t.pl.qps = s.pl.qps ∧ t.pl.rings = s.pl.rings)
    ∧ (p.heard = false → (∀ m, m < 48 → (s.pl.port m).peerNode = p.peerNode → (s.pl.port m).heard = false) → ∃ t,
        exec (.peerDeadDeclare n) s = .next t ∧ CtlButTime s t ∧ t.pl.xpt = s.pl.xpt ∧ t.pl.ports = s.pl.ports)

/-- R147, R151, R162, R163, R167 to R173, R184 to R187: what becomes of a received frame that is no packet for this node. The MAC discards a
damaged, runt, oversize, pause, doubly or wrongly tagged frame with its sticky bit, and asks for a lost frame of a group link, or
one without a free input buffer, again; a frame that no rule takes is dropped; one for a HOST filter goes into the next buffer
of its queue and completes as a received SEND, or is dropped when there is none or the port serves another partition; one for
another node is forwarded with one hop less, or dropped. -/
def Obligations.FramesAreSteeredOrDropped : Prop :=
  ∀ (s : State) (f : RxFrame), Quiet s →
    let n := f.port.val
    let p := s.pl.port n
    let sticky := 0x1000008 + n * 0x10000
    let noted (u : State) (b : Nat) : Prop := ∃ t, exec (.rxFrameDiscard f) s = .next t ∧ flag (t.pl.reg sticky) b = true
      ∧ (∀ a, a ≠ sticky → t.pl.reg a = u.pl.reg a) ∧ t = { u with pl := { u.pl with regs := t.pl.regs } }
    (p.link ≠ .up ∨ p.inUse = false → exec (.rxFrameDiscard f) s = .next s)
    ∧ (p.link = .up → p.fabric = true → f.fcsOk = false → noted s 2)
    ∧ (p.link = .up → p.fabric = true → f.fcsOk = true →
        (frameLen f.frame < 64 ∨ 9216 < frameLen f.frame → noted s 3)
        ∧ (64 ≤ frameLen f.frame → frameLen f.frame ≤ 9216 → f.frame.etype = 0x8808 → noted s 4)
        ∧ (64 ≤ frameLen f.frame → frameLen f.frame ≤ 9216 → f.frame.etype ≠ 0x8808 →
          1 < f.frame.tags.length ∨ (∃ x ∈ f.frame.tags, x.1 ≠ 0x8100) → noted s 5))
    ∧ (p.link = .up → p.group = true → f.fcsOk = false ∨ hopCheck f.frame.hop ≠ f.frame.hop.pchk → p.nakOut = false → ∃ t,
        exec (.rxFrameDiscard f) s = .next t ∧ flag (t.pl.reg sticky) 2 = true ∧ t.ctl = s.ctl
        ∧ (t.pl.port n).nakOut = true ∧ (t.pl.port n).nakDue = true ∧ (t.pl.port n).nakAt = s.ctl.ns
        ∧ (t.pl.port n).hopExpect = p.hopExpect ∧ (t.pl.port n).replay = p.replay)
    ∧ (p.link = .up → p.group = true → f.fcsOk = true → hopCheck f.frame.hop = f.frame.hop.pchk → hopAckValid f.frame.hop = false →
        hopSeqValid f.frame.hop = true → f.frame.hop.seq = p.hopExpect → f.room = false → p.nakOut = false → ∃ t,
        exec (.rxFrameDiscard f) s = .next t ∧ flag (t.pl.reg sticky) 7 = true ∧ t.ctl = s.ctl ∧ (t.pl.port n).nakOut = true
        ∧ (t.pl.port n).hopExpect = p.hopExpect ∧ (t.pl.port n).accepted = p.accepted)
    ∧ ((macIn s.ctl s.pl f).1 = some f.frame →
        (steer s.ctl n p f.frame = .drop → exec (.rxFrameDiscard f) s = .next (afterMac s f))
        ∧ (steer s.ctl n p f.frame = .miss → noted (afterMac s f) 6)
        ∧ (steer s.ctl n p f.frame = .ipErr → noted (afterMac s f) 15)
        ∧ (∀ q, steer s.ctl n p f.frame = .host q → (s.pl.srqRing q = none →
            exec (.hostSteeredFrame f) s = .next (afterMac s f)))
        ∧ (∀ q k, steer s.ctl n p f.frame = .host q → s.pl.srqRing q = some k →
            portServes s.pl n (s.pl.wrgPart k) = false → exec (.hostSteeredFrame f) s = .next (afterMac s f))
        ∧ (∀ q k, steer s.ctl n p f.frame = .host q → s.pl.srqRing q = some k → portServes s.pl n (s.pl.wrgPart k) = true →
            HostRings s →
            let bs := frameBytes f.frame
            (((s.pl.ring k).descs = [] ∧ mayFetch s.ctl (s.pl.ring k) = false)
                ∨ (∃ x xs, (s.pl.ring k).descs = x :: xs ∧ x.len < bs.length) → ∃ t, exec (.hostSteeredFrame f) s = .next t
              ∧ flag (t.pl.reg sticky) 7 = true ∧ t = { s with pl := { (afterMac s f).pl with regs := t.pl.regs } })
            ∧ (∀ x xs ps, (s.pl.ring k).descs = x :: xs → bs.length ≤ x.len →
                let w := translateRange s.ctl (afterMac s f).pl (n / 12) (s.pl.wrgPart k) x.va bs.length true
                w.1 = .ok ps → ∃ t,
                exec (.hostSteeredFrame f) s = .next t ∧ t.ctl = s.ctl ∧ (t.pl.ring k).descs = xs
                ∧ t.pl.mem = (writePieces s.ctl (ownerFn w.2 (s.pl.wrgPart k)) ps bs w.2).mem
                ∧ ((s.pl.cq (s.pl.wrgCq k)).enabled = true →
                    (t.pl.cq (s.pl.wrgCq k)).write.toNat = ((s.pl.cq (s.pl.wrgCq k)).write.toNat + 1) % 65536 ∨
                    s.pl.eventRing (s.pl.wrgPart k) = some (s.pl.wrgCq k))
                ∧ t.pl.qps = s.pl.qps ∧ t.pl.wins = s.pl.wins))
        ∧ (∀ raw ce, steer s.ctl n p f.frame = .gxt raw ce → gxtBad raw p.group (leastBody f.frame p.group) = none →
            (parsePkt raw).dst ≠ s.ctl.selfNode →
            let fails (b : Nat) : Prop := ∃ t, exec (.frameForward f) s = .next t ∧ flag (t.pl.reg sticky) b = true
              ∧ (∀ a, a ≠ sticky → t.pl.reg a = s.pl.reg a) ∧ t.pl.wire = s.pl.wire ∧ t.ctl = s.ctl
            (p.group = false → fails 11) ∧ (p.group = true → f.frame.hop.hopsLeft = 0 → fails 10)
            ∧ (p.group = true → f.frame.hop.hopsLeft ≠ 0 → s.ctl.route (parsePkt raw).dst = none → fails 11)
            ∧ (∀ r m, p.group = true → f.frame.hop.hopsLeft ≠ 0 → s.ctl.route (parsePkt raw).dst = some r → r.fabric = false →
                (if melquinType (parsePkt raw).ptype then s.ctl.maySpeak else s.ctl.maySend) = true → (parsePkt raw).tc = 7 →
                (s.pl.flow (2 ^ 23 + 8 * n + 7)).queue = [] →
                (usableHops s.ctl (afterMac s f).pl r 7 (melquinType (parsePkt raw).ptype)).head? = some m → ∃ t g,
                exec (.frameForward f) s = .next t ∧ t.ctl = s.ctl
                ∧ t.pl.port m = { (afterMac s f).pl.port m with queue7 := ((afterMac s f).pl.port m).queue7 ++ [g] }
                ∧ g.body.take raw.length = raw ∧ g.etype = s.ctl.etypeGxt m
                ∧ g.hop.hopsLeft.toNat + 1 = f.frame.hop.hopsLeft.toNat
                ∧ (∀ x, x ≠ m → t.pl.port x = (afterMac s f).pl.port x))))

/-- R84, R155, R157, R165, R275, R357 to R364: a port starts no frame while one occupies it or it is neither UP nor PAUSED; the first
class-7 frame that may start goes first, an acknowledgement with its HOLD_NS; then a frame to be replayed, with its HOP_SEQ and
REPLAY, if the port may carry it and the gate of its class lets it through; then the head that the arbitration picks. A started
frame is the next one on the wire and occupies the port for its wire bytes at 200 bytes a nanosecond. -/
def Obligations.PortsStartTheNextFrame : Prop :=
  ∀ (s : State) (n : PortId), Quiet s →
    let p := s.pl.port n.val
    (s.ctl.ns < p.busyTill ∨ (p.link ≠ .up ∧ p.link ≠ .paused) → exec (.portFrameStart n) s = .next s)
    ∧ (p.busyTill ≤ s.ctl.ns → p.link = .up ∨ p.link = .paused →
      (∀ f rest, takeFirst (may7 s.ctl n.val p) p.queue7 = some (f, rest) → p.group = true →
          f.etype ≠ s.ctl.etypeLink n.val → 46 ≤ f.body.length → 64 ≤ frameLen f → ∃ t g sent, exec (.portFrameStart n) s = .next t ∧ t.ctl = s.ctl
          ∧ ((∀ h ∈ p.ackHolds, h.frame ≠ f) → sent = f) ∧ sent.etype = f.etype ∧ sent.body.length = f.body.length
          ∧ (∀ h hs, takeFirst (fun h => h.frame == f) p.ackHolds = some (h, hs) → h.sealing = none →
              (sent.body.drop 44).take 2 = beBytes 2 (min (s.ctl.ns - h.since) 65535) ∧ sent.body.take 44 = f.body.take 44)
          ∧ t.pl.wire = (n.val, g) :: s.pl.wire ∧ g = { sent with hop := g.hop } ∧ g.hop.seq = p.hopNext
          ∧ hopSeqValid g.hop = true ∧ g.hop.ack = p.hopExpect ∧ hopCheck g.hop = g.hop.pchk
          ∧ (t.pl.port n.val).queue7 = rest ∧ (t.pl.port n.val).hopNext = p.hopNext + 1
          ∧ (t.pl.port n.val).replay = p.replay ++ [{ seq := p.hopNext, frame := sent, sentAt := s.ctl.ns }]
          ∧ (t.pl.port n.val).busyTill = s.ctl.ns + (wireLen f + 199) / 200 ∧ (t.pl.port n.val).ackAt = s.ctl.ns
          ∧ t.pl.mem = s.pl.mem ∧ t.pl.rings = s.pl.rings)
      ∧ (∀ f rest, takeFirst (may7 s.ctl n.val p) p.queue7 = some (f, rest) → p.group = true →
          f.etype = s.ctl.etypeLink n.val → getByte f.body 0 = 1 → p.ackHolds = [] → ∃ t g, exec (.portFrameStart n) s = .next t
          ∧ t.ctl = s.ctl ∧ t.pl.wire = (n.val, g) :: s.pl.wire ∧ g = { f with hop := g.hop } ∧ hopSeqValid g.hop = false
          ∧ hopAckValid g.hop = true ∧ hopNak g.hop = p.nakDue ∧ g.hop.ack = p.hopExpect
          ∧ (t.pl.port n.val).replay = p.replay ∧ (t.pl.port n.val).hopNext = p.hopNext ∧ (t.pl.port n.val).queue7 = rest)
      ∧ (∀ f rest, takeFirst (may7 s.ctl n.val p) p.queue7 = some (f, rest) → p.group = false → p.ackHolds = [] →
          ∃ t, exec (.portFrameStart n) s = .next t ∧ t.pl.wire = (n.val, f) :: s.pl.wire ∧ (t.pl.port n.val).queue7 = rest
          ∧ (t.pl.port n.val).busyTill = s.ctl.ns + (wireLen f + 199) / 200)
      ∧ (∀ seq f rest, takeFirst (may7 s.ctl n.val p) p.queue7 = none → p.toReplay = (seq, f) :: rest →
          let tc := (parsePkt f.body).tc
          (s.ctl.maySpeak = true → mayCarry p f = true → tc = 7 ∨ gateFits s.ctl n.val tc (wireLen f) = true → ∃ t g,
            exec (.portFrameStart n) s = .next t ∧ t.ctl = s.ctl
            ∧ t.pl.wire = (n.val, g) :: s.pl.wire ∧ g = { f with hop := g.hop } ∧ g.hop.seq = seq ∧ hopSeqValid g.hop = true
            ∧ hopAckValid g.hop = true ∧ g.hop.flags.getLsbD 3 = true ∧ g.hop.ack = p.hopExpect ∧ hopCheck g.hop = g.hop.pchk
            ∧ (t.pl.port n.val).toReplay = rest ∧ (t.pl.port n.val).replay.map (·.frame) = p.replay.map (·.frame)
            ∧ (t.pl.port n.val).busyTill = s.ctl.ns + (wireLen f + 199) / 200
            ∧ (∀ m, m ≠ n.val → t.pl.port m = s.pl.port m)
            ∧ t.pl = { s.pl with ports := t.pl.ports, regs := t.pl.regs, wire := t.pl.wire })
          ∧ (s.ctl.maySpeak = false ∨ mayCarry p f = false ∨ (tc ≠ 7 ∧ gateFits s.ctl n.val tc (wireLen f) = false) → ∃ t,
            exec (.portFrameStart n) s = .next t ∧ t.ctl = s.ctl ∧ t.pl = { s.pl with regs := t.pl.regs }))
      ∧ (takeFirst (may7 s.ctl n.val p) p.queue7 = none → p.toReplay = [] →
          p.link = .paused ∨ p.showDataOk = false ∨ s.ctl.maySpeak = false ∨ (p.group = true ∧ 256 ≤ p.replay.length) → ∃ t,
          exec (.portFrameStart n) s = .next t ∧ t.ctl = s.ctl ∧ t.pl = { s.pl with regs := t.pl.regs }
          ∧ (p.group = true → 256 ≤ p.replay.length → flag (t.pl.reg (0x1000008 + n.val * 0x10000)) 9 = true))
      ∧ (∀ h, p.link = .up → s.ctl.maySpeak = true → p.toReplay = [] → p.queue7 = [] → p.showDataOk = true →
          p.replay.length < 256 → 2 ^ 23 ≤ h.flow →
          (p.group = true → h.frame.etype ≠ s.ctl.etypeLink n.val) → (s.pl.flow h.flow).queue = [] → h.qp = none →
          (∀ c, c < 7 → c ≠ p.rr → headOf p c = none) → headOf p p.rr = some h →
          p.rr = h.cls → h.cls < 7 → s.ctl.gate n.val = none → shapeRate s.pl n.val h.cls = 0 →
          h.wire ≤ quantumOf s.pl n.val h.cls → ∃ t, exec (.portFrameStart n) s = .next t
          ∧ (∃ g rest, t.pl.wire = (n.val, g) :: rest ∧ g.body = h.frame.body ∧ rest = s.pl.wire)
          ∧ ((t.pl.port n.val).cls h.cls).virt = h.finish ∧ t.pl.mem = s.pl.mem ∧ t.pl.qps = s.pl.qps))

/-! ### Translation and rings -/

/-- R195, R196, R198 to R205: a walk that ends in a leaf is cached in the cache of the engine that made the access, never more leaves
than it has room for; one that faults joins the partition's open slot of the same page or
opens a free one, or sets the FULL bit when there is none; one whose read fails is a WALK_ERROR of the translation unit and takes
no slot. The event of a slot is written 250 ns after it opened; RETRY and FAIL free the slot, RETRY dropping the cached
leaves of its page from every cache, FAIL completing a waiting entry with TRANSLATION_FAULT; the time limit fails it. -/
def Obligations.TranslationFaultsTakeSlots : Prop :=
  (∀ (s : State) (x : Access), Quiet s → (s.pl.part x.part.val).state = .active → x.va.toNat < 2 ^ 57 →
    let p := x.part.val
    let page := x.va.toNat / 65536 * 65536
    (∀ l, walk s.ctl s.pl p x.va.toNat = .leaf l → accessCause l.pte (x.write || x.atomic) = none → ∃ t,
      exec (.translationWalkDone x true) s = .next t
      ∧ (∃ y ∈ t.pl.leaves (cacheOf x), y.part = p ∧ y.va = l.va ∧ y.size = l.size ∧ y.lo = l.lo ∧ y.hi = l.hi)
      ∧ (∀ y ∈ t.pl.leaves (cacheOf x), y ∈ s.pl.leaves (cacheOf x) ∨ (y.part = p ∧ y.va = l.va ∧ y.size = l.size))
      ∧ ((s.pl.leaves (cacheOf x)).length ≤ cacheRoom (cacheOf x) → (t.pl.leaves (cacheOf x)).length ≤ cacheRoom (cacheOf x))
      ∧ (∀ u, u ≠ cacheOf x → t.pl.leaves u = s.pl.leaves u ∧ t.pl.pointed u = s.pl.pointed u)
      ∧ t = { s with pl := { s.pl with cache := t.pl.cache, pointers := t.pl.pointers, seq := s.pl.seq + 1 } })
    ∧ (∀ k, walk s.ctl s.pl p x.va.toNat = .fault k → k ≠ .walkError → x.engine ≠ .receive →
        (∀ j, 16 * p ≤ j → j < 16 * p + 16 → (s.pl.slot j).isOpen = true → (s.pl.slot j).va ≠ page) →
        ((∃ j, 16 * p ≤ j ∧ j < 16 * p + 16 ∧ (s.pl.slot j).isOpen = false) → ∃ t j,
          exec (.translationWalkDone x true) s = .next t ∧ 16 * p ≤ j ∧ j < 16 * p + 16 ∧ (s.pl.slot j).isOpen = false
          ∧ (t.pl.slot j).isOpen = true ∧ (t.pl.slot j).part = p ∧ (t.pl.slot j).cause = k.num ∧ (t.pl.slot j).va = page
          ∧ (t.pl.slot j).openedAt = s.ctl.ns ∧ (t.pl.slot j).reported = false ∧ (t.pl.slot j).waiters = [.other]
          ∧ (∀ i, i ≠ j → t.pl.slot i = s.pl.slot i) ∧ t = { s with pl := { s.pl with faults := t.pl.faults } })
        ∧ ((∀ j, 16 * p ≤ j → j < 16 * p + 16 → (s.pl.slot j).isOpen = true) → ∃ t,
          exec (.translationWalkDone x true) s = .next t ∧ flag (t.pl.reg 0x200010) p = true ∧ t.pl.faults = s.pl.faults
          ∧ (∀ a, a ≠ 0x200010 → t.pl.reg a = s.pl.reg a) ∧ t.ctl = s.ctl))
    ∧ (∃ t e, exec (.translationWalkDone x false) s = .next t ∧ t.pl = s.pl ∧ t.ctl.flt.hist = (e :: s.ctl.flt.hist).take 32
        ∧ e.source = 0x280 ∧ e.cause = 0x03 ∧ t.ctl.dev = s.ctl.dev))
  ∧ (∀ (s : State) (k : SlotId), Quiet s →
    let x := s.pl.slot k.val
    (x.isOpen = true → x.reported = false → x.cause ≠ 6 → x.openedAt + 250 ≤ s.ctl.ns → ∃ t,
      exec (.faultEventTimer k) s = .next t ∧ t.pl.slot k.val = { x with reported := true } ∧ t.ctl = s.ctl
      ∧ (∀ j, j ≠ k.val → t.pl.slot j = s.pl.slot j)
      ∧ (t.pl.event x.part).seq = (if (s.pl.eventRing x.part).isSome then (s.pl.event x.part).seq + 1 else (s.pl.event x.part).seq)
      ∧ t.pl.qps = s.pl.qps ∧ t.pl.rings = s.pl.rings ∧ t.pl.cache = s.pl.cache)
    ∧ (x.isOpen = false ∨ x.reported = true ∨ s.ctl.ns < x.openedAt + 250 → exec (.faultEventTimer k) s = .next s)
    ∧ (∀ g : Agent, Accepted s g 0x20000C → x.isOpen = true → (∀ w ∈ x.waiters, w = .other) → s.pl.slotless = [] →
      SMap.wf [] s.pl.cache = true →
      (∃ t, exec (.faultRetry (.bar g) k) s = .next t ∧ t.pl.slot k.val = {} ∧ (∀ j, j ≠ k.val → t.pl.slot j = s.pl.slot j)
        ∧ (∀ u y, y ∈ t.pl.leaves u ↔
            y ∈ s.pl.leaves u ∧ ¬ (y.part = x.part ∧ y.va < x.va + 65536 ∧ x.va < y.va + y.size))
        ∧ t = { s with pl := { s.pl with faults := t.pl.faults, cache := t.pl.cache } })
      ∧ (∃ t, exec (.faultFail (.bar g) k) s = .next t ∧ t.pl.slot k.val = {} ∧ (∀ j, j ≠ k.val → t.pl.slot j = s.pl.slot j)
        ∧ t = { s with pl := { s.pl with faults := t.pl.faults } }))
    ∧ (∀ v : VfId, vfWrites s.ctl s.pl v = true → k.val / 16 ≠ (s.pl.vf v.val).part →
        exec (.faultRetry (.vf v) k) s = .next s ∧ exec (.faultFail (.vf v) k) s = .next s)
    ∧ (∀ (g : Agent) (r : Nat) (i : BitVec 16) (e : Fetched), Accepted s g 0x20000C → x.isOpen = true → x.waiters = [.entry r i] →
        s.pl.slotless = [] → s.pl.entry r i = some e → e.opcode = 0x19 → e.timed = false → e.lost = false →
        e.phase = .faulted → CompRing s r → ∃ t,
        exec (.faultFail (.bar g) k) s = .next t ∧ t.ctl = s.ctl ∧ t.pl.slot k.val = {}
        ∧ Completes s t r e 11 0 (min e.bytes 0xFFFFFFFF) 0 ∧ t.pl.mem = s.pl.mem)
    ∧ (x.isOpen = true → 0 < bits (s.pl.reg 0x200008) 13 0 →
        bits (s.pl.reg 0x200008) 13 0 * 1000000 ≤ s.ctl.ns - x.openedAt → (∀ w ∈ x.waiters, w = .other) → s.pl.slotless = [] → ∃ t,
        exec (.faultSlotTimeout k) s = .next t ∧ t.pl.slot k.val = {} ∧ (∀ j, j ≠ k.val → t.pl.slot j = s.pl.slot j)
        ∧ t = { s with pl := { s.pl with faults := t.pl.faults } })
    ∧ (bits (s.pl.reg 0x200008) 13 0 = 0 ∨ s.ctl.ns - x.openedAt < bits (s.pl.reg 0x200008) 13 0 * 1000000 →
        exec (.faultSlotTimeout k) s = .next s))

/-- R234 to R237, R251: a doorbell write of 32 bits reaches the ring of its page. A work ring takes the new PRODUCER, or goes to
ERROR with cause 9 when the span exceeds its size; a completion ring takes the new CONSUMER, or latches BAD_CONSUMER; bit 16
arms its interrupt. A write of another size or at another offset does nothing, and every read returns zero. -/
def Obligations.DoorbellsMoveTheIndices : Prop :=
  ∀ (s : State) (f : Func) (page : RingId) (k : Nat), Quiet s → s.ctl.vfUp = true → doorbellRing s.pl f page.val = some k →
    ringHeldUp s.ctl s.pl k = false →
    (∀ (v : Word),
      let r := s.pl.ring k
      let w : BitVec 16 := v.setWidth 16
      (r.state = .disabled → exec (.workDoorbell f ⟨page, 0⟩ 4 (some v)) s = .next s)
      ∧ (r.state = .enabled → w ≠ r.producer → (w - r.consumer).toNat ≤ 2 ^ bits (s.pl.reg (0x2000008 + k * 0x40)) 3 0 → ∃ t,
          exec (.workDoorbell f ⟨page, 0⟩ 4 (some v)) s = .next t ∧ t.ctl = s.ctl
          ∧ t.pl.ring k = { r with producer := w, lowArmed := (t.pl.ring k).lowArmed }
          ∧ (∀ j, j ≠ k → t.pl.ring j = s.pl.ring j) ∧ t.pl.qps = s.pl.qps ∧ t.pl.regs = s.pl.regs)
      ∧ (r.state = .enabled → w ≠ r.producer → 2 ^ bits (s.pl.reg (0x2000008 + k * 0x40)) 3 0 < (w - r.consumer).toNat → ∃ t,
          exec (.workDoorbell f ⟨page, 0⟩ 4 (some v)) s = .next t ∧ t.ctl = s.ctl
          ∧ t.pl.ring k = { r with state := .error, stall := false, errIndex := w, errCause := 9, errOffset := 0xFF }
          ∧ (∀ j, j ≠ k → t.pl.ring j = s.pl.ring j)
          ∧ (t.pl.event (s.pl.wrgPart k)).seq = (if (s.pl.eventRing (s.pl.wrgPart k)).isSome then
              (s.pl.event (s.pl.wrgPart k)).seq + 1 else (s.pl.event (s.pl.wrgPart k)).seq))
      ∧ (r.state = .error → ∃ t, exec (.workDoorbell f ⟨page, 0⟩ 4 (some v)) s = .next t ∧ t.pl.ring k = { r with producer := w }
          ∧ (∀ j, j ≠ k → t.pl.ring j = s.pl.ring j) ∧ t = { s with pl := { s.pl with rings := t.pl.rings } }))
    ∧ (∀ (v : Word),
      let q := s.pl.cq k
      let w : BitVec 16 := v.setWidth 16
      (q.enabled = false → exec (.cqDoorbell f ⟨page, 8⟩ 4 (some v)) s = .next s)
      ∧ (q.enabled = true → 2 ^ bits (s.pl.reg (0x2080008 + k * 0x40)) 3 0 < (q.write - w).toNat → ∃ t,
          exec (.cqDoorbell f ⟨page, 8⟩ 4 (some v)) s = .next t ∧ t.pl.cq k = { q with badConsumer := true }
          ∧ (∀ j, j ≠ k → t.pl.cq j = s.pl.cq j) ∧ t = { s with pl := { s.pl with cqs := t.pl.cqs } })
      ∧ (q.enabled = true → (q.write - w).toNat ≤ 2 ^ bits (s.pl.reg (0x2080008 + k * 0x40)) 3 0 →
          flag (s.pl.reg (0x2080008 + k * 0x40)) 5 = false → ∃ t, exec (.cqDoorbell f ⟨page, 8⟩ 4 (some v)) s = .next t
          ∧ (t.pl.cq k).consumer = w ∧ (t.pl.cq k).write = q.write ∧ (t.pl.cq k).pending = q.pending
          ∧ (v.getLsbD 16 = false → (t.pl.cq k).armed = q.armed ∧ t.pl.msix = s.pl.msix)
          ∧ (v.getLsbD 16 = true → bits (s.pl.reg (0x2080008 + k * 0x40)) 18 17 = 1 →
              if q.write = w then (t.pl.cq k).armed = true ∧ t.pl.msix = s.pl.msix
              else (t.pl.cq k).armed = false
                ∧ t.pl.msix = (s.pl.holder k, bits (s.pl.reg (0x2080008 + k * 0x40)) 16 11) :: s.pl.msix)
          ∧ (∀ j, j ≠ k → t.pl.cq j = s.pl.cq j)
          ∧ t = { s with pl := { s.pl with cqs := t.pl.cqs, msix := t.pl.msix } }))
    ∧ (∀ (o : Fin 4096) (n : Nat) (v : Word), (n ≠ 4 ∨ o ≠ 0 → exec (.workDoorbell f ⟨page, o⟩ n (some v)) s = .next s)
      ∧ (n ≠ 4 ∨ o ≠ 8 → exec (.cqDoorbell f ⟨page, o⟩ n (some v)) s = .next s))
    ∧ (∀ (o : Fin 4096) (n : Nat),
      let t := { s with pl := { s.pl with bus := { wide := List.replicate n 0 } } }
      exec (.workDoorbell f ⟨page, o⟩ n none) s = .next t ∧ exec (.cqDoorbell f ⟨page, o⟩ n none) s = .next t)

/-- R230 to R232, R237, R238, R509: ENABLE of a ring context is accepted, its indices 0, or refused with CONFIG_ERR; a virtual function's
ring takes the partition of its function; SHUTDOWN of a work ring completes what has issued nothing ABORTED, that of a receive
ring gives up its unused descriptors, and either ends in DISABLED once nothing is left; DISABLE of a completion ring is refused while a work ring bound to it is not DISABLED. -/
def Obligations.RingsAreEnabledAndShutDown : Prop :=
  (∀ (s : State) (g : Agent) (k : RingId), Quiet s → Accepted s g (0x2000010 + k.val * 0x40) →
    ringHeldUp s.ctl s.pl k.val = false →
    let r := s.pl.ring k.val
    (r.state = .disabled → ∃ t, exec (.wrgEnable (.bar g) k) s = .next t
      ∧ t.pl.ring k.val = (if wrgEnableOk s.ctl s.pl k.val then { state := .enabled } else { r with cfgErr := true })
      ∧ (∀ j, j ≠ k.val → t.pl.ring j = s.pl.ring j) ∧ t = { s with pl := { s.pl with rings := t.pl.rings } })
    ∧ (r.state ≠ .disabled → exec (.wrgEnable (.bar g) k) s = .next s)
    ∧ (r.state = .disabled ∨ r.state = .stopping → exec (.wrgShutdown (.bar g) k) s = .next s)
    ∧ (r.state = .enabled ∨ r.state = .error → s.pl.wrgKind k.val = true → r.fetched = [] → ∃ t,
        exec (.wrgShutdown (.bar g) k) s = .next t ∧ (t.pl.ring k.val).descs = [] ∧ (t.pl.ring k.val).consumer = r.consumer
        ∧ ((t.pl.ring k.val).state = if heldDescs s.pl k.val = 0 ∧ r.consumer = r.producer then .disabled else .stopping)
        ∧ (∀ j, j ≠ k.val → t.pl.ring j = s.pl.ring j) ∧ t.pl.qps = s.pl.qps)
    ∧ (r.state = .enabled ∨ r.state = .error → CompRing s k.val → s.pl.wrgKind k.val = false → r.descs = [] →
        heldDescs s.pl k.val = 0 → (r.fetched.map (·.index)).Nodup →
        (∀ e ∈ r.fetched, e.phase = .fetched ∧ e.timed = false ∧ e.lost = false) → ∃ t, exec (.wrgShutdown (.bar g) k) s = .next t
      ∧ t.ctl = s.ctl ∧ (t.pl.ring k.val).fetched = []
      ∧ (t.pl.ring k.val).state = (if r.consumer = r.producer then .disabled else .stopping)
      ∧ (t.pl.cq (s.pl.wrgCq k.val)).write = (s.pl.cq (s.pl.wrgCq k.val)).write + BitVec.ofNat 16 r.fetched.length
      ∧ (∀ j, j ≠ k.val → t.pl.ring j = s.pl.ring j) ∧ t.pl.mem = s.pl.mem ∧ t.pl.qps = s.pl.qps))
  ∧ (∀ (s : State) (g : Agent) (x : RingId), Quiet s → Accepted s g (0x2080010 + x.val * 0x40) →
    ringHeldUp s.ctl s.pl x.val = false →
    let q := s.pl.cq x.val
    (q.enabled = false → ∃ t, exec (.cmpEnable (.bar g) x) s = .next t
      ∧ t.pl.cq x.val = (if cmpEnableOk s.ctl s.pl x.val then { enabled := true } else { q with cfgErr := true })
      ∧ (∀ j, j ≠ x.val → t.pl.cq j = s.pl.cq j) ∧ t = { s with pl := { s.pl with cqs := t.pl.cqs } })
    ∧ (q.enabled = true → exec (.cmpEnable (.bar g) x) s = .next s)
    ∧ (q.enabled = false → exec (.cmpDisable (.bar g) x) s = .next s)
    ∧ (q.enabled = true → ∃ t, exec (.cmpDisable (.bar g) x) s = .next t
      ∧ t.pl.cq x.val = (if (∃ r ∈ s.pl.rings, r.2.state ≠ .disabled ∧ bits (s.pl.reg (0x2000008 + r.1 * 0x40)) 22 10 = x.val)
          then { q with refused := true } else { q with enabled := false, armed := false, pending := 0 })
      ∧ ((t.pl.cq x.val).enabled = false → s.pl.cmpKind x.val = true → (t.pl.event (s.pl.cmpPart x.val)).held = [])
      ∧ (∀ y, (t.pl.event y).seq = (s.pl.event y).seq)
      ∧ (∀ j, j ≠ x.val → t.pl.cq j = s.pl.cq j)
      ∧ t = { s with pl := { s.pl with cqs := t.pl.cqs, events := t.pl.events } }))
  ∧ (∀ (s : State) (v : VfId) (k : RingId), Quiet s → vfWrites s.ctl s.pl v = true → s.pl.holder k.val = 1 + v.val →
    ringHeldUp s.ctl s.pl k.val = false → (s.pl.ring k.val).state = .disabled → (s.pl.vf v.val).part < 32 → ∃ t,
    exec (.wrgEnable (.vf v) k) s = .next t ∧ t.pl.wrgPart k.val = (s.pl.vf v.val).part
    ∧ ((t.pl.ring k.val).state = .enabled ∨ (t.pl.ring k.val).cfgErr = true)
    ∧ (∀ j, j ≠ k.val → t.pl.ring j = s.pl.ring j) ∧ (∀ a, a ≠ 0x2000008 + k.val * 0x40 → t.pl.reg a = s.pl.reg a))

/-- R227, R241, R243, R249, R252: an entry that PRODUCER covers is fetched once a completion slot is reserved; a legal one waits to be started, a
malformed one completes MALFORMED and puts the ring in ERROR with its cause and offset, a NOP is done at once; without a
slot the ring stalls. A receive ring fetches the next descriptor the same way, and a failed read puts a ring in ERROR. -/
def Obligations.EntriesAreFetchedAndChecked : Prop :=
  ∀ (s : State) (k : RingId), Quiet s → s.ctl.serving = true → s.ctl.lat.quiescing = false → CompRing s k.val →
    s.pl.hostBad = [] → s.pl.ringLoc (Reg.wrg k.val 0) = false → (s.pl.ring k.val).state = .enabled →
    let r := s.pl.ring k.val
    let cq := s.pl.wrgCq k.val
    let at_ := s.pl.ringBase (Reg.wrg k.val 0) + r.consumer.toNat % s.pl.wrgSize k.val * 32
    let e (raw : List Byte) : Fetched := { index := r.consumer, raw := raw }
    (s.pl.wrgKind k.val = false → 0 < s.pl.cqFree cq → ∀ raw, raw = Mem.readN s.pl.host at_ (32 * (getByte raw 1 % 8 + 1)) →
      r.consumer.toNat % s.pl.wrgSize k.val + (getByte raw 1 % 8 + 1) ≤ s.pl.wrgSize k.val →
      getByte raw 1 % 8 + 1 ≤ (r.producer - r.consumer).toNat →
      let units := getByte raw 1 % 8 + 1
      (entryBad s.ctl s.pl (s.pl.wrgPart k.val) raw = none → getByte raw 0 ≠ 0 → getByte raw 0 ≠ 0x20 → ∃ t,
        exec (.workEntryFetch k true) s = .next t ∧ t.ctl = s.ctl
        ∧ t.pl.ring k.val = { r with
            stall := false, consumer := r.consumer + BitVec.ofNat 16 units, fetched := r.fetched ++ [e raw] }
        ∧ t.pl.cq cq = { s.pl.cq cq with pending := (s.pl.cq cq).pending + 1 }
        ∧ (∀ j, j ≠ k.val → t.pl.ring j = s.pl.ring j) ∧ t = { s with pl := { s.pl with rings := t.pl.rings, cqs := t.pl.cqs } })
      ∧ (∀ c o n, entryBad s.ctl s.pl (s.pl.wrgPart k.val) raw = some (c, o, n) → ∃ t,
        exec (.workEntryFetch k true) s = .next t ∧ t.ctl = s.ctl
        ∧ (t.pl.ring k.val).state = .error ∧ (t.pl.ring k.val).errIndex = r.consumer ∧ (t.pl.ring k.val).errCause = c
        ∧ (t.pl.ring k.val).errOffset = o ∧ (t.pl.ring k.val).fetched = r.fetched
        ∧ (t.pl.ring k.val).consumer = r.consumer + BitVec.ofNat 16 units
        ∧ (s.pl.eventRing (s.pl.wrgPart k.val) ≠ some cq → (t.pl.cq cq).write = (s.pl.cq cq).write + 1))
      ∧ (entryBad s.ctl s.pl (s.pl.wrgPart k.val) raw = none → getByte raw 0 = 0 → ∃ t, exec (.nop k) s = .next t
        ∧ (t.pl.ring k.val).consumer = r.consumer + BitVec.ofNat 16 units ∧ (t.pl.ring k.val).fetched = r.fetched
        ∧ t.pl.cq cq = s.pl.cq cq ∧ exec (.workEntryFetch k true) s = .next t
        ∧ (∀ j, j ≠ k.val → t.pl.ring j = s.pl.ring j) ∧ t = { s with pl := { s.pl with rings := t.pl.rings, cqs := t.pl.cqs } }))
    ∧ (s.pl.wrgKind k.val = false → 0 < s.pl.cqFree cq → r.consumer ≠ r.producer → ∃ t, exec (.workEntryFetch k false) s = .next t
        ∧ (t.pl.ring k.val).state = .error ∧ (t.pl.ring k.val).errCause = 0x0A ∧ (t.pl.ring k.val).consumer = r.consumer
        ∧ t.ctl = s.ctl)
    ∧ (s.pl.wrgKind k.val = true → 0 < s.pl.cqFree cq → r.consumer ≠ r.producer → r.descs.length < 64 →
        let b := Mem.readN s.pl.host at_ 32
        (descOk b = true → ∃ t, exec (.descriptorFetch k true) s = .next t
          ∧ t.pl.ring k.val = { r with stall := false, consumer := r.consumer + 1, descs := r.descs ++
              [{ index := r.consumer, tag := BitVec.ofNat 16 (getLe b 0 2), va := getLe b 8 8, len := getLe b 16 4 }] }
          ∧ t.pl.cq cq = { s.pl.cq cq with pending := (s.pl.cq cq).pending + 1 }
          ∧ (∀ j, j ≠ k.val → t.pl.ring j = s.pl.ring j) ∧ t = { s with pl := { s.pl with rings := t.pl.rings, cqs := t.pl.cqs } })
        ∧ (descOk b = false → ∃ t, exec (.descriptorFetch k true) s = .next t ∧ (t.pl.ring k.val).state = .error
          ∧ (t.pl.ring k.val).errCause = 0x0B ∧ (t.pl.ring k.val).errIndex = r.consumer ∧ t.ctl = s.ctl))
    ∧ (s.pl.cqFree cq = 0 → r.consumer ≠ r.producer → s.pl.wrgKind k.val = true → r.descs.length < 64 → ∃ t,
        exec (.descriptorFetch k true) s = .next t ∧ t.pl.ring k.val = { r with stall := true }
        ∧ (∀ j, j ≠ k.val → t.pl.ring j = s.pl.ring j) ∧ t = { s with pl := { s.pl with rings := t.pl.rings } })

/-! ### Work entries -/

/-- R189, R242, R244, R285, R286, R293, R296, R299, R309: an entry for a queue pair uses its context; it completes ABORTED when the context
is in FREE, INIT or ERROR or is being destroyed, waits while it is CONNECTING or not resident, which has it fetched, completes VERSION_MISMATCH without the capability, LOCAL_ACCESS when its local range runs
past the 57-bit space, and else joins the messages of the queue pair with the next PSNs: one message of the entry's bytes, one
operand for an atomic, or for a READ requests of at most WINDOW × P bytes each. -/
def Obligations.QueuePairEntriesStart : Prop :=
  ∀ (s : State) (k : RingId) (i : BitVec 16) (e : Fetched), Quiet s → Startable s k.val i e →
  ∀ x ∈ [((1 : Nat), (none : Option Nat), Instr.write k i), (2, some 2, .writeNotify k i), (3, some 3, .read k i),
      (4, some 4, .send k i), (5, some 1, .atomicAdd k i), (6, some 1, .atomicCas k i)], e.opcode = x.1 →
  let q := s.pl.qp e.qp
  let len := getLe e.raw 12 4
  let va := getLe e.raw 16 8
  let runs (t : State) : Prop := t.pl.entry k.val i = some { e with phase := .running } ∧ ∀ j, j ≠ k.val → t.pl.ring j = s.pl.ring j
  let used (t : State) : Prop :=
    ∀ j, t.pl.qp j = if j = e.qp ∧ q.resident = true then { q with usedAt := s.ctl.ns } else s.pl.qp j
  let fits := x.1 ≤ 4 → e.inline = true ∨ va + len ≤ 2 ^ 57
  (q.state ≠ .ready → q.state ≠ .connecting → CompRing s k.val → ∃ t, exec x.2.2 s = .next t ∧ t.ctl = s.ctl
    ∧ Completes s t k.val e 1 0 0 0 ∧ used t ∧ t.pl.mem = s.pl.mem)
  ∧ (q.state = .ready → e.qp ∈ s.pl.xpt.destroying → CompRing s k.val → ∃ t, exec x.2.2 s = .next t ∧ t.ctl = s.ctl
    ∧ Completes s t k.val e 1 0 0 0 ∧ used t ∧ t.pl.mem = s.pl.mem)
  ∧ (q.state = .connecting → ∃ t, exec x.2.2 s = .next t ∧ runs t ∧ used t
    ∧ t = { s with pl := { s.pl with rings := t.pl.rings, qps := t.pl.qps, xpt := t.pl.xpt } })
  ∧ (q.state = .ready → e.qp ∉ s.pl.xpt.destroying → q.resident = false → ∃ t, exec x.2.2 s = .next t ∧ runs t
    ∧ e.qp ∈ t.pl.xpt.fetching ∧ t = { s with pl := { s.pl with rings := t.pl.rings, xpt := t.pl.xpt } })
  ∧ (q.state = .ready → e.qp ∉ s.pl.xpt.destroying → q.resident = true → (∃ b, x.2.1 = some b ∧ q.caps.getLsbD b = false) → CompRing s k.val → ∃ t,
    exec x.2.2 s = .next t ∧ t.ctl = s.ctl ∧ Completes s t k.val e 13 0 0 0 ∧ used t ∧ t.pl.mem = s.pl.mem)
  ∧ (q.state = .ready → e.qp ∉ s.pl.xpt.destroying → q.resident = true → (∀ b, x.2.1 = some b → q.caps.getLsbD b = true) → ¬ fits → CompRing s k.val → ∃ t,
    exec x.2.2 s = .next t ∧ t.ctl = s.ctl ∧ Completes s t k.val e 3 0 0 0 ∧ used t ∧ t.pl.mem = s.pl.mem)
  ∧ (q.state = .ready → e.qp ∉ s.pl.xpt.destroying → q.resident = true → (∀ b, x.2.1 = some b → q.caps.getLsbD b = true) → fits → ∃ t ms,
    exec x.2.2 s = .next t ∧ t.ctl = s.ctl ∧ runs t
    ∧ t.pl.qp e.qp = { q with usedAt := s.ctl.ns, msgs := q.msgs ++ ms, tailPsn := q.tailPsn + BitVec.ofNat 32 (ms.map (·.count)).sum }
    ∧ (∀ j, j ≠ e.qp → t.pl.qp j = s.pl.qp j) ∧ t.pl.mem = s.pl.mem ∧ t.pl.host = s.pl.host ∧ t.pl.cqs = s.pl.cqs
    ∧ (∀ m ∈ ms, m.ring = k.val ∧ m.index = i)
    ∧ (x.1 = 1 ∨ x.1 = 2 ∨ x.1 = 4 → s.ctl.boundVein 1 e.qp = none → ∃ m, ms = [m] ∧ m.first = q.tailPsn ∧ m.len = len
        ∧ m.va = va ∧ m.count = max 1 (ceilDiv len q.payload) ∧ m.inline = (if e.inline then some (slice e.raw 64 len) else none)
        ∧ m.ptype = (if x.1 = 4 then 5 else x.1) ∧ (x.1 ≠ 4 → m.handle = BitVec.ofNat 32 (getLe e.raw 24 4) ∧ m.remote = getLe e.raw 32 8))
    ∧ (x.1 = 3 → 0 < q.window * q.payload → (ms.map (·.len)).sum = len ∧ ∀ m ∈ ms, m.ptype = 3
        ∧ 1 ≤ m.len ∧ m.len ≤ q.window * q.payload ∧ m.count = max 1 (ceilDiv m.len q.payload))
    ∧ (5 ≤ x.1 → ∃ m, ms = [m] ∧ m.ptype = 6 ∧ m.first = q.tailPsn ∧ m.count = 1 ∧ m.cas = (x.1 == 6) ∧ m.wide = (getByte e.raw 12 == 1)
        ∧ m.remote = getLe e.raw 32 8 ∧ m.opA = BitVec.ofNat 64 (getLe e.raw 40 8) ∧ m.opB = BitVec.ofNat 64 (getLe e.raw 48 8)))

/-- R189, R212 to R215: WINDOW_OPEN of a CLOSED index of the partition's range opens it with the entry's fields and completes OK with the
handle (index in bits 19:0, generation in bits 31:20), else LOCAL_ACCESS; WINDOW_REVOKE of an open window with this generation closes it,
its generation advancing by one, at once when nothing is in flight and else when the last accepted access has finished, and
completes then; a stale or foreign handle is LOCAL_ACCESS. No other window changes. -/
def Obligations.WindowsOpenAndClose : Prop :=
  (∀ (s : State) (k : RingId) (i : BitVec 16) (e : Fetched), Quiet s → Startable s k.val i e → CompRing s k.val → e.nocomp = false →
    let p := s.pl.wrgPart k.val
    let r := (s.pl.part p).wins
    (e.opcode = 0x10 →
      let n := getLe e.raw 8 4 % 2 ^ 20
      let w := s.pl.win n
      let base := getLe e.raw 16 8
      let len := getLe e.raw 24 8
      (r.base * 1024 ≤ n ∧ n < (r.base + r.count) * 1024 ∧ w.state = .closed ∧ base + len ≤ 2 ^ 57 → ∃ t,
        exec (.windowOpen k i) s = .next t ∧ t.ctl = s.ctl
        ∧ Completes s t k.val e 0 (BitVec.ofNat 64 (n + w.gen.toNat * 2 ^ 20)) 0 0
        ∧ t.pl.win n = { w with
            state := .isOpen, part := p, base := base, len := len, rights := getByte e.raw 12, scope := getByte e.raw 13
            peerNode := getLe e.raw 32 4, peerQp := getLe e.raw 36 4, inflight := 0, revoke := none }
        ∧ (∀ j, j ≠ n → t.pl.win j = s.pl.win j) ∧ t.pl.mem = s.pl.mem)
      ∧ (n < r.base * 1024 ∨ (r.base + r.count) * 1024 ≤ n ∨ w.state ≠ .closed ∨ 2 ^ 57 < base + len → ∃ t,
        exec (.windowOpen k i) s = .next t ∧ t.ctl = s.ctl ∧ Completes s t k.val e 3 0 0 0 ∧ t.pl.wins = s.pl.wins ∧ t.pl.mem = s.pl.mem))
    ∧ (e.opcode = 0x11 →
      let n := getLe e.raw 8 4 % 2 ^ 20
      let w := s.pl.win n
      let same := getLe e.raw 8 4 / 2 ^ 20 = w.gen.toNat ∧ w.state = .isOpen ∧ w.part = p
      (same → w.inflight = 0 → ∃ t, exec (.windowRevoke k i) s = .next t ∧ t.ctl = s.ctl ∧ Completes s t k.val e 0 0 0 0
        ∧ t.pl.win n = { w with state := .closed, gen := w.gen + 1 } ∧ (∀ j, j ≠ n → t.pl.win j = s.pl.win j) ∧ t.pl.mem = s.pl.mem)
      ∧ (same → w.inflight ≠ 0 → ∃ t, exec (.windowRevoke k i) s = .next t
        ∧ t.pl.win n = { w with state := .closing, revoke := some (k.val, i) } ∧ (∀ j, j ≠ n → t.pl.win j = s.pl.win j)
        ∧ t.pl.entry k.val i = some { e with phase := .running }
        ∧ t = { s with pl := { s.pl with rings := t.pl.rings, wins := t.pl.wins } })
      ∧ (¬ same → ∃ t, exec (.windowRevoke k i) s = .next t ∧ t.ctl = s.ctl ∧ Completes s t k.val e 3 0 0 0 ∧ t.pl.wins = s.pl.wins)))
  ∧ (∀ (s : State) (n : QpId), Quiet s →
    let w := s.pl.win n.val
    (w.state ≠ .closing ∨ w.inflight ≠ 0 → exec (.windowClosed n) s = .next s)
    ∧ (∀ (k : Nat) (i : BitVec 16) (e : Fetched), w.state = .closing → w.inflight = 0 → w.revoke = some (k, i) → s.pl.entry k i = some e →
        e.phase = .running → e.timed = false → e.lost = false → e.nocomp = false → CompRing s k → ∃ t, exec (.windowClosed n) s = .next t ∧ t.ctl = s.ctl
        ∧ t.pl.win n.val = { w with state := .closed, gen := w.gen + 1, revoke := none } ∧ (∀ j, j ≠ n.val → t.pl.win j = s.pl.win j)
        ∧ Completes s t k e 0 0 0 0 ∧ t.pl.mem = s.pl.mem))

/-- R189, R195, R206, R207, R209 to R211: INVALIDATE drops the cached leaves and pointer entries of its range or partition from every cache and
completes once the transfers issued with them have drained; PREFETCH and EVICT set MOVING in the next leaf they may move and
drop its cached copies, or complete LOCAL_ACCESS, as does a range that runs past the 57-bit space; the end of a page's copy moves its bytes and the leaf, keeping the leaf's low bits but MOVING, and completes with
the last page; WARM loads the leaf of a range into the cache of every slice. -/
def Obligations.PagesMoveAndTranslationsDrop : Prop :=
  ∀ (s : State) (k : RingId) (i : BitVec 16) (e : Fetched), Quiet s → e.timed = false → e.nocomp = false → e.lost = false →
    SMap.wf [] s.pl.cache = true → SMap.wf [] s.pl.pointers = true →
    let p := s.pl.wrgPart k.val
    let va := getLe e.raw 16 8
    let len := getLe e.raw 24 8
    let at_ := va + e.progress
    let runs (t : State) : Prop := t.pl.entry k.val i = some { e with phase := .running }
    let rest (t : State) : Prop := t.ctl = s.ctl ∧ t.pl.qps = s.pl.qps ∧ t.pl.wins = s.pl.wins ∧ ∀ j, j ≠ k.val → t.pl.ring j = s.pl.ring j
    let dropped (t : State) (a n : Nat) : Prop := ∀ u y, y ∈ t.pl.leaves u ↔ y ∈ s.pl.leaves u ∧ ¬ (y.part = p ∧ y.va < a + n ∧ a < y.va + y.size)
    (Startable s k.val i e → e.opcode = 0x18 →
      (getByte e.raw 8 = 0 → va + len ≤ 2 ^ 57 → ∃ t, exec (.invalidateRange k i) s = .next t ∧ rest t ∧ runs t ∧ dropped t va len
          ∧ t.pl.mem = s.pl.mem
          ∧ ∀ u y, y ∈ t.pl.pointed u ↔ y ∈ s.pl.pointed u ∧ ¬ (y.part = p ∧ y.va < va + len ∧ va < y.va + y.size))
      ∧ (getByte e.raw 8 = 0 → 2 ^ 57 < va + len → CompRing s k.val → ∃ t, exec (.invalidateRange k i) s = .next t ∧ rest t
          ∧ Completes s t k.val e 3 0 0 0 ∧ t.pl.cache = s.pl.cache)
      ∧ (getByte e.raw 8 = 1 → ∃ t, exec (.invalidatePartition k i) s = .next t ∧ rest t ∧ runs t ∧ t.pl.mem = s.pl.mem
          ∧ ∀ u y, (y ∈ t.pl.leaves u ↔ y ∈ s.pl.leaves u ∧ y.part ≠ p) ∧ (y ∈ t.pl.pointed u ↔ y ∈ s.pl.pointed u ∧ y.part ≠ p)))
    ∧ (s.pl.entry k.val i = some e → e.phase = .running → e.opcode = 0x18 → CompRing s k.val →
      ((∀ x ∈ s.pl.qps, x.2.part = p → x.2.places = [] ∧ x.2.resps = [] ∧ x.2.hostAtomics = []) →
          (∀ x ∈ s.pl.stg, ∀ y ∈ x.2.items, y.steered = none) →
          (∀ v ∈ s.ctl.job.veins, v.part = p → ∀ y ∈ (s.pl.vein v.vein).remote, y.ended ≠ none) → ∃ t, exec (.invalidateDrained k i) s = .next t ∧ rest t
          ∧ Completes s t k.val e 0 0 0 0 ∧ t.pl.cache = s.pl.cache)
      ∧ (getByte e.raw 8 = 0 → (∃ x ∈ s.pl.qps, x.2.part = p ∧ ∃ y ∈ x.2.places, y.va < va + len ∧ va < y.va + max 1 y.bytes.length) →
          exec (.invalidateDrained k i) s = .next s))
    ∧ (∀ x ∈ [((0x19 : Nat), (getByte e.raw 8), Instr.prefetch k i), (0x1A, 0, .evict k i)], Startable s k.val i e → e.opcode = x.1 →
      getByte e.raw 8 = x.2.1 → (2 ^ 57 < va + len → CompRing s k.val → ∃ t, exec x.2.2 s = .next t ∧ rest t
        ∧ Completes s t k.val e 3 0 0 0 ∧ t.pl.mem = s.pl.mem ∧ t.pl.cache = s.pl.cache)
      ∧ ∀ l, va + len ≤ 2 ^ 57 → walk s.ctl s.pl p at_ = .leaf l →
      (moveOk s.ctl p e l = true → l.pte.moving = false → ∀ a, leafEntry s.ctl s.pl p at_ = some a → ∃ t, exec x.2.2 s = .next t ∧ rest t ∧ runs t
          ∧ dropped t l.va l.size ∧ t.pl.pointers = s.pl.pointers
          ∧ t.pl.mem = (writeLocal s.ctl s.pl (ownerFn s.pl p) a (leBytes 8 (l.lo ||| 0x40).toNat)).mem)
      ∧ (moveOk s.ctl p e l = false → CompRing s k.val → ∃ t, exec x.2.2 s = .next t ∧ rest t
          ∧ Completes s t k.val e 3 0 (min e.bytes 0xFFFFFFFF) 0 ∧ t.pl.mem = s.pl.mem ∧ t.pl.cache = s.pl.cache))
    ∧ (Startable s k.val i e → e.opcode = 0x1A → getByte e.raw 8 = 1 → 65536 ≤ len → e.progress < len → va + len ≤ 2 ^ 57 → CompRing s k.val →
      ∀ l, walk s.ctl s.pl p at_ = .leaf l → len ≤ e.progress + (l.va + l.size - at_) → ∃ t, exec (.warm k i) s = .next t ∧ rest t
      ∧ Completes s t k.val e 0 0 0 0 ∧ t.pl.mem = s.pl.mem
      ∧ ∀ q, q < 4 → (∃ y ∈ t.pl.leaves q, y.part = p ∧ y.va = l.va ∧ y.size = l.size ∧ y.lo = l.lo)
        ∧ ((s.pl.leaves q).length < 8192 → ∀ y ∈ s.pl.leaves q, y ∈ t.pl.leaves q))
    ∧ (s.pl.entry k.val i = some e → e.opcode = 0x19 ∨ (e.opcode = 0x1A ∧ getByte e.raw 8 = 0) → e.phase = .running → ∀ l,
      walk s.ctl s.pl p at_ = .leaf l →
      (l.pte.moving = false → exec (.pageMoveDone k i) s = .next s)
      ∧ (∀ bs a, l.pte.moving = true → inFlight s.ctl s.pl p l.va l.size = false →
          (readLocal s.ctl s.pl (ownerFn s.pl p) l.pte.off l.size).1 = some bs → s.pl.faults = [] → s.pl.slotless = [] → CompRing s k.val → len ≤ e.progress + l.size →
          let d := writeLocal s.ctl s.pl (ownerFn s.pl p) (getLe e.raw 32 8 + e.progress) bs
          let lo : DWord := (BitVec.ofNat 64 (l.lo.toNat % 512) &&& ~~~0x40) ||| BitVec.ofNat 64 (l.pte.node * 2 ^ 44 + (getLe e.raw 32 8 + e.progress))
          leafEntry s.ctl d p at_ = some a → ∃ t, exec (.pageMoveDone k i) s = .next t ∧ rest t
          ∧ t.pl.mem = (writeLocal s.ctl d (ownerFn s.pl p) a (leBytes 8 lo.toNat)).mem ∧ dropped t l.va l.size
          ∧ Completes s t k.val e 0 0 (min (e.bytes + l.size) 0xFFFFFFFF) 0))

/-- R241, R387 to R392, R405, R406, R414, R459: an untimed COLLECTIVE entry joins its engine's queue as a collective that waits, with its rank
and PARAM_SIG; a VEIN_RUN joins the runs of a READY vein, or ends POISONED; a FENCE completes OK. A timed entry completes LATE at
its launch point within 2 µs (8,000 ticks) of its tick or beyond the longest lead, and else waits; it starts at its tick; a deadline that passes is
reported once. -/
def Obligations.CollectivesVeinsAndTimedEntriesStart : Prop :=
  ∀ (s : State) (k : RingId) (i : BitVec 16) (e : Fetched), Quiet s →
    let p := s.pl.wrgPart k.val
    let runs (t : State) : Prop := t.pl.entry k.val i = some { e with phase := .running } ∧ ∀ j, j ≠ k.val → t.pl.ring j = s.pl.ring j
    let same (t : State) : Prop := t.pl.mem = s.pl.mem ∧ t.pl.host = s.pl.host ∧ t.pl.qps = s.pl.qps ∧ t.pl.cqs = s.pl.cqs ∧ t.ctl = s.ctl
    let posted (t : State) (rank : Nat) (nodes : List Nat) : Prop := t.pl.col = { s.pl.col with colls := s.pl.col.colls ++
      [{ comm := getLe e.raw 8 2, ident := BitVec.ofNat 64 (getLe e.raw 40 8), ring := k.val, index := i, raw := e.raw, part := p
         engine := bits (s.pl.reg (Reg.colEngine p)) 1 0, rank := rank, nodes := nodes, sig := crc32c (slice e.raw 8 16 ++ slice e.raw 56 8) }] }
    (∀ x ∈ [((1 : Nat), Instr.allReduce k i), (2, .reduceScatter k i), (3, .allGather k i), (4, .broadcast k i), (5, .allToAll k i),
        (6, .dispatch k i), (7, .combine k i), (8, .barrier k i)],
      Startable s k.val i e → e.opcode = 0x20 → getByte e.raw 10 = x.1 →
      (∀ rank nodes, commOf s.ctl (getLe e.raw 8 2) p = some (rank, nodes) → ∃ t, exec x.2 s = .next t ∧ runs t ∧ same t ∧ posted t rank nodes)
      ∧ (commOf s.ctl (getLe e.raw 8 2) p = none → CompRing s k.val → ∃ t, exec x.2 s = .next t ∧ t.ctl = s.ctl
          ∧ Completes s t k.val e 10 (BitVec.ofNat 64 (getLe e.raw 40 4)) 0 0 ∧ t.pl.col = s.pl.col ∧ t.pl.mem = s.pl.mem))
    ∧ (Startable s k.val i e → e.opcode = 0x28 → ∀ v, v = getByte e.raw 8 →
      (∀ r, s.ctl.veinRec v = some r → (s.pl.vein v).state = .ready → ∃ d, exec (.veinRun k i) s = .next (settle { s with pl := d })
          ∧ d.entry k.val i = some { e with phase := .running } ∧ d.mem = s.pl.mem ∧ d.host = s.pl.host ∧ d.cqs = s.pl.cqs
          ∧ (d.vein v).runs.map (fun y => (y.ring, y.index, y.srcLen, y.dst, y.dstLen)) =
              (s.pl.vein v).runs.map (fun y => (y.ring, y.index, y.srcLen, y.dst, y.dstLen))
                ++ [(k.val, i, getLe e.raw 24 8, getLe e.raw 32 8, getLe e.raw 40 8)]
          ∧ (∀ j, j ≠ v → d.vein j = s.pl.vein j)
          ∧ (∀ y ys, (s.pl.vein v).runs = y :: ys → y.srcLen ≤ y.fed → d.stg = s.pl.stg ∧ d.effects = []))
      ∧ (s.ctl.veinRec v = none ∨ (s.pl.vein v).state ≠ .ready → CompRing s k.val → ∃ t, exec (.veinRun k i) s = .next t ∧ t.ctl = s.ctl
          ∧ Completes s t k.val e 8 0 0 8 ∧ t.pl.veins = s.pl.veins ∧ t.pl.mem = s.pl.mem))
    ∧ (Startable s k.val i e → e.opcode = 0x30 → CompRing s k.val → ∃ t, exec (.fence k i) s = .next t ∧ t.ctl = s.ctl ∧ t.pl.mem = s.pl.mem
      ∧ (e.nocomp = false → Completes s t k.val e 0 0 0 0)
      ∧ (e.nocomp = true → (t.pl.cq (s.pl.wrgCq k.val)).write = (s.pl.cq (s.pl.wrgCq k.val)).write
          ∧ (t.pl.cq (s.pl.wrgCq k.val)).pending = (s.pl.cq (s.pl.wrgCq k.val)).pending - 1
          ∧ (t.pl.ring k.val).fetched = (s.pl.ring k.val).fetched.filter (·.index != i)))
    ∧ (s.pl.entry k.val i = some e → e.timed = true → e.lost = false → e.phase = .fetched → canStart (s.pl.ring k.val) e = true →
      behindQp (s.pl.ring k.val) e = false → ((1 ≤ e.opcode ∧ e.opcode ≤ 6) → (s.pl.qp e.qp).state = .ready) →
      let lead : Int := (e.launch : Int) - s.ctl.lod.tick.toNat
      let most : Int := bits (s.pl.reg Reg.lodCfg) 31 16 * 4000000
      (8000 ≤ lead → lead ≤ most → ∃ t, exec (.timedLaunchPoint k i) s = .next t ∧ t.pl.entry k.val i = some { e with phase := .timed }
          ∧ (∀ j, j ≠ k.val → t.pl.ring j = s.pl.ring j) ∧ t = { s with pl := { s.pl with rings := t.pl.rings } })
      ∧ (lead < 8000 ∨ most < lead → s.ctl.lod.tick.toNat < e.deadline → e.opcode ≠ 0x20 → CompRing s k.val → ∃ t,
          exec (.timedLaunchPoint k i) s = .next t ∧ t.ctl = s.ctl ∧ t.pl.mem = s.pl.mem ∧ t.pl.qps = s.pl.qps
          ∧ Completes s t k.val e 4 0 0 (if lead < 8000 then 0 else 1)))
    ∧ (s.pl.entry k.val i = some e → e.phase ≠ .timed ∨ s.ctl.lod.tick.toNat < e.launch → exec (.timedStart k i) s = .next s)
    ∧ (s.pl.entry k.val i = some e → e.phase = .timed → e.launch ≤ s.ctl.lod.tick.toNat → behindQp (s.pl.ring k.val) e = false →
      e.opcode = 0x20 → ∀ rank nodes, commOf s.ctl (getLe e.raw 8 2) p = some (rank, nodes) → ∃ t, exec (.timedStart k i) s = .next t
      ∧ runs t ∧ same t ∧ posted t rank nodes)
    ∧ (s.pl.entry k.val i = some e → e.timed = true → e.deadline ≠ 2 ^ 64 - 1 → e.missed = false → e.deadline ≤ s.ctl.lod.tick.toNat → ∃ t x,
      exec (.deadlineExpiry k i) s = .next t ∧ t.pl.entry k.val i = some { e with missed := true }
      ∧ t.pl.reg Reg.missCount = (if s.pl.reg Reg.missCount = 0xFFFFFFFF then 0xFFFFFFFF else s.pl.reg Reg.missCount + 1)
      ∧ (t.pl.event p).seq = (if (s.pl.eventRing p).isSome then (s.pl.event p).seq + 1 else (s.pl.event p).seq)
      ∧ t.ctl.flt.hist = (x :: s.ctl.flt.hist).take 32 ∧ x.source = 0x281 ∧ x.cause = 0x07 ∧ x.cls = 1
      ∧ t.ctl = { s.ctl with flt := t.ctl.flt } ∧ t.pl.qps = s.pl.qps)
    ∧ (s.pl.entry k.val i = some e → e.timed = false ∨ e.missed = true ∨ s.ctl.lod.tick.toNat < e.deadline →
      exec (.deadlineExpiry k i) s = .next s)

/-! ### The reliable transport -/

/-- R216, R250, R253, R302, R310 to R312, R321 to R323: a WRITE, WRITE_NOTIFY or SEND packet beyond the window is discarded and noted; one
already received is acknowledged again and changes nothing; a new one is taken for placement at its window's, or its buffer's,
address with the access to the window in flight; without a notification slot or a buffer, or against the window's rights, it
is not taken. The end of a placement writes the bytes, receives the PSN, and writes the notification of the message it ends. -/
def Obligations.DataPacketsArePlaced : Prop :=
  (∀ (s : State) (f : RxFrame) (raw : List Byte) (ce : Bool) (p : Pkt), Quiet s → PeerPacket s f raw ce p →
    let n := p.dstQp
    let q := s.pl.qp n
    let w := getBe p.ext 0 4 % 2 ^ 20
    let off := getBe p.ext 8 8 + p.offset
    let first : BitVec 32 := p.psn - BitVec.ofNat 32 (p.offset / max 1 q.payload)
    let kept (t : State) : Prop := (t.pl.qp n).recvPsn = q.recvPsn ∧ (t.pl.qp n).got = q.got ∧ (t.pl.qp n).state = q.state ∧ t.ctl = s.ctl
    let untaken (t : State) : Prop := kept t ∧ (t.pl.qp n).places = q.places ∧ (t.pl.qp n).rxMsgs = q.rxMsgs ∧ t.pl.mem = s.pl.mem
    (∀ x ∈ [((1 : Nat), Instr.writeRx f), (2, .writeNotifyRx f), (5, .sendRx f)], p.ptype = x.1 →
      (q.window ≤ psnDist p.psn q.recvPsn → psnDist p.psn q.recvPsn < 2 ^ 31 → ∃ t, exec x.2 s = .next t ∧ untaken t
          ∧ t.pl.wins = s.pl.wins ∧ flag (t.pl.reg Reg.relSticky) 0 = true)
      ∧ (2 ^ 31 ≤ psnDist p.psn q.recvPsn ∨ (psnDist p.psn q.recvPsn < q.window ∧ ∃ g ∈ q.got, g.1 = p.psn) → ∃ t,
          exec x.2 s = .next t ∧ untaken t ∧ t.pl.wins = s.pl.wins ∧ (t.pl.qp n).ackCount = 0))
    ∧ (∀ x ∈ [((1 : Nat), Instr.writeRx f), (2, .writeNotifyRx f)], p.ptype = x.1 → s.ctl.boundVein 0 n = none → NewPsn q p.psn →
      (∀ k, winCause s.pl (BitVec.ofNat 32 (getBe p.ext 0 4)) n q.part q.peerNode .write off p.payload.length = some k → HostRings s →
          ∃ t, exec x.2 s = .next t ∧ untaken t ∧ ∀ j, (t.pl.win j).inflight = (s.pl.win j).inflight)
      ∧ (winCause s.pl (BitVec.ofNat 32 (getBe p.ext 0 4)) n q.part q.peerNode .write off p.payload.length = none →
          x.1 = 2 → (∀ m ∈ q.rxMsgs, m.first ≠ first) → (s.pl.cq q.cq).enabled = false ∨ s.pl.cqFree q.cq = 0 → ∃ t,
          exec x.2 s = .next t ∧ untaken t ∧ t.pl.wins = s.pl.wins)
      ∧ (∀ ps, winCause s.pl (BitVec.ofNat 32 (getBe p.ext 0 4)) n q.part q.peerNode .write off p.payload.length = none →
          x.1 = 1 ∨ (∃ m ∈ q.rxMsgs, m.first = first) ∨ ((s.pl.cq q.cq).enabled = true ∧ 0 < s.pl.cqFree q.cq) → s.ctl.dev.pcieUp = true →
          (translateRange s.ctl s.pl q.home q.part ((s.pl.win w).base + off) p.payload.length true).1 = .ok ps → ∃ t,
          exec x.2 s = .next t ∧ kept t ∧ t.pl.mem = s.pl.mem ∧ (t.pl.win w).inflight = (s.pl.win w).inflight + 1
          ∧ (t.pl.qp n).places = q.places ++ [
              { psn := p.psn, ptype := x.1, first := first, bytes := p.payload, part := q.part, va := (s.pl.win w).base + off
                phys := ps, win := some w, ackReq := nbit p.flags 3, since := s.ctl.ns }]))
    ∧ (p.ptype = 5 → s.ctl.boundVein 0 n = none → NewPsn q p.psn → p.psn = q.recvPsn → p.offset = 0 → (∀ m ∈ q.rxMsgs, m.first ≠ p.psn) →
      q.srq ≠ 0xFFFF → ∀ k, s.pl.srqRing q.srq = some k →
      ((s.pl.ring k).descs = [] → mayFetch s.ctl (s.pl.ring k) = false → ∃ t, exec (.sendRx f) s = .next t ∧ untaken t ∧ t.pl.rings = s.pl.rings)
      ∧ (∀ y ys, (s.pl.ring k).descs = y :: ys →
        (y.len < p.msgLen → ∃ t, exec (.sendRx f) s = .next t ∧ untaken t ∧ t.pl.ring k = { s.pl.ring k with tooLong := true }
            ∧ ∀ j, j ≠ k → t.pl.ring j = s.pl.ring j)
        ∧ (∀ ps, p.msgLen ≤ y.len → s.ctl.dev.pcieUp = true → HostRings s →
            (translateRange s.ctl s.pl q.home q.part y.va p.payload.length true).1 = .ok ps → ∃ t, exec (.sendRx f) s = .next t ∧ kept t
            ∧ (t.pl.ring k).descs = ys ∧ t.pl.mem = s.pl.mem
            ∧ (t.pl.qp n).rxMsgs = q.rxMsgs ++ [
                { first := p.psn, count := max 1 (ceilDiv p.msgLen q.payload), len := p.msgLen, ptype := 5
                  value := BitVec.ofNat 32 (getBe p.ext 0 4), solicit := nbit p.flags 4, desc := some y, ring := k, bytes := p.msgLen }]
            ∧ (t.pl.qp n).places = q.places ++ [
                { psn := p.psn, ptype := 5, first := p.psn, bytes := p.payload, part := q.part, va := y.va, phys := ps
                  ackReq := nbit p.flags 3, since := s.ctl.ns }]))))
  ∧ (∀ (s : State) (n : QpId) (psn : BitVec 32), Quiet s → s.ctl.dev.pcieUp = true →
    let q := s.pl.qp n.val
    ((∀ y ∈ q.places, y.psn ≠ psn) → exec (.packetPlaced n psn) s = .next s)
    ∧ (∀ x, q.places.find? (·.psn == psn) = some x →
      (q.rxMsgs = [] → ∃ d, exec (.packetPlaced n psn) s = .next (settle { s with pl := d }) ∧ (q.isSealed = false → d.effects = [])
          ∧ d.mem = (writePieces s.ctl (ownerFn s.pl x.part) x.phys x.bytes s.pl).mem
          ∧ d.host = (writePieces s.ctl (ownerFn s.pl x.part) x.phys x.bytes s.pl).host
          ∧ (d.qp n.val).places = q.places.erase x
          ∧ (∀ w, x.win = some w → (d.win w).inflight = (s.pl.win w).inflight - 1)
          ∧ (q.got = [] → (d.qp n.val).recvPsn = (if psn = q.recvPsn then q.recvPsn + 1 else q.recvPsn)))
      ∧ (∀ m, q.rxMsgs = [m] → q.got = [] → psn = q.recvPsn → m.first = psn → x.first = psn → m.count = 1 → m.placed = 0 →
          m.len = x.bytes.length → m.desc = none → s.pl.hostBad = [] → (s.pl.cq m.ring).enabled = true → s.pl.ringLoc (Reg.cmp m.ring 0) = false → ∃ d,
          exec (.packetPlaced n psn) s = .next (settle { s with pl := d }) ∧ (q.isSealed = false → d.effects = [])
          ∧ (d.qp n.val).recvPsn = q.recvPsn + 1 ∧ (d.qp n.val).rxMsgs = []
          ∧ d.mem = (writePieces s.ctl (ownerFn s.pl x.part) x.phys x.bytes s.pl).mem ∧ (d.cq m.ring).write = (s.pl.cq m.ring).write + 1
          ∧ Mem.readN d.host (s.pl.ringBase (Reg.cmp m.ring 0) + (s.pl.cq m.ring).write.toNat % s.pl.cmpSize m.ring * 32) 32 =
              Comp.image { status := m.status, recv := true, solicited := m.solicit, opcode := 0x02, ring := 0xFFFF
                           result := BitVec.ofNat 64 (m.value.toNat + q.peerNode * 2 ^ 32), bytes := m.bytes, qp := n.val
                           detail := m.detail } (lapOf (s.pl.cq m.ring).write (s.pl.cmpSize m.ring)))))

/-- R216, R315, R324 to R331: a READ_REQ in order inside a window with READ is answered by responses of at most the payload that together
have MSG_LEN bytes, its PSNs are received; a READ_RESP of a sent PSN writes its bytes at the requester's address and the PSN is
done; an atomic on local memory is executed once, its ORIGINAL cached, and a repeated one is answered from the cache; one on
host memory waits for the host's completion; an ATOMIC_RESP completes its entry with ORIGINAL. -/
def Obligations.ReadsAndAtomicsAreAnswered : Prop :=
  (∀ (s : State) (f : RxFrame) (raw : List Byte) (ce : Bool) (p : Pkt), Quiet s → PeerPacket s f raw ce p →
    let n := p.dstQp
    let q := s.pl.qp n
    let h : Word := BitVec.ofNat 32 (getBe p.ext 0 4)
    let w := getBe p.ext 0 4 % 2 ^ 20
    let at_ := (s.pl.win w).base + getBe p.ext 8 8
    let size := if getByte p.ext 5 = 1 then 8 else 4
    (p.ptype = 3 → NextPsn q p.psn → p.offset = 0 → s.ctl.boundVein 0 n = none → 0 < q.payload → max 1 (ceilDiv p.msgLen q.payload) ≤ 2048 → s.ctl.dev.pcieUp = true →
      ∀ ps, winCause s.pl h n q.part q.peerNode .read (getBe p.ext 8 8) p.msgLen = none →
      (translateRange s.ctl s.pl q.home q.part at_ p.msgLen false).1 = .ok ps → ∃ t rs, exec (.readReqRx f) s = .next t ∧ t.ctl = s.ctl
      ∧ (t.pl.qp n).resps = q.resps ++ rs ∧ rs.length = max 1 (ceilDiv p.msgLen q.payload) ∧ (rs.map (·.len)).sum = p.msgLen
      ∧ (∀ r ∈ rs, r.len ≤ q.payload ∧ r.msgLen = p.msgLen ∧ r.win = w) ∧ (rs.map (·.psn)).head? = some p.psn
      ∧ (t.pl.qp n).recvPsn = q.recvPsn + BitVec.ofNat 32 rs.length ∧ (t.pl.win w).inflight = (s.pl.win w).inflight + rs.length
      ∧ t.pl.mem = s.pl.mem)
    ∧ (p.ptype = 4 → n ∉ s.pl.xpt.destroying → HostRings s → s.ctl.dev.pcieUp = true → ∀ m ps, msgOf q p.psn = some m → m.ptype = 3 → m.ring < 8192 → q.sentPsn p.psn = true →
      q.donePsn p.psn = false →
      let o := psnDist p.psn m.first * q.payload
      let bs := p.payload.take (min q.payload (m.len - o))
      (translateRange s.ctl s.pl q.home q.part (m.va + o) bs.length true).1 = .ok ps → ∃ t, exec (.readRespRx f) s = .next t
      ∧ t.pl.mem = (writePieces s.ctl (ownerFn s.pl q.part) ps bs s.pl).mem ∧ (t.pl.qp n).donePsn p.psn = true ∧ (t.pl.qp n).recvPsn = q.recvPsn)
    ∧ (p.ptype = 6 → NextPsn q p.psn → p.offset = 0 → s.ctl.boundVein 0 n = none → s.ctl.dev.pcieUp = true → ∀ a k,
      winCause s.pl h n q.part q.peerNode .atomic (getBe p.ext 8 8) size = none →
      (translateRange s.ctl s.pl q.home q.part at_ size true).1 = .ok [(a, k)] →
      (regionOf a ≠ .host → ∀ bs, (readLocal s.ctl s.pl (ownerFn s.pl q.part) a k).1 = some bs → ∃ t, exec (.atomicReqRx f) s = .next t ∧ t.ctl = s.ctl
          ∧ (t.pl.qp n).recvPsn = q.recvPsn + 1 ∧ (t.pl.qp n).atomics = ((p.psn, BitVec.ofNat 64 (leNat bs)) :: q.atomics).take 16
          ∧ t.pl.mem = (writeLocal s.ctl s.pl (ownerFn s.pl q.part) a ((leBytes size (if getByte p.ext 4 = 1 then
              (if leNat bs = getBe p.ext 16 8 % 2 ^ (8 * size) then getBe p.ext 24 8 % 2 ^ (8 * size) else leNat bs)
              else (leNat bs + getBe p.ext 16 8) % 2 ^ (8 * size))).take k)).mem)
      ∧ (regionOf a = .host → Config.atomicEnable (ownerFn s.pl q.part) = true → ∃ t, exec (.atomicReqRx f) s = .next t ∧ t.ctl = s.ctl
          ∧ (t.pl.qp n).recvPsn = q.recvPsn ∧ (t.pl.qp n).atomics = q.atomics ∧ t.pl.host = s.pl.host ∧ t.pl.mem = s.pl.mem
          ∧ (t.pl.qp n).hostAtomics = q.hostAtomics ++ [
              { psn := p.psn, addr := busAddr s.pl a, wide := getByte p.ext 5 == 1, cas := getByte p.ext 4 == 1
                opA := BitVec.ofNat 64 (getBe p.ext 16 8), opB := BitVec.ofNat 64 (getBe p.ext 24 8), win := w, since := s.ctl.ns }]))
    ∧ (p.ptype = 6 → 2 ^ 31 ≤ psnDist p.psn q.recvPsn → ∃ t, exec (.atomicReqRx f) s = .next t ∧ t.ctl = s.ctl ∧ t.pl.mem = s.pl.mem
      ∧ t.pl.host = s.pl.host ∧ (t.pl.qp n).atomics = q.atomics ∧ (t.pl.qp n).recvPsn = q.recvPsn ∧ t.pl.wins = s.pl.wins)
    ∧ (p.ptype = 7 → n ∉ s.pl.xpt.destroying → ∀ m k e, q.msgs = [m] → m.ring = k → k < 8192 → m.ptype = 6 → m.count = 1 → m.first = p.psn → q.unaPsn = p.psn →
      q.sendPsn = p.psn + 1 → (q.psnState p.psn).done = false → s.pl.entry k m.index = some e → e.phase = .running → e.timed = false →
      e.lost = false → e.nocomp = false → CompRing s k → ∃ t, exec (.atomicRespRx f) s = .next t ∧ t.ctl = s.ctl
      ∧ Completes s t k e 0 (BitVec.ofNat 64 (getBe p.ext 0 8)) 0 0 ∧ (t.pl.qp n).msgs = [] ∧ (t.pl.qp n).unaPsn = p.psn + 1
      ∧ t.pl.mem = s.pl.mem))
  ∧ (∀ (s : State) (n : QpId) (psn : BitVec 32) (v : DWord), Quiet s →
    let q := s.pl.qp n.val
    ((∀ x ∈ q.hostAtomics, x.psn ≠ psn) → ∀ ok, exec (.hostAtomicCompletion n psn ok v) s = .next s)
    ∧ (∀ x, q.hostAtomics.find? (·.psn == psn) = some x →
      let size := if x.wide then 8 else 4
      let old := v.toNat % 2 ^ (8 * size)
      (q.got = [] → q.rxMsgs = [] → psn = q.recvPsn → ∃ d, exec (.hostAtomicCompletion n psn true v) s = .next (settle { s with pl := d })
          ∧ (q.isSealed = false → d.effects = [])
          ∧ (d.host = Mem.writeN s.pl.host x.addr (leBytes size (if x.cas then
              (if old = x.opA.toNat % 2 ^ (8 * size) then x.opB.toNat % 2 ^ (8 * size) else old)
              else (old + x.opA.toNat) % 2 ^ (8 * size))))
          ∧ (d.qp n.val).hostAtomics = q.hostAtomics.erase x ∧ (d.qp n.val).recvPsn = q.recvPsn + 1
          ∧ (d.qp n.val).atomics = ((psn, BitVec.ofNat 64 old) :: q.atomics).take 16
          ∧ (d.win x.win).inflight = (s.pl.win x.win).inflight - 1 ∧ d.mem = s.pl.mem)
      ∧ (∃ d, exec (.hostAtomicCompletion n psn false v) s = .next (settle { s with pl := d })
          ∧ d.host = s.pl.host ∧ d.mem = s.pl.mem
          ∧ d.effects.head? = some (.fault (0x1C0 + q.home) 0x03 (some q.part)) ∧ (q.isSealed = false → d.effects.length = 1) ∧ (d.qp n.val).hostAtomics = q.hostAtomics.erase x
          ∧ (d.qp n.val).recvPsn = q.recvPsn)))

/-- R275, R315 to R318, R324, R332 to R334: an ACK makes the sent PSNs below CUM_PSN, and those of its bitmap, done, and completes the entries
whose PSNs are all done; NAK_GAP asks for the PSNs missing below the top of the bitmap; BUSY delays a PSN by its hint, doubled for each
one in a row, up to 1,024 µs, its limit fixed by the first; ACCESS ends the queue pair of a PSN it has sent, and NO_QP any, in ERROR with REMOTE_ACCESS. -/
def Obligations.AcknowledgementsRetirePackets : Prop :=
  ∀ (s : State) (f : RxFrame) (raw : List Byte) (ce : Bool) (p : Pkt), Quiet s → PeerPacket s f raw ce p → p.ptype = 8 →
    p.dstQp ∉ s.pl.xpt.destroying →
    let n := p.dstQp
    let q := s.pl.qp n
    let cum : BitVec 32 := BitVec.ofNat 32 (getBe p.ext 4 4)
    let trigger : BitVec 32 := BitVec.ofNat 32 (getBe p.ext 8 4)
    let map := beNat (slice p.ext 16 32)
    (∀ y ∈ [((0 : Nat), Instr.ackRx f), (1, .nakGapRx f)], getByte p.ext 0 = y.1 → ∃ t, exec y.2 s = .next t
      ∧ (t.pl.qp n).recvPsn = q.recvPsn ∧ (t.pl.qp n).state = .ready ∧ (HostRings s → t.pl.mem = s.pl.mem)
      ∧ (∀ x : BitVec 32, q.sentPsn x = true → 0 < (q.psnState x).sent → (∀ m, msgOf q x = some m → m.ptype = 1 ∨ m.ptype = 2 ∨ m.ptype = 5) →
          0 < psnDist cum x ∧ psnDist cum x < 2 ^ 31 ∨ (∃ i, i < 256 ∧ psnDist x cum = i + 1 ∧ map.testBit i = true) →
          (t.pl.qp n).donePsn x = true)
      ∧ (y.1 = 1 → ∀ x : BitVec 32, 0 < (q.psnState x).sent → (q.psnState x).done = false → (q.psnState x).resentAt = 0 →
          (q.psnState x).busyWait = false → q.donePsn x = false → psnDist x cum < 256 → (∃ i, psnDist x cum ≤ i ∧ i < 256 ∧ map.testBit i = true) →
          (psnDist x cum = 0 ∨ map.testBit (psnDist x cum - 1) = false) → ((t.pl.qp n).psnState x).due = true))
    ∧ (getByte p.ext 0 = 0 → ∀ m k e, q.msgs = [m] → m.ring = k → k < 8192 → m.ptype = 1 → m.count = 1 → m.first = q.unaPsn →
      q.sendPsn = q.unaPsn + 1 → cum = q.unaPsn + 1 → q.psns = [(q.unaPsn.toNat, { sent := 1 })] → s.pl.entry k m.index = some e → e.phase = .running →
      e.timed = false → e.lost = false → e.nocomp = false → CompRing s k → ∃ t, exec (.ackRx f) s = .next t ∧ t.ctl = s.ctl
      ∧ Completes s t k e 0 0 (getLe e.raw 12 4) 0 ∧ (t.pl.qp n).msgs = [] ∧ (t.pl.qp n).unaPsn = q.unaPsn + 1 ∧ (t.pl.qp n).retries = 0)
    ∧ (getByte p.ext 0 = 2 →
      let x := q.psnState trigger
      (q.sentPsn trigger = true → x.done = false → ∃ t, exec (.busyRx f) s = .next t ∧ t.ctl = s.ctl ∧ t.pl.mem = s.pl.mem
          ∧ (t.pl.qp n).psnState trigger = { x with
              busy := x.busy + 1, busyAt := if x.busy = 0 then s.ctl.ns else x.busyAt, busyWait := true, due := false
              nak := false, busyFor := if x.busy = 0 then bits (s.pl.reg Reg.busyLimit) 13 0 * 1000000 else x.busyFor
              busyDetail := getByte p.ext 1, busyUntil := s.ctl.ns + min (getBe p.ext 2 2 * 2 ^ x.busy) 1024 * 1000 }
          ∧ (∀ z, z ≠ trigger → (t.pl.qp n).psnState z = q.psnState z) ∧ (t.pl.qp n).msgs = q.msgs)
      ∧ (q.sentPsn trigger = false → ∃ t, exec (.busyRx f) s = .next t ∧ t.ctl = s.ctl ∧ (t.pl.qp n).psns = q.psns))
    ∧ (getByte p.ext 0 = 3 →
      (q.sentPsn trigger = false → ∃ t, exec (.accessRx f) s = .next t ∧ t.ctl = s.ctl ∧ (t.pl.qp n).state = .ready ∧ (t.pl.qp n).msgs = q.msgs)
      ∧ (∀ m, q.sentPsn trigger = true → msgOf q trigger = some m → ∃ t, exec (.accessRx f) s = .next t ∧ (t.pl.qp n).state = .error
          ∧ (t.pl.qp n).lastStatus = 2 ∧ (t.pl.qp n).msgs = [] ∧ t.pl.entry m.ring m.index = none))
    ∧ (getByte p.ext 0 = 5 → ∃ t, exec (.noQpRx f) s = .next t ∧ (t.pl.qp n).state = .error ∧ (t.pl.qp n).lastStatus = 2
        ∧ (t.pl.qp n).msgs = [] ∧ ∀ j, j ≠ n → (t.pl.qp j).state = (s.pl.qp j).state)

/-- R293, R295, R301, R312, R313, R316, R317, R319, R326, R332, R333, R350, R352: each timer of the transport acts when its time has come
and changes nothing before: the delayed acknowledgement is sent; a gap is asked for; the oldest unacknowledged PSN, and what is
missing of its READ, is due again with a doubled timeout, or after 15 retries the queue pair ends RETRY_EXHAUSTED; a BUSY's backoff
ends, and the limit that its first one fixed ends the queue pair BUSY_TIMEOUT; a connection request is repeated up to 15 times; the
rates recover and the epoch turns; a wheel advances by one slot. What sends for an evicted context has it fetched first. -/
def Obligations.TransportTimersFire : Prop :=
  (∀ (s : State) (n : QpId), Quiet s →
    let q := s.pl.qp n.val
    let goes (x : Instr) (d : Plane) : Prop := exec x s = .next (settle { s with pl := d })
    let same (d : Plane) : Prop := (q.isSealed = false → d.effects = []) ∧ (d.qp n.val).recvPsn = q.recvPsn ∧ (d.qp n.val).msgs = q.msgs
      ∧ d.wins = s.pl.wins ∧ ∀ j, j ≠ n.val → d.qp j = s.pl.qp j
    let fetches (d : Plane) : Prop := n.val ∈ d.xpt.fetching ∧ d = { s.pl with xpt := d.xpt }
    let ends (d : Plane) (status : Nat) : Prop := (d.qp n.val).state = .error ∧ (d.qp n.val).lastStatus = status ∧ (d.qp n.val).msgs = []
    (q.ackCount ≠ 0 → q.state = .ready → q.ackSince + q.ackFor ≤ s.ctl.ns → ∃ d, goes (.ackDelayExpiry n) d
        ∧ (q.resident = true → same d ∧ (d.qp n.val).ackCount = 0) ∧ (q.resident = false → fetches d))
    ∧ (q.ackCount = 0 ∨ q.state ≠ .ready ∨ s.ctl.ns < q.ackSince + q.ackFor → exec (.ackDelayExpiry n) s = .next s)
    ∧ (∀ g, q.got = [g] → q.gapOn = false → q.state = .ready →
      (g.2 ≤ s.ctl.ns → ∃ d, goes (.reorderTimeout n) d
          ∧ (q.resident = true → same d ∧ (d.qp n.val).gapOn = true
              ∧ (d.qp n.val).gapAt = s.ctl.ns + bits (s.pl.reg Reg.relTiming) 31 16)
          ∧ (q.resident = false → fetches d))
      ∧ (s.ctl.ns < g.2 → exec (.reorderTimeout n) s = .next s))
    ∧ (q.got = [] → exec (.reorderTimeout n) s = .next s)
    ∧ (q.timerOn = false ∨ s.ctl.ns < q.timerAt → exec (.rtoExpiry n) s = .next s)
    ∧ (q.timerOn = true → q.timerAt ≤ s.ctl.ns →
      (q.retries < 15 → ∃ d, goes (.rtoExpiry n) d ∧ same d ∧ ((d.qp n.val).psnState q.unaPsn).due = true
          ∧ (d.qp n.val).retries = q.retries + 1 ∧ (d.qp n.val).backoff = q.backoff + 1
          ∧ ((q.psnState q.unaPsn).busyWait = false →
              (d.qp n.val).timerAt = s.ctl.ns + min (max 8000 (q.srtt + 4 * q.rttvar) * 2 ^ (q.backoff + 1)) 4096000)
          ∧ (∀ m, msgOf q q.unaPsn = some m → m.ptype = 3 → ∀ x : BitVec 32, psnDist x m.first < m.count → 0 < (q.psnState x).sent →
              (q.psnState x).done = false → (q.psnState x).busyWait = false → ((d.qp n.val).psnState x).due = true)
          ∧ (q.resident = false → hasWork (d.qp n.val) = true → (s.pl.flow n.val).place = .idle → n.val ∈ d.xpt.fetching)
          ∧ flag (d.reg Reg.relSticky) 2 = true)
      ∧ (15 ≤ q.retries → q.state ≠ .error → ∃ d, goes (.rtoExpiry n) d ∧ ends d 9 ∧ flag (d.reg Reg.relSticky) 3 = true)
      ∧ (15 ≤ q.retries → q.state = .error → ∃ d, goes (.rtoExpiry n) d ∧ ends d q.lastStatus ∧ (d.qp n.val).timerOn = false))
    ∧ (∀ psn : BitVec 32,
      let x := q.psnState psn
      (x.busyWait = true → x.busyUntil ≤ s.ctl.ns → ∃ d, goes (.busyResend n psn) d ∧ same d
          ∧ (d.qp n.val).psnState psn = { x with busyWait := false, due := true }
          ∧ (psn = q.unaPsn → ∀ left, q.timerLeft = some left → (d.qp n.val).timerOn = true ∧ (d.qp n.val).timerAt = s.ctl.ns + left))
      ∧ (x.busyWait = false ∨ s.ctl.ns < x.busyUntil → exec (.busyResend n psn) s = .next s)
      ∧ (x.busy ≠ 0 → x.done = false → x.busyFor ≤ s.ctl.ns - x.busyAt → ∃ d, goes (.busyLimitExpiry n psn) d ∧ ends d 14
          ∧ flag (d.reg Reg.relSticky) 4 = true)
      ∧ (x.busy = 0 ∨ x.done = true ∨ s.ctl.ns - x.busyAt < x.busyFor → exec (.busyLimitExpiry n psn) s = .next s))
    ∧ (q.state = .connecting → q.timerAt ≤ s.ctl.ns →
      (q.resident = false → ∃ d, goes (.connRetryTimeout n) d ∧ fetches d)
      ∧ (q.resident = true → q.retries < 15 → ∃ d, goes (.connRetryTimeout n) d ∧ d.effects = [] ∧ same d ∧ d.qp n.val = { q with
          retries := q.retries + 1, timerAt := s.ctl.ns + bits (s.pl.reg Reg.connRetry) 15 0 * 1000 })
      ∧ (q.resident = true → 15 ≤ q.retries → ∃ d, goes (.connRetryTimeout n) d ∧ ends d 9))
    ∧ (q.state ≠ .connecting ∨ s.ctl.ns < q.timerAt → exec (.connRetryTimeout n) s = .next s)
    ∧ (q.state = .ready → q.lastQuiet + bits (s.pl.reg Reg.paceLimits) 31 16 * 1000 ≤ s.ctl.ns → exec (.ecnQuietPeriod n) s = .next { s with
        pl := s.pl.setQp n.val { q with
          rateE := clampNat (bits (s.pl.reg Reg.paceLimits) 15 0 * 100) 1600000 (q.rateE + bits (s.pl.reg Reg.paceAi) 31 16 * 100)
          alpha := (256 - bits (s.pl.reg Reg.paceMd) 23 16) * q.alpha / 256, lastQuiet := s.ctl.ns } })
    ∧ (q.state ≠ .ready ∨ s.ctl.ns < q.lastQuiet + bits (s.pl.reg Reg.paceLimits) 31 16 * 1000 → exec (.ecnQuietPeriod n) s = .next s)
    ∧ (q.state = .ready → q.epochAt + 16000000 ≤ s.ctl.ns → exec (.paceEpoch n) s = .next { s with pl := s.pl.setQp n.val { q with
        basePrev := q.baseCur, baseCur := none, epochAt := q.epochAt + 16000000, base := q.baseCur.getD q.base } })
    ∧ (q.state ≠ .ready ∨ s.ctl.ns < q.epochAt + 16000000 → exec (.paceEpoch n) s = .next s))
  ∧ (∀ (s : State) (k : QuadId), Quiet s →
    let w := s.pl.wheel k.val
    (w.cursor = s.ctl.ns / 32 % 4096 → exec (.wheelSlotTick k) s = .next s)
    ∧ (w.cursor ≠ s.ctl.ns / 32 % 4096 → ∃ d, exec (.wheelSlotTick k) s = .next (settle { s with pl := d })
        ∧ (d.wheel k.val).cursor = (w.cursor + 1) % 4096
        ∧ ((∀ x ∈ w.waiting, x.1 ≠ (w.cursor + 1) % 4096) → (w.cursor + 1) % 4096 ≠ 0 →
            d = s.pl.setWheel k.val { w with cursor := (w.cursor + 1) % 4096 })))

/-- R93, R282 to R284, R293, R294, R336 to R343: a CONNECT_REQ or CONNECT_ACCEPT of the peer with an acceptable offer makes a CONNECTING context READY with the
lesser payload and window, the common capabilities and the peer's PSN; an unacceptable one, or a CONNECT_REJECT of the offer,
ends it VERSION_MISMATCH; DISCONNECT ends a READY one ABORTED, its
receive side at once, what is unacknowledged when that ends. A management request of the in-band peer is queued, or answered from the kept
answer, or BUSY; it is executed in order, or answered from an answer kept since. A FENCE of another node makes or renews its record and ends its queue pairs FENCED_PEER; one
of this incarnation, or a FENCED reply to it, puts the device in QUARANTINE. -/
def Obligations.ConnectionManagementAndFencePackets : Prop :=
  (∀ (s : State) (f : RxFrame) (raw : List Byte) (ce : Bool) (p : Pkt), Quiet s → PacketIn s f raw ce p → Unfenced s p → rawSealed raw = false →
    p.dstQp ∉ s.pl.xpt.destroying →
    let n := p.dstQp
    let q := s.pl.qp n
    let o := offerOf p.ext
    let good := o.version = true ∧ q.isSealed = o.isSealed ∧ (q.isSealed = true → (q.offerCaps &&& o.caps).getLsbD 0 = true)
      ∧ 256 ≤ o.payload ∧ o.payload ≤ 8192 ∧ o.payload % 256 = 0 ∧ 1 ≤ o.window ∧ o.window ≤ 2048
    let mine := n < 2 ^ 20 ∧ q.resident = true ∧ (∀ x ∈ s.pl.parked q.home, x.1 ≠ n)
    let peers := q.peerNode = p.src ∧ q.peerQp = p.srcQp
    let agreed (t : State) : Prop := (t.pl.qp n).state = .ready ∧ (t.pl.qp n).payload = min q.offerPayload o.payload
      ∧ (t.pl.qp n).window = min q.offerWindow o.window ∧ (t.pl.qp n).caps = q.offerCaps &&& o.caps ∧ (t.pl.qp n).version = 1
      ∧ (t.pl.qp n).peerInc = p.inc ∧ (t.pl.qp n).recvPsn = o.initPsn ∧ (t.pl.qp n).peerInitPsn = o.initPsn
      ∧ (t.pl.qp n).peerRxKey = o.rxKey ∧ (t.pl.qp n).rateD = 1600000 ∧ (t.pl.qp n).rateE = 1600000
    let kept (t : State) : Prop := t.ctl = s.ctl ∧ (t.pl.qp n).state = q.state ∧ (t.pl.qp n).recvPsn = q.recvPsn ∧ (t.pl.qp n).msgs = q.msgs
    (∀ x ∈ [((0x10 : Nat), Instr.connectReqRx f), (0x11, .connectAcceptRx f)], p.ptype = x.1 → mine →
      (q.state = .connecting → peers → good → ∃ t, exec x.2 s = .next t ∧ agreed t)
      ∧ (q.state = .connecting → peers → ¬ good → ∃ t, exec x.2 s = .next t ∧ (t.pl.qp n).state = .error ∧ (t.pl.qp n).lastStatus = 13)
      ∧ (q.state ≠ .connecting ∨ ¬ peers → ∃ t, exec x.2 s = .next t ∧ kept t))
    ∧ (p.ptype = 0x12 → mine →
      (q.state = .connecting → peers → getByte p.ext 0 ≤ 1 → ∃ t, exec (.connectRejectRx f) s = .next t ∧ (t.pl.qp n).state = .error
          ∧ (t.pl.qp n).lastStatus = 13)
      ∧ (q.state ≠ .connecting ∨ ¬ peers ∨ 1 < getByte p.ext 0 → ∃ t, exec (.connectRejectRx f) s = .next t ∧ kept t))
    ∧ (p.ptype = 0x13 → PeerPacket s f raw ce p → ∃ t, exec (.disconnectRx f) s = .next t ∧ (t.pl.qp n).state = .error
        ∧ (t.pl.qp n).lastStatus = 1 ∧ (t.pl.qp n).rxMsgs = [] ∧ (t.pl.qp n).places = [] ∧ (t.pl.qp n).got = []
        ∧ (q.msgs = [] → (t.pl.qp n).msgs = []))
    ∧ (p.ptype = 0x14 →
      (s.ctl.own.inbandValid = false ∨ s.ctl.own.inbandNode.toNat ≠ p.src → exec (.mgmtReqRx f) s = .next (afterMac s f))
      ∧ (s.ctl.own.inbandValid = true → s.ctl.own.inbandNode.toNat = p.src → ∃ t, exec (.mgmtReqRx f) s = .next t ∧ t.ctl = s.ctl
          ∧ t.pl.xpt = { s.pl.xpt with mgmtQueue := t.pl.xpt.mgmtQueue }
          ∧ (((∃ y ∈ s.pl.xpt.mgmtKept, y.reqId = BitVec.ofNat 32 (getBe p.ext 0 4)) ∨ 16 ≤ s.pl.xpt.mgmtQueue.length) →
              t.pl.xpt.mgmtQueue = s.pl.xpt.mgmtQueue)
          ∧ ((∀ y ∈ s.pl.xpt.mgmtKept, y.reqId ≠ BitVec.ofNat 32 (getBe p.ext 0 4)) → s.pl.xpt.mgmtQueue.length < 16 → ∃ y,
              t.pl.xpt.mgmtQueue = s.pl.xpt.mgmtQueue ++ [y] ∧ y.reqId = BitVec.ofNat 32 (getBe p.ext 0 4) ∧ y.node = p.src
              ∧ y.op = getByte p.ext 4 ∧ y.count = getByte p.ext 5 ∧ y.address = getBe p.ext 8 4 ∧ y.data = p.payload)))
    ∧ (p.ptype = 0x15 → exec (.mgmtRespRx f) s = .next (afterMac s f)))
  ∧ (∀ s : State, Quiet s →
    (s.pl.xpt.mgmtQueue = [] ∨ s.ctl.dev.state.booted = false ∨ s.ctl.dev.inReset = true → exec .mgmtReqExecute s = .next s)
    ∧ (∀ m rest, s.pl.xpt.mgmtQueue = m :: rest → s.ctl.dev.state.booted = true → s.ctl.dev.inReset = false →
      (∀ y, s.pl.xpt.mgmtKept.find? (·.reqId == m.reqId) = some y → ∃ t, exec .mgmtReqExecute s = .next t ∧ t.ctl = s.ctl
          ∧ t.pl.regs = s.pl.regs ∧ t.pl.xpt = { s.pl.xpt with mgmtQueue := rest })
      ∧ (∀ st, (∀ y ∈ s.pl.xpt.mgmtKept, y.reqId ≠ m.reqId) → mgmtStatus m = st → st ≠ 0 → ∃ t, exec .mgmtReqExecute s = .next t ∧ t.ctl = s.ctl ∧ t.pl.regs = s.pl.regs
          ∧ t.pl.xpt.mgmtQueue = rest ∧ t.pl.xpt.mgmtKept.getLast? = some { m with status := st, data := [] })
      ∧ ((∀ y ∈ s.pl.xpt.mgmtKept, y.reqId ≠ m.reqId) → mgmtStatus m = 0 → m.op = 1 → m.count = 1 → ∀ v u,
          readBar { s with pl := { s.pl with xpt := { s.pl.xpt with mgmtQueue := rest } } } 3 m.address = (v, u) →
          u.ctl.dev.inReset = false → u.pl.effects = [] → ∃ t, exec .mgmtReqExecute s = .next t ∧ t.ctl = u.ctl ∧ t.pl.regs = u.pl.regs
          ∧ t.pl.xpt.mgmtQueue = u.pl.xpt.mgmtQueue
          ∧ t.pl.xpt.mgmtKept.getLast? = some { m with status := 0, data := leBytes 4 v.toNat })))
  ∧ (∀ (s : State) (f : RxFrame) (raw : List Byte) (ce : Bool) (p : Pkt), Quiet s → PacketIn s f raw ce p →
    let node := getBe p.ext 0 4 % 2 ^ 20
    let inc : BitVec 16 := BitVec.ofNat 16 (getBe p.ext 4 2)
    let epoch : Word := BitVec.ofNat 32 (getBe p.ext 8 4)
    (p.ptype = 0x18 → node ≠ s.ctl.selfNode → ∀ i, s.ctl.memberIndex node = some i →
      let old := s.pl.fenceRec i
      let top (t : State) : Prop := t.pl.xpt.fenceEpoch = (if s.pl.xpt.fenceEpoch.toNat < epoch.toNat then epoch else s.pl.xpt.fenceEpoch)
      (old.valid = false ∨ newer inc old.inc = true → ∃ t, exec (.fenceRx f) s = .next t ∧ top t
          ∧ t.pl.fenceRec i = { valid := true, inc := inc, epoch := epoch, here := false } ∧ (∀ j, j ≠ i → t.pl.fenceRec j = s.pl.fenceRec j)
          ∧ ∀ n, n ∉ s.pl.xpt.destroying → (s.pl.qp n).state ≠ .free → (s.pl.qp n).peerNode = node →
            if (s.pl.qp n).resident then (t.pl.qp n).state = .error ∧ (t.pl.qp n).lastStatus = 6
            else (t.pl.qp n).state = (s.pl.qp n).state ∧ (t.pl.qp n).fenceDue = some epoch)
      ∧ (old.valid = true → inc = old.inc → old.epoch.toNat < epoch.toNat → ∃ t, exec (.fenceRx f) s = .next t ∧ top t
          ∧ t.pl.fenceRec i = { old with epoch := epoch } ∧ t.pl.qps = s.pl.qps)
      ∧ (old.valid = true → newer inc old.inc = false → inc ≠ old.inc ∨ epoch.toNat ≤ old.epoch.toNat → ∃ t, exec (.fenceRx f) s = .next t ∧ top t
          ∧ t.pl.xpt.fences = s.pl.xpt.fences ∧ t.pl.qps = s.pl.qps))
    ∧ (p.ptype = 0x18 → node = s.ctl.selfNode → (s.ctl.memberIndex node).isSome = true → inc = s.ctl.dev.incarnation → s.ctl.maySpeak = true → ∃ t,
        exec (.fenceRx f) s = .next t ∧ t.ctl.dev.state = .quarantine ∧ t.ctl.flash.quarantine = true ∧ t.ctl.own.owner = s.ctl.own.owner)
    ∧ (p.ptype = 8 → getByte p.ext 0 = 4 → Unfenced s p → rawSealed raw = false →
      (getBe p.ext 4 4 % 2 ^ 16 = s.ctl.dev.incarnation.toNat → s.ctl.maySpeak = true → ∃ t, exec (.fencedAckRx f) s = .next t
          ∧ t.ctl.dev.state = .quarantine ∧ t.ctl.flash.quarantine = true ∧ t.ctl.own.owner = s.ctl.own.owner)
      ∧ (getBe p.ext 4 4 % 2 ^ 16 ≠ s.ctl.dev.incarnation.toNat → exec (.fencedAckRx f) s = .next (afterMac s f))))

/-! ### Queue-pair commands and residency -/

/-- R90, R238, R290, R291, R293, R297 to R303, R306 to R308, R350: the commands of XPT_QP_CMD, written by the owner. BUSY discards a command; a queue pair outside
every quota is BAD_QP; a command that needs a context which is not resident has it fetched and waits. CREATE reads the image of host
memory and makes an INIT context, resident at once when it is pinned and its slice has an entry; MODIFY changes what the state allows,
a new TC or ENTROPY starting a new base; QUERY writes the image; CONNECT, RESET, DESTROY, EVICT and FETCH act as the table of R306
says, and a DESTROY runs until its context has drained. A fetch that ends makes the context resident, or puts it in ERROR; a write-back that ends stores the
image in the context's region and frees its entry, unless a use cancelled it. -/
def Obligations.QueuePairCommandsAct : Prop :=
  (∀ (s : State) (g : Agent) (w : BitVec 24), Quiet s → Accepted s g 0x400000 →
    let a := Via.bar g
    let n := w.toNat
    let q := s.pl.qp n
    let b := qpBufOf s.pl 0
    let host := b.1 = false
    let granted : Prop := ∀ x ∈ s.pl.hostBad, x.fn ≠ some 0
    let d := touchQp s.ctl s.pl n
    let ends (d : Plane) (cmd result off : Nat) : State := { s with pl := d.setQpCmd 0 { last := cmd, result := result, fieldOff := off } }
    let ran (t : State) (cmd : Nat) : Prop := t.ctl = s.ctl ∧ t.pl.qpCmd 0 = { last := cmd } ∧ ∀ j, j ≠ n → t.pl.qp j = s.pl.qp j
    let cmds := [((1 : Nat), Instr.create a w), (2, .modify a w), (3, .query a w), (4, .connect a w), (5, .qpReset a w), (6, .destroy a w),
      (7, .qpEvict a w), (8, .qpFetch a w)]
    (∀ x ∈ cmds, (s.pl.qpCmd 0).busy = true → exec x.2 s = .next s)
    ∧ ((s.pl.qpCmd 0).busy = false →
      (∀ x ∈ cmds, qpQuota s.pl 0 n = none → exec x.2 s = .next (ends s.pl x.1 2 255))
      ∧ (∀ p, qpQuota s.pl 0 n = some p →
        (∀ x ∈ cmds, x.1 ≠ 1 → x.1 ≠ 3 → q.state = .free → exec x.2 s = .next (ends s.pl x.1 1 255))
        ∧ (∀ x ∈ cmds, x.1 ≠ 1 → x.1 ≠ 7 → q.state ≠ .free → q.resident = false → ∃ t, exec x.2 s = .next t ∧ t = { s with pl := { s.pl with xpt := t.pl.xpt } }
            ∧ n ∈ t.pl.xpt.fetching ∧ t.pl.qpCmd 0 = { busy := true, last := x.1, target := n })
        ∧ (q.state ≠ .free → exec (.create a w) s = .next (ends s.pl 1 1 255))
        ∧ (q.state = .free → (regionOfQp s.pl n).1 = false → exec (.create a w) s = .next (ends s.pl 1 5 255))
        ∧ (q.state = .free → (regionOfQp s.pl n).1 = true → host →
          (readBus s.ctl s.pl 0 b.2 256 = none → exec (.create a w) s = .next (ends s.pl 1 6 255))
          ∧ (∀ bs, readBus s.ctl s.pl 0 b.2 256 = some bs → let y := qpFromImage bs
            (∀ off, qpFieldBad s.ctl s.pl p false bs = some off → exec (.create a w) s = .next (ends s.pl 1 3 off))
            ∧ (qpFieldBad s.ctl s.pl p false bs = none →
              (y.pin = true → 2048 ≤ pinned s.pl y.home → exec (.create a w) s = .next (ends s.pl 1 4 255))
              ∧ (y.pin = false ∨ pinned s.pl y.home < 2048 → ∃ t, exec (.create a w) s = .next t ∧ t.ctl = s.ctl
                  ∧ (∀ j, j ≠ n → t.pl.qp j = s.pl.qp j)
                  ∧ (let now := y.pin && decide (residents s.pl y.home < residentRoom s.pl y.home)
                    t.pl.qp n = { y with resident := now, usedAt := s.ctl.ns }
                    ∧ (y.pin = false ∨ now = true → t.pl.qpCmd 0 = { last := 1 })
                    ∧ (y.pin = true → now = false → n ∈ t.pl.xpt.fetching
                        ∧ t.pl.qpCmd 0 = { busy := true, last := 1, target := n, acted := true }))
                  ∧ t.pl.qp n = { t.pl.qp n with
                      state := .init, sendPsn := (t.pl.qp n).initPsn, unaPsn := (t.pl.qp n).initPsn, caps := 0, version := 0 }
                  ∧ t.pl.rings = s.pl.rings ∧ t.pl.regs = s.pl.regs))))
        ∧ (q.state = .free → host → s.ctl.dev.pcieUp = true → granted → exec (.query a w) s = .next (ends { s.pl with
            host := Mem.writeN s.pl.host b.2 (List.replicate 256 0) } 3 0 255))
        ∧ (q.state ≠ .free → q.resident = true →
          (host → s.ctl.dev.pcieUp = true → granted → exec (.query a w) s = .next (ends { d with host := Mem.writeN s.pl.host b.2 (qpImage q) } 3 0 255))
          ∧ (host → s.ctl.dev.pcieUp = false → exec (.query a w) s = .next (ends d 3 6 255))
          ∧ (∀ bs, host → readBus s.ctl s.pl 0 b.2 256 = some bs → let y := qpFromImage bs
            let met := q.version != 0
            let moves := q.state == .init && y.home != q.home
            (q.state ≠ .init → qpSoft met y ≠ qpSoft met q → exec (.modify a w) s = .next (ends d 2 1 255))
            ∧ (q.state = .init ∨ qpSoft met y = qpSoft met q →
              (∀ off, qpFieldBad s.ctl s.pl p met bs = some off → exec (.modify a w) s = .next (ends d 2 3 off))
              ∧ (qpFieldBad s.ctl s.pl p met bs = none → y.pin = true → q.pin = false ∨ moves = true → 2048 ≤ pinned d y.home →
                  exec (.modify a w) s = .next (ends d 2 4 255))
              ∧ (qpFieldBad s.ctl s.pl p met bs = none → y.pin = false ∨ (q.pin = true ∧ moves = false) ∨ pinned d y.home < 2048 → ∃ t,
                  exec (.modify a w) s = .next t ∧ t.ctl = s.ctl ∧ (∀ j, j ≠ n → t.pl.qp j = s.pl.qp j) ∧ t.pl.rings = s.pl.rings
                  ∧ (q.state = .init →
                    let stays := !moves || decide (residents d y.home < residentRoom d y.home)
                    t.pl.qp n = { y with resident := stays, usedAt := s.ctl.ns }
                    ∧ (y.pin = false ∨ stays = true → t.pl.qpCmd 0 = { last := 2 })
                    ∧ (y.pin = true → stays = false → n ∈ t.pl.xpt.fetching
                        ∧ t.pl.qpCmd 0 = { busy := true, last := 2, target := n, acted := true }))
                  ∧ (q.state ≠ .init → t.pl.qpCmd 0 = { last := 2 } ∧
                    let path := y.tc != q.tc || y.entropy != q.entropy
                    t.pl.qp n = { q with
                      usedAt := s.ctl.ns, tc := y.tc, entropy := y.entropy, pin := y.pin, baseCur := if path then none else q.baseCur
                      basePrev := if path then none else q.basePrev, epochAt := if path then s.ctl.ns else q.epochAt }))))
          ∧ (host → readBus s.ctl s.pl 0 b.2 256 = none → exec (.modify a w) s = .next (ends d 2 6 255))
          ∧ (q.state ≠ .init → exec (.connect a w) s = .next (ends d 4 1 255))
          ∧ (q.state = .init → ∃ t, exec (.connect a w) s = .next t ∧ ran t 4
              ∧ t.pl.qp n = { q with
                  usedAt := s.ctl.ns, state := .connecting, retries := 0, connAt := s.ctl.ns, timerOn := true
                  timerAt := s.ctl.ns + bits (s.pl.reg Reg.connRetry) 15 0 * 1000 }
              ∧ (∀ m, hopTo s.ctl s.pl q q.peerNode 7 q.peerQp = some m → ∃ f, (t.pl.port m).queue7 = (s.pl.port m).queue7 ++ [f]))
          ∧ (q.state ≠ .error → exec (.qpReset a w) s = .next (ends d 5 1 255))
          ∧ (q.state = .error → n ∉ s.pl.xpt.destroying → ∃ t, exec (.qpReset a w) s = .next t ∧ ran t 5 ∧ (let y := t.pl.qp n
              y.state = .init ∧ y.sendPsn = q.initPsn ∧ y.unaPsn = q.initPsn ∧ y.recvPsn = 0 ∧ y.caps = 0 ∧ y.version = 0 ∧ y.peerInc = 0
                ∧ y.payload = q.offerPayload ∧ y.window = q.offerWindow ∧ y.lastStatus = 0 ∧ y.retries = 0 ∧ qpSoft false y = qpSoft false q))
          ∧ (n ∉ s.pl.xpt.destroying → q.msgs = [] → ∃ d, exec (.destroy a w) s = .next (settle { s with pl := d }) ∧ d.qp n = {}
              ∧ d.qpCmd 0 = { last := 6 } ∧ (∀ j, j ≠ n → d.qp j = s.pl.qp j) ∧ (∀ x ∈ d.parked q.home, x.1 ≠ n)
              ∧ ∀ (k : Nat) (i : BitVec 16) (e : Fetched), s.pl.wrgKind k = false → s.pl.entry k i = some e → 1 ≤ e.opcode → e.opcode ≤ 6 → e.qp = n →
                  d.entry k i = none)
          ∧ (∀ m, q.msgs = [m] → m.first = q.unaPsn → q.sendPsn = m.first + BitVec.ofNat 32 m.count → doneOf q m < m.count →
              m.count < 2 ^ 31 → ∃ d, exec (.destroy a w) s = .next (settle { s with pl := d }) ∧ n ∈ d.xpt.destroying
              ∧ d.qpCmd 0 = { busy := true, last := 6, target := n } ∧ (d.qp n).msgs = [m] ∧ (d.qp n).state = q.state
              ∧ (∀ j, j ≠ n → d.qp j = s.pl.qp j)
              ∧ ∀ e, m.ring < 8192 → s.pl.entry m.ring m.index = some e → d.entry m.ring m.index = some { e with phase := .aborting })
          ∧ exec (.qpFetch a w) s = .next (ends d 8 0 255))
        ∧ (q.state ≠ .free → evictable s.pl n q = true → n ∉ s.pl.xpt.cancelled → ∃ t, exec (.qpEvict a w) s = .next t
            ∧ t = { s with pl := { s.pl with xpt := t.pl.xpt } } ∧ t.pl.xpt.writeback = s.pl.xpt.writeback ++ [n]
            ∧ t.pl.qpCmd 0 = { busy := true, last := 7, target := n })
        ∧ (q.state ≠ .free → evictable s.pl n q = false ∨ n ∈ s.pl.xpt.cancelled → exec (.qpEvict a w) s = .next (ends s.pl 7 7 255)))))
  ∧ (∀ (s : State) (n : QpId), Quiet s →
    let q := s.pl.qp n.val
    let read := readLoc s.ctl s.pl 0 (regionOfQp s.pl n.val).2.1 (contextAddr s.pl n.val) 1024
    let others (d : Plane) : Prop := ∀ j, j ≠ n.val → d.qp j = s.pl.qp j
    (n.val ∉ s.pl.xpt.fetching ∨ fetchRuns s.pl n.val = false → ∀ ok, exec (.qpcFetchDone n ok) s = .next s)
    ∧ (n.val ∈ s.pl.xpt.fetching → fetchRuns s.pl n.val = true → (∀ x ∈ s.pl.xpt.cmds, x.2.busy = false ∨ x.2.target ≠ n.val) →
      (read.1.isSome = true → q.fenceDue = none → (∀ x ∈ s.pl.parked q.home, x.1 ≠ n.val) → entriesOf s.pl n.val = [] →
          q.ackCount = 0 → q.got = [] → q.state ≠ .connecting → ∃ t,
        exec (.qpcFetchDone n true) s = .next t ∧ t.ctl = s.ctl ∧ others t.pl ∧ t.pl.qp n.val = { q with resident := true, usedAt := s.ctl.ns }
        ∧ t.pl.xpt.fetching = s.pl.xpt.fetching.erase n.val)
      ∧ (∀ ok, ok = false ∨ read.1 = none → ∃ d, exec (.qpcFetchDone n ok) s = .next (settle { s with pl := d }) ∧ others d
          ∧ (d.qp n.val).state = .error ∧ (d.qp n.val).lastStatus = 1 ∧ (d.qp n.val).msgs = [] ∧ (∀ x ∈ d.parked q.home, x.1 ≠ n.val)
          ∧ Effect.fault (0x1C0 + q.home) 0x0E none ∈ d.effects ∧ flag (d.reg Reg.rxSticky) 7 = true))
    ∧ (n.val ∉ s.pl.xpt.writeback → n.val ∉ s.pl.xpt.cancelled → exec (.qpcWritebackDone n) s = .next s)
    ∧ (n.val ∈ s.pl.xpt.writeback → ∃ t, exec (.qpcWritebackDone n) s = .next t ∧ t.ctl = s.ctl ∧ others t.pl ∧ t.pl.qp n.val = { q with resident := false }
        ∧ t.pl.xpt.writeback = s.pl.xpt.writeback.erase n.val
        ∧ (∀ f, s.pl.qpCmd f = { busy := true, last := 7, target := n.val } → t.pl.qpCmd f = { last := 7 })
        ∧ ((regionOfQp s.pl n.val).2.1 = false → s.ctl.dev.pcieUp = true → (∀ x ∈ s.pl.hostBad, x.fn ≠ some 0) →
            Mem.readN t.pl.host (contextAddr s.pl n.val) 256 = qpImage q))
    ∧ (n.val ∉ s.pl.xpt.writeback → n.val ∈ s.pl.xpt.cancelled → ∃ t, exec (.qpcWritebackDone n) s = .next t ∧ t.ctl = s.ctl
        ∧ t.pl.qps = s.pl.qps ∧ t.pl.xpt.cancelled = s.pl.xpt.cancelled.erase n.val
        ∧ (∀ f, s.pl.qpCmd f = { busy := true, last := 7, target := n.val } → t.pl.qpCmd f = { last := 7, result := 7 })))

/-! ### Lodestone time -/

/-- R372, R373, R376 to R379: a REQ is due every 125 µs on an exchanging port; an advertisement is dropped when it is 500 µs old; a LOCKED device
whose parent port is lost, or advertises nothing usable any more (log 139), takes the best other advertisement or holds over; only
a better one for a parent that is not lost sets PARENT_CHANGE; a HOLDOVER or LODESTONE one takes a better one; an ACQUIRING
device without any for 1 ms is a candidate; a candidate with none better for 500 µs becomes LODESTONE and keeps its counter; the
holdover limit sets UNCERTAIN and reports a fault. -/
def Obligations.TimeStatesMove : Prop :=
  ∀ s : State, Quiet s →
    let l := s.ctl.lod
    let sticky (t : State) (b : Nat) : Prop := t.pl.reg 0x40024 = s.pl.reg 0x40024 ||| BitVec.ofNat 32 (2 ^ b)
    let only (t : State) : Prop := CtlButTime s t ∧ t.pl = { s.pl with regs := t.pl.regs } ∧ (∀ a, a ≠ 0x40024 → t.pl.reg a = s.pl.reg a)
      ∧ t.ctl.lod.tick = l.tick
    let lost (n : Nat) : Prop := (s.pl.port n).peerOk = false ∨ l.lastAt + 500000 ≤ s.ctl.ns
      ∨ usableAd s.ctl s.pl n = none
    let held : Int := if l.recent = [] then l.freq else clampInt (-250000000) 250000000 (l.recent.sum.tdiv l.recent.length)
    let takes (t : State) (n : Nat) (a : Advert) : Prop := t.ctl.lod.parent = some n ∧ t.ctl.lod.distance = min 15 (a.distance + 1)
      ∧ t.ctl.lod.lodeNode = a.node ∧ t.ctl.lod.lodePriority = a.priority ∧ t.ctl.lod.lodeSerial = a.serial
    (∀ n : PortId,
      let p := s.pl.port n.val
      (s.ctl.maySpeak = true → p.group = true → p.peerOk = true → p.reqAt ≤ s.ctl.ns → ∃ t f, exec (.timeReqTx n) s = .next t
        ∧ t.pl.port n.val = { p with reqSeq := p.reqSeq + 1, reqAt := (if s.ctl.ns < p.reqAt + 125000 then p.reqAt else s.ctl.ns) + 125000,
                                          queue7 := p.queue7 ++ [f] }
        ∧ f.etype = s.ctl.etypeLink n.val ∧ getByte f.body 0 = 2 ∧ getByte f.body 1 = 1 ∧ getByte f.body 12 = n.val ∧ getByte f.body 13 = 0
        ∧ getBe f.body 14 2 = (p.reqSeq + 1).toNat ∧ getBe f.body 32 2 = 0xFFFF ∧ getByte f.body 34 = l.state.num
        ∧ (getByte f.body 48 ≤ 13 ∨ getByte f.body 48 = 255)
        ∧ (∀ m, m ≠ n.val → t.pl.port m = s.pl.port m) ∧ t = { s with pl := { s.pl with ports := t.pl.ports } })
      ∧ (s.ctl.maySpeak = false ∨ p.group = false ∨ p.peerOk = false ∨ s.ctl.ns < p.reqAt → exec (.timeReqTx n) s = .next s)
      ∧ (∀ a, p.advert = some a →
        (s.ctl.ns ≤ a.since + 500000 → exec (.advertExpiry n) s = .next s)
        ∧ (a.since + 500000 < s.ctl.ns → ∃ t, exec (.advertExpiry n) s = .next t ∧ CtlButTime s t ∧ t.pl.port n.val = { p with advert := none }
            ∧ (∀ m, m ≠ n.val → t.pl.port m = s.pl.port m) ∧ t.ctl.lod.tick = l.tick
            ∧ (l.state = .locked → s.ctl.maySpeak = true → l.parent = some n.val → parentAd s.ctl s.pl (some n.val) = none → t.ctl.lod.state = .holdover)))
      ∧ (p.advert = none → exec (.advertExpiry n) s = .next s))
    ∧ (l.state = .free ∨ s.ctl.maySpeak = false → exec .parentTimeout s = .next s)
    ∧ (l.state ≠ .free → s.ctl.maySpeak = true → ∃ t, exec .parentTimeout s = .next t ∧ only t
      ∧ (∀ n, l.state = .locked → l.parent = some n →
        (lost n → parentAd s.ctl s.pl (some n) = none → t.ctl.lod.state = .holdover ∧ t.ctl.lod.parent = none ∧ t.ctl.lod.distance = 15
          ∧ t.ctl.lod.freq = held ∧ t.ctl.lod.holdAt = s.ctl.ns ∧ sticky t 0)
        ∧ (∀ m a, lost n → parentAd s.ctl s.pl (some n) = some (m, a) → t.ctl.lod.state = .locked ∧ takes t m a ∧ t.ctl.lod.samples = 0
          ∧ flag (t.pl.reg 0x40024) 1 = flag (s.pl.reg 0x40024) 1)
        ∧ (∀ m a, ¬ lost n → parentAd s.ctl s.pl none = some (m, a) → t.ctl.lod.state = .locked ∧ takes t m a
          ∧ (m ≠ n → t.ctl.lod.samples = 0 ∧ flag (t.pl.reg 0x40024) 1 = true) ∧ (m = n → t.ctl.lod.samples = l.samples)))
      ∧ (∀ m a, l.state = .holdover ∨ l.state = .lodestone → parentAd s.ctl s.pl none = some (m, a) → takes t m a
          ∧ t.ctl.lod.state = (if l.served then .locked else .acquiring) ∧ (l.served = true → t.ctl.lod.uncertain = false)))
    ∧ (l.state = .acquiring → s.ctl.maySpeak = true → bestAd s.ctl s.pl none = none → ∃ t, exec .candidateTimeout s = .next t ∧ only t
        ∧ t.ctl.lod.state = .acquiring ∧ (l.claimAt ≠ 0 → l.claimAt + 1000000 ≤ s.ctl.ns → t.ctl.lod.candidate = true)
        ∧ (s.ctl.ns < l.claimAt + 1000000 → t.ctl.lod.candidate = l.candidate))
    ∧ (l.state = .acquiring → s.ctl.maySpeak = true → (bestAd s.ctl s.pl none).isSome = true → ∃ t, exec .candidateTimeout s = .next t ∧ only t
        ∧ t.ctl.lod.candidate = false)
    ∧ (l.state = .acquiring ∨ l.state = .locked ∨ l.state = .holdover → s.ctl.maySpeak = true → s.ctl.candidate = true →
        (l.state = .acquiring → bestAd s.ctl s.pl none = none) → (∀ k, parentAd s.ctl s.pl k = none) →
        (l.quietAt ≠ 0 → l.quietAt + 500000 ≤ s.ctl.ns → ∃ t, exec .lodestoneClaim s = .next t ∧ only t ∧ t.ctl.lod.state = .lodestone
          ∧ t.ctl.lod.parent = none ∧ t.ctl.lod.distance = 0 ∧ t.ctl.lod.uncertain = false ∧ t.ctl.lod.lodeNode = s.ctl.selfNode
          ∧ t.ctl.lod.lodePriority = s.ctl.group.priority ∧ t.ctl.lod.lodeSerial = s.ctl.flash.serial ∧ flag (t.pl.reg 0x40024) 2 = true)
        ∧ (l.state ≠ .locked → s.ctl.ns < l.quietAt + 500000 → ∃ t, exec .lodestoneClaim s = .next t ∧ only t ∧ t.ctl.lod.state = l.state))
    ∧ (l.state = .holdover → l.uncertain = false → l.holdAt + bits (s.pl.reg 0x40020) 15 0 * 1000000 ≤ s.ctl.ns → ∃ t e,
        exec .holdoverLimit s = .next t ∧ t.ctl = { s.ctl with lod := { l with uncertain := true }, flt := t.ctl.flt } ∧ sticky t 5
        ∧ t.ctl.flt.hist = (e :: s.ctl.flt.hist).take 32 ∧ e.source = 0x281 ∧ e.cause = 0x08 ∧ t.pl.mem = s.pl.mem)
    ∧ (l.state ≠ .holdover ∨ l.uncertain = true ∨ s.ctl.ns < l.holdAt + bits (s.pl.reg 0x40020) 15 0 * 1000000 →
        exec .holdoverLimit s = .next s)

/-- R373, R374, R379, R383 to R386: a REQ is answered with a RESP of its SEQ; the RESP whose PREV_SEQ names an exchange with its four stamps completes it: on the parent
port the delay is filtered, an unserved counter more than 4,000 ticks off is stepped, and else the loop's integral and frequency move by the
offset; a delay more than 16 ticks off after 8 samples is rejected. A LODESTONE takes a PTP Sync, Follow_Up and Delay_Resp of its master, in frames that a
TIME filter steers to it, by the table of R384 and runs the same loop with the Sync interval and ±10 ppm; any other message only sets PTP_DISCARD; 3 s
without a Follow_Up clear PTP_LOCKED. -/
def Obligations.CountersAreDisciplined : Prop :=
  ∀ s : State, Quiet s →
    let l := s.ctl.lod
    let ppt : Int := 10 ^ 12
    let rate (o : Int) (ticks : Nat) : Int := (o * ppt).tdiv (2 * max 1 ticks : Nat)
    let stuck (t : State) (b : Nat) : Prop := flag (t.pl.reg 0x40024) b = true
    let servoed (t : State) (o : Int) (ticks : Nat) (limit : Int) : Prop :=
      (l.served = false → 8000 < o.natAbs → t.ctl.lod.tick = BitVec.ofNat 64 ((l.tick.toNat : Int) + o.tdiv 2).toNat ∧ stuck t 3
        ∧ t.ctl.lod.freq = l.freq ∧ t.ctl.lod.integ = l.integ)
      ∧ (l.served = true ∨ o.natAbs ≤ 8000 → t.ctl.lod.tick = l.tick ∧ t.ctl.lod.integ = l.integ + (rate o ticks).tdiv 64
        ∧ t.ctl.lod.freq = (let f := l.integ + (rate o ticks).tdiv 64 + (rate o ticks).tdiv 4
            if f < -limit then -limit else if limit < f then limit else f))
    let timeFrame (f : RxFrame) (role : Nat) : Prop := (macIn s.ctl s.pl f).1 = some f.frame ∧ (s.pl.port f.port.val).group = true
      ∧ f.frame.etype = s.ctl.etypeLink f.port.val ∧ getByte f.frame.body 0 = 2 ∧ getByte f.frame.body 1 = 1
      ∧ getBe f.frame.body 8 4 = s.ctl.group.groupId ∧ getBe f.frame.body 4 4 % 2 ^ 20 = (s.pl.port f.port.val).peerNode
      ∧ getByte f.frame.body 13 = role ∧ fenceOf s.ctl s.pl (s.pl.port f.port.val).peerNode = none ∧ s.ctl.maySpeak = true
      ∧ ((afterMac s f).pl.port f.port.val).peerOk = true
    let heard (f : RxFrame) : Advert := let b := f.frame.body
      { state := getByte b 34, priority := getByte b 35, serial := BitVec.ofNat 64 (getBe b 36 8), node := getBe b 44 4 % 2 ^ 20
        sender := getBe b 4 4 % 2 ^ 20, distance := getByte b 48, since := s.ctl.ns }
    (∀ f : RxFrame, timeFrame f 0 → ∃ t r, exec (.timeReqRx f) s = .next t ∧ t.ctl.dev = s.ctl.dev
      ∧ (t.pl.port f.port.val).advert = some (heard f) ∧ (t.pl.port f.port.val).queue7 = ((afterMac s f).pl.port f.port.val).queue7 ++ [r]
      ∧ r.etype = s.ctl.etypeLink f.port.val ∧ getByte r.body 0 = 2 ∧ getByte r.body 13 = 1
      ∧ getBe r.body 14 2 = getBe f.frame.body 14 2 ∧ (∃ e : Int, -2 ≤ e ∧ e ≤ 2 ∧
          BitVec.ofNat 64 (getBe r.body 16 8) = BitVec.ofInt 64 ((l.tick.toNat : Int) + e)))
    ∧ (∀ f : RxFrame, timeFrame f 1 →
      let n := f.port.val
      let p := s.pl.port n
      let prev := BitVec.ofNat 16 (getBe f.frame.body 32 2)
      let seq := BitVec.ofNat 16 (getBe f.frame.body 14 2)
      ((∀ y ∈ ((afterMac s f).pl.port n).exch, y.seq ≠ prev) → ∃ t, exec (.timeRespRx f) s = .next t ∧ (t.pl.port n).advert = some (heard f)
        ∧ t.ctl.lod.tick = l.tick ∧ t.ctl.lod.integ = l.integ ∧ (t.pl.port n).fdelay = p.fdelay)
      ∧ (∀ x t2 t4, ((afterMac s f).pl.port n).exch.find? (·.seq == prev) = some x → seq ≠ prev → x.t2 = some t2 → x.t4 = some t4 →
        let t3 := BitVec.ofNat 64 (getBe f.frame.body 24 8)
        let delay := (t4 - x.t1).toInt - (t3 - t2).toInt
        let o := (t2 - x.t1).toInt - (t4 - t3).toInt - 2 * ((s.pl.reg (Reg.timeAsym n)).setWidth 16).toInt
        (l.parent = some n → l.state = .acquiring ∨ l.state = .locked → 2 ≤ getByte f.frame.body 34 → getByte f.frame.body 34 ≤ 4 →
          getByte f.frame.body 48 < s.ctl.group.maxHops → fenceOf s.ctl s.pl (getBe f.frame.body 44 4 % 2 ^ 20) = none →
          (l.samples < 8 ∨ filterFar p.fsamples p.fdelay delay = false → ∃ t, exec (.timeRespRx f) s = .next t ∧ servoed t o 500000 250000000
            ∧ (let k := if l.samples = 0 then 0 else p.fsamples
              (t.pl.port n).fdelay = filterStep k p.fdelay delay ∧ (t.pl.port n).fsamples = k + 1))
          ∧ (8 ≤ l.samples → filterFar p.fsamples p.fdelay delay = true → ∃ t, exec (.timeRespRx f) s = .next t ∧ stuck t 8
            ∧ t.ctl.lod.tick = l.tick ∧ t.ctl.lod.integ = l.integ ∧ (t.pl.port n).fdelay = p.fdelay))
        ∧ (l.parent ≠ some n → l.state = .acquiring ∨ (l.state = .lodestone ∧ l.parent = none) → ∃ t, exec (.timeRespRx f) s = .next t
            ∧ t.ctl.lod.tick = l.tick ∧ t.ctl.lod.integ = l.integ ∧ t.ctl.lod.freq = l.freq
            ∧ (t.pl.port n).fdelay = filterStep p.fsamples p.fdelay delay ∧ (t.pl.port n).fsamples = p.fsamples + 1)))
    ∧ (∀ f : RxFrame, (macIn s.ctl s.pl f).1 = some f.frame → steer s.ctl f.port.val (s.pl.port f.port.val) f.frame = .time →
      let m := ptpOf f.port f.frame
      let u := afterMac s f
      let master (regs : List Word) : Prop := l.state = .lodestone ∧ flag (ptpWord regs 0) 0 = true ∧ f.port.val = bits (ptpWord regs 0) 6 1
        ∧ m.source = ptpWord regs 2 ++ ptpWord regs 1 ∧ m.sourcePort.toNat = bits (ptpWord regs 3) 15 0
      let now := ptpRegs s.pl
      let eff := l.ptpEff
      let at_ (correction : Int) : DWord := BitVec.ofInt 64 (((m.seconds * 1000000000 + m.nanos : Nat) : Int) * 4 + correction * 4)
        + (ptpWord eff 5 ++ ptpWord eff 4)
      let sync : Prop := m.kind = 0 ∧ master now ∧ m.version = 2 ∧ m.domain = bits (ptpWord now 0) 23 16 ∧ m.twoStep = true
      let follow : Prop := m.kind = 8 ∧ master eff ∧ l.ptpSeq = some m.seqId
      let resp : Prop := m.kind = 9 ∧ master eff ∧ m.reqClock = ptpClock s.ctl m.port.val ∧ m.reqPort = 1 ∧ l.ptpReq = some m.seqId
      (sync → ∃ t, exec (.syncRx f) s = .next t ∧ (∃ e : Int, -2 ≤ e ∧ e ≤ 2 ∧ t.ctl.lod.ptpT2 = BitVec.ofInt 64 ((l.tick.toNat : Int) + e))
        ∧ t.ctl.lod = { l with ptpEff := now, ptpSeq := some m.seqId, ptpT1 := none, ptpT2 := t.ctl.lod.ptpT2
                               ptpInterval := m.intervalTicks }
        ∧ CtlButTime s t ∧ t.pl = { u.pl with seq := t.pl.seq })
      ∧ (¬ sync → exec (.syncRx f) s = .next s)
      ∧ (follow → s.ctl.maySend = true → ∃ t r, exec (.followUpRx f) s = .next t ∧ CtlButTime s t
        ∧ t.ctl.lod = { l with ptpT1 := some (at_ m.correction), ptpReq := some l.ptpReqNext, ptpReqNext := l.ptpReqNext + 1, ptpT3 := none, ptpAt := s.ctl.ns }
        ∧ (t.pl.port f.port.val).queue7 = (u.pl.port f.port.val).queue7 ++ [r]
        ∧ (bits (ptpWord eff 0) 8 7 = 0 → r.da = 0x011B19000000 ∧ r.etype = 0x88F7)
        ∧ (bits (ptpWord eff 0) 8 7 = 1 → r.da = 0x01005E000181 ∧ r.etype = 0x0800)
        ∧ (bits (ptpWord eff 0) 8 7 = 2 → r.da = 0x333300000181 ∧ r.etype = 0x86DD))
      ∧ (follow → s.ctl.maySend = false → ∃ t, exec (.followUpRx f) s = .next t ∧ CtlButTime s t ∧ t.pl = u.pl
        ∧ t.ctl.lod = { l with ptpT1 := some (at_ m.correction), ptpReq := none, ptpT3 := none, ptpAt := s.ctl.ns })
      ∧ (¬ follow → exec (.followUpRx f) s = .next s)
      ∧ (¬ resp → exec (.delayRespRx f) s = .next s)
      ∧ (resp → l.ptpT1 = none ∨ l.ptpT3 = none → exec (.delayRespRx f) s = .next u)
      ∧ (resp → ∀ t1 t3, l.ptpT1 = some t1 → l.ptpT3 = some t3 →
        let delay := (at_ (-m.correction) - t1).toInt - (t3 - l.ptpT2).toInt
        let o := (at_ (-m.correction) - t3).toInt - (l.ptpT2 - t1).toInt
        let sets := if o.natAbs ≤ 80 then l.ptpSets + 1 else 0
        (l.samples < 8 ∨ filterFar l.samples l.fdelay delay = false → ∃ t, exec (.delayRespRx f) s = .next t ∧ servoed t o l.ptpInterval 10000000
          ∧ t.ctl.lod.ptpOffset = o ∧ t.ctl.lod.samples = l.samples + 1 ∧ t.ctl.lod.fdelay = filterStep l.samples l.fdelay delay
          ∧ t.ctl.lod.ptpSets = sets ∧ t.ctl.lod.ptpLocked = (l.ptpLocked || decide (8 ≤ sets)))
        ∧ (8 ≤ l.samples → filterFar l.samples l.fdelay delay = true → ∃ t, exec (.delayRespRx f) s = .next t ∧ stuck t 8
          ∧ t.ctl.lod = { l with ptpT1 := none, ptpOffset := o, ptpSets := sets, ptpLocked := l.ptpLocked || decide (8 ≤ sets) }))
      ∧ (sync ∨ follow ∨ resp → exec (.ptpDiscard f) s = .next s)
      ∧ (¬ sync → ¬ follow → ¬ resp → ∃ t, exec (.ptpDiscard f) s = .next t ∧ stuck t 6
        ∧ t.ctl = { s.ctl with lod := { l with ptpEff := t.ctl.lod.ptpEff } } ∧ (m.kind ≠ 0 → t.ctl = s.ctl)
        ∧ (∀ a, a ≠ 0x40024 → t.pl.reg a = u.pl.reg a) ∧ t.pl = { u.pl with regs := t.pl.regs }))
    ∧ (l.state = .lodestone → flag (s.pl.reg 0x40100) 0 = true → l.ptpAt + 3000000000 ≤ s.ctl.ns → ∃ t, exec .ptpLost s = .next t ∧ stuck t 7
        ∧ t.ctl = { s.ctl with lod := { l with
            ptpLocked := false, ptpSets := 0, ptpAt := s.ctl.ns
            freq := if l.recent = [] then l.freq else clampInt (-250000000) 250000000 (l.recent.sum.tdiv l.recent.length) } }
        ∧ (∀ a, a ≠ 0x40024 → t.pl.reg a = s.pl.reg a) ∧ t.pl = { s.pl with regs := t.pl.regs })
    ∧ (l.state ≠ .lodestone ∨ flag (s.pl.reg 0x40100) 0 = false ∨ s.ctl.ns < l.ptpAt + 3000000000 → exec .ptpLost s = .next s)

/-! ### Collectives -/

/-- R414, R417 to R422, R428, R434: an engine with a free slot starts its next collective. A chunk for a collective that has not started is answered COLL_ACK CODE 1, one for a collective
that has completed CODE 0 (the model's choice, log 153). An addend is checked, added once, acknowledged, or answered with CODE 2 or
COLL_RESEND; a result or data chunk with the right CRC is placed once and released, and the last one completes the entry once its own
addends are acknowledged (log 154); one of another length than the chunk it names is BAD_PACKET (log 155); a release is taken off what is
unreleased; CODE 1 and 2 put the next send off; COLL_RESEND makes the source or producer send again. A chunk not released in time is sent
again, at the limit that held at its last send the collective closes; a computational fault sums the chunk again or closes the
collective. -/
def Obligations.CollectiveChunksMove : Prop :=
  (∀ (s : State) (q : QuadId), Quiet s →
    let mine := s.pl.col.colls.filter (·.engine == q.val)
    let slot (j : Nat) : Prop := j < 8 ∧ ∀ y ∈ mine, y.state = .waiting ∨ y.slot ≠ j
    ((∀ y ∈ mine, y.state ≠ .waiting) ∨ (∀ j, ¬ slot j) ∨ s.ctl.halted (0x1C4 + q.val) q.val = true → exec (.collectiveStart q) s = .next s)
    ∧ (∀ x j, s.ctl.halted (0x1C4 + q.val) q.val = false → mine.find? (·.state == .waiting) = some x → slot j → (∀ i, i < j → ¬ slot i) → ∃ d,
        exec (.collectiveStart q) s = .next (settle { s with pl := d })
        ∧ (∀ y, d.coll x.comm x.ident = some y → (y.state = .active ∨ y.state = .closing) ∧ y.slot = j)
        ∧ ∀ comm ident, comm ≠ x.comm ∨ ident ≠ x.ident → d.coll comm ident = s.pl.coll comm ident))
  ∧ (∀ (s : State) (f : RxFrame) (raw : List Byte) (ce : Bool) (p : Pkt), Quiet s → PacketIn s f raw ce p → Unfenced s p → collPktOk p = true →
    let h := collHdr p.ext
    let d := (afterMac s f).pl
    let here := s.pl.coll h.comm h.ident
    let chunks := [((0 : Nat), Instr.addendChunkRx f), (1, .resultChunkRx f), (2, .dataChunkRx f)]
    let acks := [((0 : Nat), Instr.collAckRx f), (1, .collNotStartedRx f), (2, .collNoCreditRx f)]
    let sticks (t : State) (b : Nat) : Prop := flag (t.pl.reg 0x70000C) b = true
    let resend := bits (s.pl.reg 0x700004) 15 0 * 1000
    let limit := bits (s.pl.reg 0x700004) 23 16
    let kept (t : State) : Prop := t.ctl = s.ctl ∧ t.pl.mem = s.pl.mem ∧ t.pl.col = s.pl.col ∧ t.pl.rings = s.pl.rings
    let done : Prop := here = none ∧ ∃ k ∈ s.pl.col.kept, k.late = false ∧ k.comm = h.comm ∧ k.ident = h.ident
    (∀ y ∈ chunks, p.ptype = 0x30 → h.code = y.1 → (∀ x, here = some x → x.state = .waiting) → ∃ t, exec y.2 s = .next t ∧ kept t
      ∧ (¬ done → t.pl = ackIdle s.ctl d p 1)
      ∧ (done → t.pl = ackIdle s.ctl (if y.1 = 0 then d.colStick .duplicate else d) p 0))
    ∧ (∀ y ∈ acks, p.ptype = 0x31 → h.code = y.1 → (∀ x, here = some x → x.state = .waiting) → exec y.2 s = .next (afterMac s f))
    ∧ (∀ x, here = some x → x.state = .active →
      (∀ y ∈ chunks, p.ptype = 0x30 → h.code = y.1 → h.sig ≠ x.sig → ∃ d, exec y.2 s = .next (settle { s with pl := d })
        ∧ flag (d.reg 0x70000C) 4 = true ∧ ∀ z, d.coll h.comm h.ident = some z → z.state = .closing)
      ∧ (h.sig = x.sig →
        (∀ y ∈ chunks, p.ptype = 0x30 → h.code = y.1 → h.op ≠ x.op ∨ h.dst ≠ x.rank ∨ x.node h.src ≠ p.src → ∃ t, exec y.2 s = .next t
          ∧ kept t ∧ sticks t 8)
        ∧ (h.op = x.op → h.dst = x.rank → x.node h.src = p.src → x.aborting s.pl = false →
          (p.ptype = 0x30 → h.code = 0 →
            let a := x.addendAt h.chunk h.src
            let old := (x.prods.find? (·.chunk == a.1)).getD { chunk := a.1 }
            let due := sums x.op = true ∧ a.1 ∈ x.owned ∧ a.2 ∈ x.addends a.1 ∧ p.payload.length = elemBytes x.inFmt (x.elems h.chunk)
            let queue := s.pl.queue (engineQueue x.engine x.slot)
            (¬ due → ∃ t, exec (.addendChunkRx f) s = .next t ∧ kept t ∧ sticks t 8)
            ∧ (due → crc32c p.payload ≠ h.crc → ∃ t, exec (.addendChunkRx f) s = .next t ∧ kept t ∧ sticks t 0
                ∧ t.pl = sendCollControl s.ctl (d.colStick .addendCrc) x 0x32 0 h.src h.chunk)
            ∧ (due → crc32c p.payload = h.crc → a.2 ∈ old.added → ∃ t, exec (.addendChunkRx f) s = .next t ∧ kept t ∧ sticks t 2
                ∧ t.pl = sendCollControl s.ctl (d.colStick .duplicate) x 0x31 0 h.src h.chunk)
            ∧ (due → crc32c p.payload = h.crc → a.2 ∉ old.added → stgWrite (engineQueue x.engine x.slot) queue { bytes := p.payload, index := h.chunk, producer := 0 } = none →
                ∃ t, exec (.addendChunkRx f) s = .next t ∧ kept t ∧ t.pl = sendCollControl s.ctl d x 0x31 2 h.src h.chunk)
            ∧ (due → crc32c p.payload = h.crc → a.2 ∉ old.added → (∃ w ∈ x.addends a.1, w ≠ a.2 ∧ w ∉ old.added) → x.toSend = [] → x.allReleased = false →
                (stgWrite (engineQueue x.engine x.slot) queue { bytes := p.payload, index := h.chunk, producer := 0 }).isSome = true → ∃ t z,
                exec (.addendChunkRx f) s = .next t ∧ t.ctl = s.ctl ∧ t.pl.mem = s.pl.mem ∧ t.pl.rings = s.pl.rings
                ∧ t.pl.coll h.comm h.ident = some { x with prods := z } ∧ z.find? (·.chunk == a.1) = some { old with
                    added := old.added ++ [a.2], acc := pushAll old.acc (x.values a.1 p.payload) }
                ∧ ∀ c, c ≠ a.1 → z.find? (·.chunk == c) = x.prods.find? (·.chunk == c)))
          ∧ (∀ y ∈ [((1 : Nat), Instr.resultChunkRx f), (2, .dataChunkRx f)], p.ptype = 0x30 → h.code = y.1 →
            let key := x.placedKey h.chunk h.src
            let ok : Prop := x.chunkOk h.chunk h.src = true ∧ (y.1 = 1 ↔ sums x.op = true)
              ∧ p.payload.length = elemBytes x.placeFmt (x.elems h.chunk)
            (¬ ok → ∃ t, exec y.2 s = .next t ∧ kept t ∧ sticks t 8)
            ∧ (ok → crc32c p.payload ≠ h.crc → ∃ t, exec y.2 s = .next t ∧ kept t ∧ sticks t 1
                ∧ t.pl = sendCollControl s.ctl (d.colStick .resultCrc) x 0x32 0 (x.producer h.chunk h.src) h.chunk)
            ∧ (ok → crc32c p.payload = h.crc → x.toSend = [] →
              (key ∈ x.placed → x.allReleased = false → ∃ t, exec y.2 s = .next t ∧ kept t)
              ∧ (∀ n d', key ∉ x.placed → x.writeChunk s.ctl d h.chunk h.src p.payload = (.ok n, d') → d'.effects = [] →
                (x.allReleased = false → ∃ t, exec y.2 s = .next t ∧ t.pl.mem = d'.mem ∧ t.pl.host = d'.host
                  ∧ t.pl.coll h.comm h.ident = some { x with placed := x.placed ++ [key], bytes := x.bytes + n })
                ∧ (∀ m e, x.allReleased = true → x.expected = some m → m ≤ x.placed.length + 1 → x.op ≠ 6 → s.pl.entry x.ring x.index = some e →
                    e.phase ≠ .aborting → e.lost = false → e.nocomp = false → e.timed = false ∨ s.ctl.lod.tick.toNat < e.deadline → CompRing s x.ring → ∃ t,
                    exec y.2 s = .next t ∧ t.pl.mem = d'.mem ∧ Completes s t x.ring e 0 (e.resultWith x.result) (min (x.bytes + n) 0xFFFFFFFF) 0
                    ∧ ∀ z ∈ t.pl.col.colls, z.comm ≠ h.comm ∨ z.ident ≠ h.ident))))
          ∧ (p.ptype = 0x31 → h.code = 0 → x.toSend = [] → (∀ z ∈ x.prods, z.result.isSome = true) →
            let z := { x with
              sending := x.sending.filter fun y => !(y.chunk == h.chunk && y.dest == h.src)
              prods := modFirst (fun p => x.op != 7 && p.chunk == h.chunk) (fun p => { p with released := p.released ++ [h.src] }) x.prods }
            (z.allReleased = false → ∃ t, exec (.collAckRx f) s = .next t ∧ t.ctl = s.ctl ∧ t.pl.coll h.comm h.ident = some z ∧ t.pl.mem = s.pl.mem)
            ∧ (∀ m e, z.allReleased = true → x.expected = some m → m ≤ x.placed.length → x.op ≠ 6 → s.pl.entry x.ring x.index = some e →
                e.phase ≠ .aborting → e.lost = false → e.nocomp = false → e.timed = false ∨ s.ctl.lod.tick.toNat < e.deadline → CompRing s x.ring → ∃ t,
                exec (.collAckRx f) s = .next t ∧ t.pl.mem = s.pl.mem ∧ Completes s t x.ring e 0 (e.resultWith x.result) (min x.bytes 0xFFFFFFFF) 0))
          ∧ (∀ y ∈ [((1 : Nat), (none : Option Nat), Instr.collNotStartedRx f), (2, some 2000, .collNoCreditRx f)],
              p.ptype = 0x31 → h.code = y.1 → ∃ t, exec y.2.2 s = .next t ∧ t.ctl = s.ctl ∧ t.pl.mem = s.pl.mem
              ∧ t.pl.coll h.comm h.ident = some { x with sending := x.sending.map fun z =>
                  if z.chunk == h.chunk && z.dest == h.src then { z with sends := 0, resendAt := s.ctl.ns + y.2.1.getD z.period } else z })
          ∧ (p.ptype = 0x32 → x.op = 1 → x.producer h.chunk x.rank = x.rank → ∃ t z, exec (.collResendRx f) s = .next t ∧ t.ctl = s.ctl
              ∧ t.pl.mem = s.pl.mem ∧ t.pl.rings = s.pl.rings ∧ t.pl.coll h.comm h.ident = some { x with sending := z }
              ∧ z.map (fun y => (y.chunk, y.dest, y.code)) = x.sending.map (fun y => (y.chunk, y.dest, y.code))
              ∧ (∀ y ∈ z, y ∈ x.sending ∨ y.resendAt = s.ctl.ns + resend)
              ∧ ∀ c i, c ≠ h.comm ∨ i ≠ h.ident → t.pl.coll c i = s.pl.coll c i)
          ∧ (p.ptype = 0x32 → sums x.op = false → (∀ y ∈ x.sending, y.chunk ≠ h.chunk ∨ y.dest ≠ h.src) → exec (.collResendRx f) s = .next (afterMac s f))
          ∧ (p.ptype = 0x32 → sums x.op = true → x.op = 7 ∨ x.producer h.chunk x.rank ≠ x.rank →
            let sent := { x with sending := modFirst (fun y => y.chunk == h.chunk && y.dest == h.src) (fun y => { y with
              sends := y.sends + 1, resendAt := s.ctl.ns + resend, limit := limit, period := resend }) x.sending }
            let next := { x with toSend := [(h.chunk, h.src)] }
            ((∃ y ∈ x.sending, y.chunk = h.chunk ∧ y.dest = h.src) →
              ∀ bs d', Coll.readChunk s.ctl (d.putColl sent) sent h.chunk h.src = (.ok bs, d') → d'.effects = [] →
              ∃ t, exec (.collResendRx f) s = .next t ∧ t.pl.coll h.comm h.ident = some sent ∧ t.pl.mem = d'.mem)
            ∧ ((∀ y ∈ x.sending, y.chunk ≠ h.chunk ∨ y.dest ≠ h.src) →
              ((h.chunk, h.src) ∈ x.toSend ∨ (h.chunk, h.src) ∉ x.outgoing → exec (.collResendRx f) s = .next (afterMac s f))
              ∧ ((h.chunk, h.src) ∈ x.outgoing → x.toSend = [] → h.src ≠ x.rank → x.unreleased h.src < 8 →
                (∀ e, s.pl.entry x.ring x.index = some e → e.phase ≠ .faulted) →
                ∀ bs d', Coll.readChunk s.ctl (d.putColl next) next h.chunk h.src = (.ok bs, d') → d'.effects = [] →
                ∃ t, exec (.collResendRx f) s = .next t ∧ t.pl.coll h.comm h.ident = some { x with
                    sending := x.sending ++ [{ chunk := h.chunk, dest := h.src, code := 0, sends := 1, resendAt := s.ctl.ns + resend
                                               limit := limit, period := resend }] } ∧ t.pl.mem = d'.mem)))))))
  ∧ (∀ (s : State) (comm : Nat) (id : DWord) (chunk dest : Nat), Quiet s →
    let limit := bits (s.pl.reg 0x700004) 23 16
    let due := exec (.chunkResendTimeout comm id chunk dest) s
    (s.pl.coll comm id = none → due = .next s ∧ exec (.collComputeFault comm id chunk) s = .next s)
    ∧ (∀ x, s.pl.coll comm id = some x →
      let mine (y : Sending) : Bool := y.chunk == chunk && y.dest == dest
      (x.sending.find? mine = none → due = .next s)
      ∧ (∀ y, x.sending.find? mine = some y →
        (s.ctl.ns < y.resendAt → due = .next s)
        ∧ (y.resendAt ≤ s.ctl.ns → x.state = .active → x.aborting s.pl = false →
          (y.limit ≤ y.sends → ∃ d, due = .next (settle { s with pl := d }) ∧ flag (d.reg 0x70000C) 6 = true
            ∧ ∀ z, d.coll comm id = some z → z.state = .closing ∧ z.reason = 2 ∧ z.note.cause.testBit 1 = true)
          ∧ (∀ bs, y.sends < y.limit → y.code = 1 → (x.prods.find? (·.chunk == chunk)).bind (·.result) = some bs → ∃ t, due = .next t
            ∧ t.ctl = s.ctl ∧ flag (t.pl.reg 0x70000C) 3 = true ∧ t.pl.mem = s.pl.mem
            ∧ t.pl.coll comm id = some { x with sending := modFirst mine (fun z => { z with
                sends := z.sends + 1, resendAt := s.ctl.ns + bits (s.pl.reg 0x700004) 15 0 * 1000, limit := limit
                period := bits (s.pl.reg 0x700004) 15 0 * 1000 }) x.sending })))
      ∧ (x.state ≠ .active → exec (.collComputeFault comm id chunk) s = .next s)
      ∧ (x.state = .active → ∃ d, exec (.collComputeFault comm id chunk) s = .next (settle { s with pl := d })
        ∧ flag (d.reg 0x70000C) 5 = true ∧ Effect.adderParity x.engine x.part ∈ d.effects
        ∧ (∀ y z, x.prods.find? (·.chunk == chunk) = some y → y.result.isSome = true → d.coll comm id = some z →
            z.state = .closing ∧ z.note.cause.testBit 1 = true)
        ∧ (∀ y z w, x.prods.find? (·.chunk == chunk) = some y → y.result = none → x.op ≠ 7 → d.coll comm id = some z →
            z.prods.find? (·.chunk == chunk) = some w → ∀ r ∈ w.added, r = x.rank))))

/-- R390, R391, R430 to R432, R435, R436, R438: a LATE notice completes the member's collective LATE with reason 2 and the late node, waits for an entry not yet fetched, and
is ignored once the collective closes. An MQ_CLOSE of a finished collective is answered with its kept note, and starts or advances the
closing exchange of one that runs; equal notes of every live member complete it. An MQ_DATA is held for a collective not started,
refused without a buffer, taken once by a leader, and written as the result by a member; a contribution that comes again is answered with
the result, also when the collective has finished; one of the wrong phase, rank or length is BAD_PACKET (the model's choice, log 155).
MQ_RESEND_US restarts with each resend. -/
def Obligations.MelquinPacketsAreTaken : Prop :=
  (∀ (s : State) (f : RxFrame) (raw : List Byte) (ce : Bool) (p : Pkt), Quiet s → PacketIn s f raw ce p → Unfenced s p →
    let h := mqHdr p.ext
    let d := (afterMac s f).pl
    let here := s.pl.coll h.comm h.ident
    let same := exec (.mqLateRx f) s = .next (afterMac s f)
    let refused (t : State) (b : Nat) : Prop := t = { s with pl := d.stick 0x70000C (BitVec.ofNat 32 (2 ^ b)) }
    let back (t : State) : Prop := t = { s with pl := { d with ports := t.pl.ports } }
      ∧ ∀ m r, s.ctl.maySpeak = true → s.ctl.route p.src = some r → r.fabric = false → (usableHops s.ctl d r 7 true).head? = some m →
        ∃ g, (t.pl.port m).queue7 = (d.port m).queue7 ++ [g]
    let answered : Prop := ∃ t, exec (.mqDataRx f) s = .next t ∧ back t
    let ends (x : Coll) (e : Fetched) : Prop := s.pl.entry x.ring x.index = some e ∧ e.phase ≠ .aborting ∧ e.lost = false ∧ e.nocomp = false
      ∧ (e.timed = false ∨ s.ctl.lod.tick.toNat < e.deadline) ∧ CompRing s x.ring
    let gone (t : State) : Prop := ∀ z ∈ t.pl.col.colls, z.comm ≠ h.comm ∨ z.ident ≠ h.ident
    (∀ y ∈ [((0x34 : Nat), Instr.mqDataRx f), (0x35, .mqLateRx f), (0x36, .mqCloseRx f)], p.ptype = y.1 → mqPktOk p = false → ∃ t, exec y.2 s = .next t ∧ refused t 8)
    ∧ (mqPktOk p = true →
      (p.ptype = 0x35 →
        let node := getBe p.payload 0 4 % 2 ^ 20
        (∀ x, here = some x → x.state = .closing → same)
        ∧ (∀ x, here = some x → x.state ≠ .closing → h.sig ≠ x.sig → ∃ d, exec (.mqLateRx f) s = .next (settle { s with pl := d })
            ∧ flag (d.reg 0x70000C) 4 = true)
        ∧ (∀ x e, here = some x → x.state ≠ .closing → h.sig = x.sig → ends x e → ∃ t, exec (.mqLateRx f) s = .next t ∧ t.ctl = s.ctl ∧ gone t ∧ t.pl.mem = s.pl.mem
            ∧ Completes s t x.ring e 4 (e.resultWith x.result) (min x.bytes 0xFFFFFFFF) (BitVec.ofNat 32 (2 + 256 * node)))
        ∧ (here = none → collEntry s.pl h.comm h.ident = none → (∃ k ∈ s.pl.col.kept, k.comm = h.comm ∧ k.ident = h.ident) → same)
        ∧ (here = none → collEntry s.pl h.comm h.ident = none → (∀ k ∈ s.pl.col.kept, k.comm ≠ h.comm ∨ k.ident ≠ h.ident) → ∃ t, exec (.mqLateRx f) s = .next t
            ∧ t = { s with pl := { d with col := { d.col with kept := s.pl.col.kept ++ [{ comm := h.comm, ident := h.ident, node := node, late := true }] } } })
        ∧ (∀ k i e, here = none → collEntry s.pl h.comm h.ident = some (k, i) → s.pl.entry k i = some e → paramSig e.raw = h.sig → e.phase ≠ .aborting → e.lost = false → e.nocomp = false →
            e.timed = false ∨ s.ctl.lod.tick.toNat < e.deadline → CompRing s k → ∃ t, exec (.mqLateRx f) s = .next t ∧ t.ctl = s.ctl
            ∧ Completes s t k e 4 (e.resultWith 0) 0 (BitVec.ofNat 32 (2 + 256 * node))))
      ∧ (p.ptype = 0x36 →
        let n := noteOf p.payload
        (here = none → (∀ k ∈ s.pl.col.kept, k.answers = false ∨ k.comm ≠ h.comm ∨ k.ident ≠ h.ident) → exec (.mqCloseRx f) s = .next (afterMac s f))
        ∧ (here = none → (∃ k ∈ s.pl.col.kept, k.answers = true ∧ k.comm = h.comm ∧ k.ident = h.ident) → ∃ t, exec (.mqCloseRx f) s = .next t
            ∧ back t)
        ∧ (∀ x, here = some x → x.state = .waiting → h.op = x.op → h.src < x.size → exec (.mqCloseRx f) s = .next (afterMac s f))
        ∧ (∀ x, here = some x → x.state = .active → h.op = x.op → h.src < x.size → ∃ d, exec (.mqCloseRx f) s = .next (settle { s with pl := d }) ∧ flag (d.reg 0x70000C) 6 = true
            ∧ ∀ z, d.coll h.comm h.ident = some z → z.state = .closing ∧ (h.sig = x.sig → ∀ b, n.cause.testBit b = true → z.note.cause.testBit b = true))
        ∧ (∀ x e, here = some x → x.state = .closing → h.sig = x.sig → h.op = x.op → h.src < x.size → x.noteSent = true → (x.note.merge n).agrees x.note = true → x.report = 0 → ends x e →
            (∀ r ∈ x.others s.ctl s.pl, ∃ y, SMap.find none (SMap.put none x.notes h.src (some n)) r = some y ∧ y.agrees x.note = true) → ∃ t,
            exec (.mqCloseRx f) s = .next t ∧ gone t ∧ Completes s t x.ring e (if x.note.cause % 2 = 1 then 7 else 8) (e.resultWith x.result) (min x.bytes 0xFFFFFFFF)
              (if x.note.cause % 2 = 1 then x.note.epoch else BitVec.ofNat 32 ((if x.reason = 2 then 2 else if x.note.cause.testBit 1 then 0 else 1)
                + 256 * (x.note.chunk % 2 ^ 24)))))
      ∧ (p.ptype = 0x34 →
        (here = none ∨ (∃ x, here = some x ∧ x.state = .waiting) → (here = none → ∀ k ∈ s.pl.col.kept, k.late = true ∨ k.comm ≠ h.comm ∨ k.ident ≠ h.ident) →
          (∀ r, s.ctl.job.comms.find? (·.comm == h.comm) = some r →
            let q := engineOf d r.part
            (mqInUse s.pl q < 256 → exec (.mqDataRx f) s = .next { s with pl := { d with col := { d.col with early := s.pl.col.early ++ [(q, p.bytes)] } } })
            ∧ (256 ≤ mqInUse s.pl q → ∃ t, exec (.mqDataRx f) s = .next t ∧ refused t 7))
          ∧ (s.ctl.job.comms.find? (·.comm == h.comm) = none → ∃ t, exec (.mqDataRx f) s = .next t ∧ refused t 8))
        ∧ (∀ k, here = none → s.pl.col.kept.find? (fun k => !k.late && k.comm == h.comm && k.ident == h.ident) = some k →
          (h.phase ≠ 0 ∨ k.note.cause ≠ 0 ∨ k.result = none → exec (.mqDataRx f) s = .next (afterMac s f))
          ∧ (h.phase = 0 → k.note.cause = 0 → k.result.isSome = true → answered))
        ∧ (∀ x, here = some x → x.state = .active → h.sig = x.sig →
          (h.op ≠ x.op ∨ x.melquin s.ctl = false ∨ x.size ≤ h.src → ∃ t, exec (.mqDataRx f) s = .next t ∧ refused t 8)
          ∧ (h.op = x.op → x.melquin s.ctl = true → h.src < x.size →
            (mqFits x h p.payload.length = false → ∃ t, exec (.mqDataRx f) s = .next t ∧ refused t 8)
            ∧ (mqFits x h p.payload.length = true →
              (h.phase = 2 → x.mqResult.isSome = true → exec (.mqDataRx f) s = .next (afterMac s f))
              ∧ (h.phase = 2 → x.mqResult = none →
                (∀ e, x.op = 8 ∨ (x.op = 4 ∧ x.rank = x.root ∧ x.dst = 0) → ends x e → ∃ t, exec (.mqDataRx f) s = .next t ∧ t.ctl = s.ctl ∧ gone t
                    ∧ t.pl.mem = s.pl.mem ∧ Completes s t x.ring e 0 (e.resultWith x.result) 0 0)
                ∧ (∀ e d', x.op ≠ 8 → ¬ (x.op = 4 ∧ x.rank = x.root ∧ x.dst = 0) → writeVa s.ctl d x.engine x.part x.dst p.payload = (.ok (), d') → d'.effects = [] →
                    ends x e → ∃ t, exec (.mqDataRx f) s = .next t ∧ gone t ∧ t.pl.mem = d'.mem
                    ∧ Completes s t x.ring e 0 (e.resultWith x.result) (min p.payload.length 0xFFFFFFFF) 0))
              ∧ (h.phase = 0 →
                (h.src ∈ x.haveRank → x.mqResult = none → exec (.mqDataRx f) s = .next (afterMac s f))
                ∧ (h.src ∈ x.haveRank → x.mqResult.isSome = true → x.node h.src = p.src → answered)
                ∧ (h.src ∉ x.haveRank → 256 ≤ mqInUse s.pl x.engine → ∃ t, exec (.mqDataRx f) s = .next t ∧ refused t 7)
                ∧ (h.src ∉ x.haveRank → mqInUse s.pl x.engine < 256 → (∃ r, r < x.size ∧ x.contributes r = true ∧ r ≠ h.src ∧ r ∉ x.haveRank) → ∃ t,
                    exec (.mqDataRx f) s = .next t ∧ t.ctl = s.ctl ∧ t.pl.mem = s.pl.mem ∧ t.pl.coll h.comm h.ident = some { x with
                      contrib := SMap.put [] x.contrib h.src p.payload, haveRank := h.src :: x.haveRank })
                ∧ (∀ e, h.src ∉ x.haveRank → mqInUse s.pl x.engine < 256 → x.op = 8 → (∀ r, r < x.size → r = h.src ∨ r ∈ x.haveRank) → ends x e → ∃ t,
                    exec (.mqDataRx f) s = .next t ∧ gone t ∧ t.pl.mem = s.pl.mem ∧ Completes s t x.ring e 0 (e.resultWith { x with
                      saturated := false, nanOut := false, infOut := false }.result) 0 0))
              ∧ (h.phase = 1 →
                (h.src ∈ x.ringRanks → ∃ t, exec (.mqDataRx f) s = .next t ∧ t.pl.col = s.pl.col ∧ t.pl.mem = s.pl.mem ∧ t.ctl = s.ctl)
                ∧ (h.src ∉ x.ringRanks → 256 ≤ mqInUse s.pl x.engine → ∃ t, exec (.mqDataRx f) s = .next t ∧ refused t 7)
                ∧ (h.src ∉ x.ringRanks → mqInUse s.pl x.engine < 256 →
                  (∃ r, r < x.size ∧ x.contributes r = true ∧ r / 8 ≠ h.src / 8 ∧ r ∉ x.haveRank) → ∃ t y, exec (.mqDataRx f) s = .next t ∧ t.ctl = s.ctl
                    ∧ t.pl.mem = s.pl.mem ∧ t.pl.coll h.comm h.ident = some { x with
                      contrib := y, haveRank := ((x.block (h.src / 8)).filter x.contributes) ++ x.haveRank, ringRanks := h.src :: x.ringRanks }
                    ∧ ∀ r ∈ (x.block (h.src / 8)).filter x.contributes, SMap.wf [] x.contrib = true → SMap.find [] y r =
                          slice p.payload (((x.block (h.src / 8)).filter x.contributes).idxOf r * x.contribBytes) x.contribBytes))))))))
  ∧ (∀ (s : State) (comm : Nat) (id : DWord), Quiet s →
    (s.pl.coll comm id = none → exec (.mqResendTimeout comm id) s = .next s)
    ∧ (∀ x, s.pl.coll comm id = some x →
      (s.ctl.ns < x.mqAt → exec (.mqResendTimeout comm id) s = .next s)
      ∧ (x.mqAt ≤ s.ctl.ns → x.state = .active ∨ (x.state = .closing ∧ x.noteSent = true) → ∃ t,
          exec (.mqResendTimeout comm id) s = .next t ∧ t.ctl = s.ctl ∧ t.pl.mem = s.pl.mem ∧ t.pl.rings = s.pl.rings
          ∧ t.pl.coll comm id = some { x with mqAt := s.ctl.ns + bits (s.pl.reg 0x700008) 9 0 * 1000 }
          ∧ (∀ m r, x.state = .active → x.melquin s.ctl = true → x.rank % 8 ≠ 0 → x.rank ∈ x.haveRank → s.ctl.maySpeak = true → s.ctl.route (x.node x.leader) = some r →
              r.fabric = false → (usableHops s.ctl s.pl r 7 true).head? = some m → ∃ g, (t.pl.port m).queue7 = (s.pl.port m).queue7 ++ [g]))))

/-! ### Veins -/

/-- R446, R449, R454, R455, R459 to R472, R475, R476: a stage that is up, has a whole input unit and room for its output takes its turn
when no ready stage of its tile comes before it in the tile's rotation, by the general command or by its kind's, and else does nothing. In a run the unit is read and released and the stage's output goes to the next queue;
REDUCE collects GROUP units; a KEY error stops the run; a failing tag, index or descriptor is noted in the run's status and the run goes on.
SCATTER writes its row and the last unit completes the run. In a receive stream a failed unit passes as zeros. Parked packets of a
queue pair go on when their vein has credit. -/
def Obligations.StagesProcessTheirUnits : Prop :=
  (∀ (s : State) (v : VeinId) (st : StageId), Quiet s →
    let kinds := [((1 : Nat), Instr.unseal v st), (2, .seal v st), (3, .dequantize v st), (4, .quantize v st), (5, .convert v st), (6, .reduce v st),
      (7, .matmul v st), (8, .attention v st), (9, .scatter v st), (10, .gather v st), (11, .pack v st), (12, .unpack v st)]
    (∀ z ∈ kinds, s.ctl.veinRec v.val = none → exec z.2 s = .next s ∧ exec (.veinUnitReady v st) s = .next s)
    ∧ (∀ r sg, s.ctl.veinRec v.val = some r → r.vein = v.val → r.stages[st.val]? = some sg →
      let k := veinQueue v.val st.val
      let k2 := veinQueue v.val (st.val + 1)
      let up : Prop := stageUp s.ctl sg = true ∧ (s.pl.vein v.val).state = .ready ∧ stageWaits s.pl v.val st.val = false
      let turns := kinds.filter (·.1 == sg.kind)
      let room := if st.val + 1 < r.stages.length then cellsOf k2 (unitOut sg) ≤ creditOf k2 (s.pl.queue k2) 0 else True
      let served := SMap.find 0 s.pl.turns sg.tile
      let ready := stageReady s.ctl s.pl r st.val sg
      let turn : Prop := ∀ x ∈ s.ctl.job.veins, ∀ j y, x.stages[j]? = some y → y.tile = sg.tile → stageReady s.ctl s.pl x j y = true →
        (12 * v.val + st.val + 768 - served) % 768 ≤ (12 * x.vein + j + 768 - served) % 768
      (∀ z ∈ kinds, z.1 ≠ sg.kind → exec z.2 s = .next s)
      ∧ (ready = true ↔ up ∧ (r.binding = 0 ∨ r.binding = 3) ∧ ((stgRead (s.pl.queue k)).isSome = true ∨ heldUnits s.pl v.val (outKey st.val) ≠ [])
          ∧ (room ∨ (sg.kind = 6 ∧ (heldUnits s.pl v.val st.val).length + 1 < sg.le 8 4)))
      ∧ (∀ z ∈ turns, exec (.veinUnitReady v st) s = exec z.2 s)
      ∧ (∀ z ∈ turns, ready = false ∨ ¬ turn → exec z.2 s = .next s)
      ∧ (∀ z ∈ turns, up → turn → r.binding = 3 → ∀ x qr y ys, stgRead (s.pl.queue k) = some (x, qr) → (s.pl.vein v.val).runs = y :: ys →
        heldUnits s.pl v.val (outKey st.val) = [] → y.srcLen ≤ y.fed →
        let index := taken s.pl v.val st.val
        let group := heldUnits s.pl v.val st.val
        let mid := st.val + 1 < r.stages.length
        let used (t : State) : Prop := t.pl.queue k = stgRelease qr ∧ taken t.pl v.val st.val = index + 1 ∧ t.pl.cqs = s.pl.cqs
          ∧ t.pl.turns = SMap.put 0 s.pl.turns sg.tile (1 + 12 * v.val + st.val)
        let moved (t : State) (d : Plane) (u : List Byte) : Prop := used t ∧ t.pl.mem = d.mem ∧ t.pl.host = d.host
          ∧ stgWrite k2 (s.pl.queue k2) { bytes := u, cells := cellsOf k2 u.length } = some (t.pl.queue k2)
        let noted (t : State) (err status : Nat) : Prop := ∃ y', (t.pl.vein v.val).runs = y' :: ys ∧ y'.status = (if y.status = 0 then status else y.status)
          ∧ (y.status = 0 → y'.detail = BitVec.ofNat 32 (err + 256 * st.val + 4096 * min index 0xFFFFF))
        let fits (u : List Byte) : Prop := cellsOf k2 u.length ≤ creditOf k2 (s.pl.queue k2) 0
        let vals := rowVals (sg.le 0 1)
        let packed (f : Nat) (l : List Val) : List Byte := packElems (fmtWidth f) (l.map fun a => (roundVal f a).code)
        let arg : Nat → Option Nat := fun i => if sg.le 2 1 = 1 then some (stochU (sg.le 8 8) y.arg.toNat i) else none
        let fill := BitVec.ofNat 8 (sg.le 12 1)
        let bank := SMap.find [] (s.pl.vein v.val).weights st.val
        let column := rowBytes (sg.le 1 1) (sg.le 4 4)
        (∀ u, (sg.kind, u) ∈ [
            ((3 : Nat), packed (sg.le 1 1) (vals (sg.le 4 4) x.bytes)),
            (4, (quantRow (sg.le 1 1) (vals (sg.le 4 4) x.bytes) arg (index * sg.le 4 4)).units.flatten),
            (5, packed (sg.le 1 1) ((vals (sg.le 8 4) x.bytes).map fun a => a.mul (f32 (sg.le 4 4)))),
            (7, packElems (fmtWidth (sg.le 2 1)) ((List.range (sg.le 8 4)).map fun n =>
              let w := rowVals (sg.le 1 1) (sg.le 4 4) (slice bank (n * column) column)
              (roundVal (sg.le 2 1) (if sg.le 0 1 = 6 ∧ sg.le 1 1 = 6 then dotExact (vals (sg.le 4 4) x.bytes) w
                else f32 (dot32 (vals (sg.le 4 4) x.bytes) w))).code)),
            (11, slice x.bytes (sg.le 8 4) (sg.le 4 4)),
            (12, List.replicate (sg.le 8 4) fill ++ x.bytes ++ List.replicate (sg.le 4 4 - sg.le 8 4 - x.bytes.length) fill)] →
          mid → room → fits u → ∃ t, exec z.2 s = .next t ∧ t.ctl = s.ctl ∧ moved t s.pl u)
        ∧ (sg.kind = 6 →
          (group.length + 1 < sg.le 8 4 → 1 ≤ (stgRelease qr).items.length → ∃ t, exec z.2 s = .next t ∧ t.ctl = s.ctl ∧ used t ∧ t.pl.mem = s.pl.mem
            ∧ heldUnits t.pl v.val st.val = group ++ [x.bytes])
          ∧ (∀ u, u = packElems (fmtWidth (sg.le 1 1)) (((group ++ [x.bytes]).foldl (fun as u => pushAll as (vals (sg.le 4 4) u)) []).map fun a =>
                (roundVal (sg.le 1 1) a.outcome).code) →
              sg.le 8 4 ≤ group.length + 1 → mid → room → fits u → ∃ t, exec z.2 s = .next t ∧ t.ctl = s.ctl ∧ moved t s.pl u ∧ heldUnits t.pl v.val st.val = []))
        ∧ (sg.kind ≤ 2 → room → mid →
          let slot := sg.le 0 2
          let key := s.pl.key slot
          let n := sg.le 4 4
          (slotUsable s.pl r.part slot = false → (s.pl.queue k2).items ≠ [] → ∃ t, exec z.2 s = .next t
            ∧ t.ctl = s.ctl ∧ noted t 3 3 ∧ (t.pl.queue k).items = [] ∧ flag (t.pl.reg 0x800000) 2 = true
            ∧ t.pl.queue k2 = s.pl.queue k2 ∧ t.pl.mem = s.pl.mem)
          ∧ (∀ kx d', sg.kind = 2 → slotUsable s.pl r.part slot = true → drawSeal s.ctl s.pl slot = (some kx, d') → d'.effects = [] →
            let head := leBytes 8 kx.counter.toNat ++ leBytes 4 n ++ [0, 0, 0, 0]
            let y := gcmSeal kx.key kx.nonce head x.bytes
            fits (head ++ y.1 ++ y.2) → ∃ t, exec z.2 s = .next t ∧ t.ctl = s.ctl ∧ moved t d' (head ++ y.1 ++ y.2))
          ∧ (sg.kind = 1 → slotUsable s.pl r.part slot = true → key.use = 2 →
            let text := (openKey s.pl slot (BitVec.ofNat 64 (getLe x.bytes 0 8))).bind fun kx =>
              if getLe x.bytes 8 4 ≠ n then none else gcmOpen kx.key kx.nonce (x.bytes.take 16) (slice x.bytes 16 n) (slice x.bytes (16 + n) 16)
            (∀ u, text = some u → fits u → ∃ t, exec z.2 s = .next t ∧ t.ctl = s.ctl ∧ moved t s.pl u)
            ∧ (text = none → ∃ t, exec z.2 s = .next t ∧ t.ctl = s.ctl ∧ moved t s.pl (List.replicate n 0) ∧ noted t 2 3)))
        ∧ (sg.kind = 10 → room → mid →
          let i := getLe x.bytes 0 4
          (sg.le 12 4 ≤ i → ∃ t, exec z.2 s = .next t ∧ t.ctl = s.ctl ∧ moved t s.pl (List.replicate (sg.le 8 4) 0) ∧ noted t 5 3)
          ∧ (∀ u d', i < sg.le 12 4 → dmaRead s.ctl s.pl v.val st.val r.part (sg.le 0 8 + i * sg.le 8 4) (sg.le 8 4) = (.ok u, d') → d'.effects = [] →
              fits u → ∃ t, exec z.2 s = .next t ∧ t.ctl = s.ctl ∧ moved t d' u))
        ∧ (sg.kind = 8 → room →
          (descriptorOk (attnCfg sg) x.bytes = false → 1 ≤ (stgRelease qr).items.length → ∃ t, exec z.2 s = .next t ∧ t.ctl = s.ctl ∧ used t ∧ noted t 6 3
            ∧ t.pl.mem = s.pl.mem)
          ∧ (∀ o u d', mid → stageAttention s.ctl s.pl v.val st.val r.part sg x.bytes = (.done o, d') → d'.effects = [] → o.err = 0 → o.units = [u] → fits u →
              ∃ t, exec z.2 s = .next t ∧ t.ctl = s.ctl ∧ moved t d' u))
        ∧ (sg.kind = 9 → ¬ mid →
          let i := getLe x.bytes 0 4
          (sg.le 12 4 ≤ i → 1 ≤ (stgRelease qr).items.length → ∃ t, exec z.2 s = .next t ∧ t.ctl = s.ctl ∧ used t ∧ noted t 5 3 ∧ t.pl.mem = s.pl.mem)
          ∧ (∀ bs d', i < sg.le 12 4 → dmaWrite s.ctl s.pl v.val st.val r.part (sg.le 0 8 + i * sg.le 8 4) (x.bytes.drop 8) = (.ok bs, d') → d'.effects = [] →
            (1 ≤ (stgRelease qr).items.length → ∃ t, exec z.2 s = .next t ∧ t.ctl = s.ctl ∧ used t ∧ t.pl.mem = d'.mem ∧ t.pl.host = d'.host)
            ∧ (∀ e, (stgRelease qr).items = [] → ys = [] → (∀ j, j < r.stages.length → j ≠ st.val → (s.pl.queue (veinQueue v.val j)).items = [] ∧ heldUnits s.pl v.val (outKey j) = []) →
                s.pl.entry y.ring y.index = some e → e.phase ≠ .aborting → e.lost = false → e.nocomp = false → e.timed = false ∨ s.ctl.lod.tick.toNat < e.deadline → CompRing s y.ring →
                ∃ t, exec z.2 s = .next t ∧ t.ctl = s.ctl ∧ t.pl.mem = d'.mem ∧ (t.pl.vein v.val).runs = []
                ∧ Completes s t y.ring e y.status (e.resultWith 0) (min y.wrote 0xFFFFFFFF) y.detail))))
      ∧ (∀ z ∈ turns, up → turn → r.binding = 0 → room → st.val + 1 < r.stages.length → ∀ x qr, stgRead (s.pl.queue k) = some (x, qr) →
        (∀ o d' q', x.err = 0 → stageRun s.ctl s.pl r st.val sg [] x.bytes x.index 0 = (.done o, d') → d'.effects = [] → o.err = 0 →
          stgWrite k2 (s.pl.queue k2) { x with bytes := o.units.flatten, cells := cellsOf k2 o.units.flatten.length } = some q' → ∃ t,
          exec z.2 s = .next t ∧ t.ctl = s.ctl ∧ t.pl.queue k2 = q' ∧ t.pl.queue k = stgRelease qr ∧ t.pl.mem = d'.mem ∧ t.pl.host = d'.host)
        ∧ (∀ q', x.err ≠ 0 → stgWrite k2 (s.pl.queue k2) { x with bytes := List.replicate (unitOut sg) 0, cells := cellsOf k2 (unitOut sg) } = some q' → ∃ t,
          exec z.2 s = .next t ∧ t.ctl = s.ctl ∧ t.pl.queue k2 = q' ∧ t.pl.queue k = stgRelease qr ∧ t.pl.mem = s.pl.mem))))
  ∧ (∀ (s : State) (q : QuadId) (n : QpId), Quiet s →
    let parked := takeFirst (fun x => x.1 == n.val) (s.pl.parked (s.pl.qp n.val).home)
    ((s.pl.qp n.val).home ≠ q.val ∨ (s.pl.qp n.val).resident = false → exec (.steeredPacketResume q n) s = .next s)
    ∧ ((s.pl.qp n.val).home = q.val → (s.pl.qp n.val).resident = true → parked = none →
        exec (.steeredPacketResume q n) s = .next (settle { s with pl := freeRoom s.pl q.val }))
    ∧ (∀ x rest, (s.pl.qp n.val).home = q.val → (s.pl.qp n.val).resident = true → (s.pl.qp n.val).state ≠ .free → parked = some (x, rest) →
      (handlePkt s.ctl (s.pl.setParked q.val rest) x.2 = none → exec (.steeredPacketResume q n) s = .next s)
      ∧ (∀ d, handlePkt s.ctl (s.pl.setParked q.val rest) x.2 = some d → (∀ y ∈ d.parked (d.qp n.val).home, y.1 ≠ n.val) →
          exec (.steeredPacketResume q n) s = .next (settle { s with pl := freeRoom d (d.qp n.val).home }))))

/-! ### The link cipher -/

/-- R281, R484, R485, R487, R490, R491, R493, R494, R496, R497: LOAD waits for its key record, which is checked, then zeroed and put into its phase, or refused with the slot
unchanged; CLEAR empties a phase; ACTIVATE makes a loaded phase of a SEAL slot active. Commands are discarded while BUSY. A request that a core
finishes leaves the scheduler in the order of its group: an opened packet is delivered, or discarded with OPEN_FAIL; a sealed one is
presented at its port with the ciphertext, an acknowledgement queued to be sealed anew with its HOLD_NS at departure (the model's choice,
log 143); a parity error discards the result and reports the core. -/
def Obligations.CipherCommandsAct : Prop :=
  (∀ (s : State) (g : Agent) (w : BitVec 16) (phase : Bool), Quiet s → Accepted s g 0x600000 →
    let a := Via.bar g
    let n := w.toNat
    let x := s.pl.cipCmd 0
    let k := s.pl.key n
    let ends (d : Plane) (y : CmdStat) : State := { s with pl := d.setCipCmd 0 y }
    (x.busy = true → exec (.load a w) s = .next s ∧ exec (.clear a w phase) s = .next s ∧ exec (.activate a w phase) s = .next s)
    ∧ (x.busy = false →
      exec (.load a w) s = .next (ends s.pl { x with busy := true, last := 1, target := n })
      ∧ (∃ t, exec (.clear a w phase) s = .next t ∧ t = { s with pl := { s.pl with keys := t.pl.keys, cip := t.pl.cip } }
        ∧ t.pl.cipCmd 0 = { x with last := 2, result := 0 } ∧ (∀ j, j ≠ n → t.pl.key j = s.pl.key j)
        ∧ (t.pl.key n).phase phase = {} ∧ ((k.phase (!phase)).loaded = false → t.pl.key n = {})
        ∧ ((k.phase (!phase)).loaded = true → (t.pl.key n).phase (!phase) = k.phase (!phase) ∧ (t.pl.key n).use = k.use
          ∧ (t.pl.key n).active = (if k.active = some phase then none else k.active)))
      ∧ (k.use = 1 → (k.phase phase).loaded = true → exec (.activate a w phase) s =
          .next (ends (s.pl.setKey n { k with active := some phase }) { x with last := 3, result := 0 }))
      ∧ (k.use ≠ 1 ∨ (k.phase phase).loaded = false → exec (.activate a w phase) s = .next (ends s.pl { x with last := 3, result := 7 }))))
  ∧ (∀ s : State, Quiet s →
    (loadWaiting s.pl = none → ∀ ok, exec (.keyRecordReadDone ok) s = .next s)
    ∧ (∀ f r d, loadWaiting s.pl = some f →
      let x := s.pl.cipCmd f
      let buf := keyBufOf f
      let loc := flag (s.pl.reg buf) 0
      let a := (s.pl.reg (buf + 4)).toNat * 2 ^ 32 + bits (s.pl.reg buf) 31 6 * 64
      let k := s.pl.key x.target
      readLoc s.ctl s.pl f loc a 64 = (r, d) → d.effects = [] →
      (∀ ok, ok = false ∨ r = none → exec (.keyRecordReadDone ok) s = .next { s with pl := d.setCipCmd f { x with busy := false, result := 6 } })
      ∧ (∀ bs, r = some bs → loadResult k bs ≠ 0 → exec (.keyRecordReadDone true) s =
          .next { s with pl := d.setCipCmd f { x with busy := false, result := loadResult k bs } })
      ∧ (∀ bs, r = some bs → loadResult k bs = 0 → ∃ t, exec (.keyRecordReadDone true) s = .next t ∧ t.ctl = s.ctl
          ∧ t.pl.mem = (writeLoc s.ctl d f loc a (List.replicate 64 0)).mem ∧ t.pl.host = (writeLoc s.ctl d f loc a (List.replicate 64 0)).host
          ∧ t.pl.cipCmd f = { x with busy := false, result := 0 } ∧ (∀ j, j ≠ x.target → t.pl.key j = s.pl.key j)
          ∧ (let y := t.pl.key x.target
            let p := decide (getByte bs 2 = 1)
            y.use = getByte bs 1 ∧ y.phase (!p) = k.phase (!p) ∧ (y.phase p).loaded = true
            ∧ (getByte bs 0 = 1 → (y.phase p).count = 0 ∧ (y.phase p).key = BitVec.ofNat 256 (beNat (slice bs 8 32))
                ∧ (y.phase p).salt = BitVec.ofNat 32 (beNat (slice bs 4 4)))
            ∧ (getByte bs 0 = 2 → (y.phase p).count = getLe bs 12 6 ∧ y.m410 = true)
            ∧ y.active = (if getByte bs 1 = 1 ∧ getByte bs 3 % 2 = 1 then some p else k.active)))
      ∧ (∀ bs, r = some bs → loadResult k bs = (if recordOk bs = false then 2
          else if activePhase k = some (decide (getByte bs 2 = 1)) then 3
          else if k.use ≠ 0 ∧ k.use ≠ getByte bs 1 then 4
          else if getByte bs 0 = 2 ∧ 2 ^ 32 ≤ getLe bs 12 6 then 5 else 0))))
  ∧ (∀ (s : State) (core : Nat) (parity : Bool), Quiet s →
    let mine (r : CipReq) : Bool := r.core == core && !r.finished
    let reqs := modFirst mine (fun r => { r with finished := true, lost := parity }) s.pl.cip.reqs
    let exec' := exec (.cipherRequestDone core parity) s
    let bare : Plane := { s.pl with cip := { s.pl.cip with reqs := [] } }
    (s.pl.cip.reqs.find? mine = none → nextResult s.pl.cip.reqs [] = none → exec' = .next s)
    ∧ ((s.pl.cip.reqs.find? mine).isSome = true → nextResult reqs [] = none → parity = false → exec' =
        .next { s with pl := { s.pl with cip := { s.pl.cip with reqs := reqs } } })
    ∧ (∀ r, s.pl.cip.reqs = [r] → mine r = true →
      (parity = true → ∃ d, exec' = .next (settle { s with pl := d }) ∧ d.cip.reqs = [] ∧ flag (d.reg 0x600014) 0 = true
        ∧ Effect.fault (coreSource core) 0x01 none ∈ d.effects ∧ (r.sealing = none → d.qps = s.pl.qps ∧ d.mem = s.pl.mem))
      ∧ (∀ x, parity = false → r.sealing = none → r.opening = some x →
        (r.opened = none → exec' = .next { s with pl := bare.rxStick .openFail })
        ∧ (∀ bs, r.opened = some bs → exec' = .next (settle { s with pl := deliver s.ctl bare { x with payload := bs } })))
      ∧ (∀ h, parity = false → r.sealing = some h →
        let q := s.pl.qp h.flow
        let out := withGxt h.frame (s.pl.port r.group).group r.sealed
        (h.cls = 7 → h.since = none → exec' = .next { s with pl := bare.queue7 r.group out })
        ∧ (∀ since, h.cls = 7 → h.since = some since → exec' = .next { s with pl := (bare.queue7 r.group out).onPort r.group fun p => { p with
            ackHolds := p.ackHolds ++ [{ frame := out, since := since, sealing := some (r.nonce, r.key) }] } })
        ∧ (h.cls ≠ 7 → q.state = .ready → exec' = .next { s with pl := Machine.present bare r.group { h with frame := out } })
        ∧ (h.cls ≠ 7 → q.state ≠ .ready → ∃ d, exec' = .next (settle { s with pl := d }) ∧ d.cip.reqs = [] ∧ d.mem = s.pl.mem ∧ d.ports = s.pl.ports))))

/-! ### Partitions and virtual functions -/

/-- R499 to R503, R506, R512: a PAR command is discarded while one runs and acts by the state of its partition. ENABLE puts the ranges of the registers into
effect when they fit and clash with none; RESIZE only grows them; RESET, and DISABLE of a partition without a bound function, empty it: its
queue pairs, rings, key slots, fault slots and cached translations are gone and its windows close; it stays RESETTING until the reset
is complete and is then ACTIVE, or IDLE after DISABLE. BIND gives a free function its rings; UNBIND takes it away when they are DISABLED. -/
def Obligations.PartitionCommandsAct : Prop :=
  (∀ (s : State) (g : Agent) (p : PartId) (v : VfId), Quiet s → Accepted s g 0x100000 →
    let y := s.pl.part p.val
    let x := regRanges s.pl p.val
    let f := s.pl.vf v.val
    let first := bits (s.pl.reg (Reg.vfCfg v.val)) 28 16
    let count := bits (s.pl.reg (Reg.vfRings v.val)) 10 0
    let cmds := [((1 : Nat), Instr.parEnable g p), (2, .resize g p), (3, .partitionReset g p), (4, .parDisable g p), (5, .bind g p v), (6, .unbind g p v)]
    let ends (d : Plane) (cmd result : Nat) : State := { s with pl := { d with par := { last := cmd, result := result } } }
    (∀ z ∈ cmds, s.pl.par.busy = true → exec z.2 s = .next s)
    ∧ (s.pl.par.busy = false →
      (y.state ≠ .idle → exec (.parEnable g p) s = .next (ends s.pl 1 1))
      ∧ (∀ z ∈ cmds, z.1 ≠ 1 → y.state ≠ .active → exec z.2 s = .next (ends s.pl z.1 1))
      ∧ (y.state = .idle →
        (rangesFit x = false ∨ x.weight = 0 → exec (.parEnable g p) s = .next (ends s.pl 1 2))
        ∧ (rangesFit x = true → x.weight ≠ 0 → rangesClash s.pl p.val x = true → exec (.parEnable g p) s = .next (ends s.pl 1 3))
        ∧ (rangesFit x = true → x.weight ≠ 0 → rangesClash s.pl p.val x = false → ∃ t, exec (.parEnable g p) s = .next t
            ∧ t.pl.part p.val = { x with state := .active } ∧ (∀ j, j ≠ p.val → t.pl.part j = s.pl.part j) ∧ t.pl.par = { last := 1 }
            ∧ t.pl.reg (Reg.partWeight p.val) = field x.weight 8 0 ∧ (∀ a, a ≠ Reg.partWeight p.val → t.pl.reg a = s.pl.reg a)
            ∧ t = { s with pl := { s.pl with parts := t.pl.parts, regs := t.pl.regs, par := t.pl.par, obs := { s.pl.obs with counts := t.pl.obs.counts } } }))
      ∧ (y.state = .active →
        let grown := y.rings.grows x.rings && y.qps.grows x.qps && y.wins.grows x.wins && y.keys.grows x.keys
        (grown = false → exec (.resize g p) s = .next (ends s.pl 2 4))
        ∧ (grown = true → rangesFit x = false → exec (.resize g p) s = .next (ends s.pl 2 2))
        ∧ (grown = true → rangesFit x = true → rangesClash s.pl p.val x = true → exec (.resize g p) s = .next (ends s.pl 2 3))
        ∧ (grown = true → rangesFit x = true → rangesClash s.pl p.val x = false → exec (.resize g p) s = .next
            (ends (s.pl.setPart p.val { y with rings := x.rings, qps := x.qps, wins := x.wins, keys := x.keys }) 2 0))
        ∧ (boundTo s.pl p.val ≠ [] → exec (.parDisable g p) s = .next (ends s.pl 4 4))
        ∧ (∀ z ∈ [((3 : Nat), false, Instr.partitionReset g p), (4, true, .parDisable g p)], (z.2.1 = true → boundTo s.pl p.val = []) → ∃ d,
            exec z.2.2 s = .next (settle { s with pl := d })
            ∧ d.par = { busy := true, last := z.1, target := p.val } ∧ d.part p.val = { y with state := .resetting, disabling := z.2.1 }
            ∧ (∀ j, j ≠ p.val → d.part j = s.pl.part j)
            ∧ (∀ n, s.pl.qpInPart p.val n = true → (d.qp n).state = .free) ∧ (∀ n, s.pl.qpInPart p.val n = false → (d.qp n).state = (s.pl.qp n).state)
            ∧ (∀ k, s.pl.ringInPart p.val k = true → d.ring k = {} ∧ d.cq k = {})
            ∧ (∀ n, y.keys.base * 256 ≤ n → n < (y.keys.base + y.keys.count) * 256 → d.key n = {})
            ∧ (∀ n, 16 * p.val ≤ n → n < 16 * p.val + 16 → d.slot n = {})
            ∧ (SMap.wf [] s.pl.cache = true → SMap.wf [] s.pl.pointers = true →
                ∀ u, (∀ e ∈ d.leaves u, e.part ≠ p.val) ∧ ∀ e ∈ d.pointed u, e.part ≠ p.val)
            ∧ (∀ n, y.wins.base * 1024 ≤ n → n < (y.wins.base + y.wins.count) * 1024 → (d.win n).state ≠ .isOpen
                ∧ ((s.pl.win n).state = .isOpen → (d.win n).state = .closed ∧ (d.win n).gen = (s.pl.win n).gen + 1))
            ∧ d.reg (Reg.root p.val) = s.pl.reg (Reg.root p.val) ∧ d.vfs = s.pl.vfs)
        ∧ (f.bound = true → exec (.bind g p v) s = .next (ends s.pl 5 1))
        ∧ (f.bound = false →
          let inside := ∀ j, j < count → s.pl.ringInPart p.val (first + j) = true
          let clash := ∃ w ∈ s.pl.vfs, w.2.bound = true ∧ w.2.part = p.val ∧ first < w.2.first + w.2.count ∧ w.2.first < first + count
          (inside → ¬ clash → exec (.bind g p v) s = .next (ends (s.pl.setVf v.val { bound := true, part := p.val, first := first, count := count }) 5 0))
          ∧ (¬ inside ∨ clash → exec (.bind g p v) s = .next (ends s.pl 5 5)))
        ∧ (f.bound = false ∨ f.part ≠ p.val → exec (.unbind g p v) s = .next (ends s.pl 6 1))
        ∧ (f.bound = true → f.part = p.val →
          let live := ∃ j, j < f.count ∧ ((s.pl.ring (f.first + j)).state ≠ .disabled ∨ (s.pl.cq (f.first + j)).enabled = true)
          (live → exec (.unbind g p v) s = .next (ends s.pl 6 4))
          ∧ (¬ live → exec (.unbind g p v) s = .next (ends (s.pl.setVf v.val {}) 6 0))))))
  ∧ (∀ (s : State) (p : PartId), Quiet s →
    let y := s.pl.part p.val
    let d := s.pl.setPart p.val (if y.disabling then { state := .idle } else { y with state := .active })
    (y.contained = true ∨ y.state ≠ .resetting → exec (.partitionResetDone p) s = .next s)
    ∧ (y.contained = false → y.state = .resetting → exec (.partitionResetDone p) s = .next { s with pl :=
        if s.pl.par.busy = true ∧ s.pl.par.target = p.val then { d with par := { last := s.pl.par.last } } else d }))

/-! ### Faults, containment and the reserve seam -/

/-- R513 to R523, R526 to R529, R567: a fault is recorded with the class of its cause, CORRECTED and REPORT with nothing else; a
containing fault of a source without a level is recorded as REPORT. Before BOOT a containing fault is recorded only, during a device
reset it is absorbed, at device level it begins the device reset with cause 4. Elsewhere, by its domain: equal to a recovering one,
that recovery escalates in its slot; inside a recovering or queued one, or equal to a queued one, it is absorbed; around recovering ones,
it takes the slot of the first; otherwise a free slot, a place in the queue, or, with 32 queued, device level. The owner clears
pending bits of sources that are in no recovery and whose pair is healthy (with the last one ALERT_N starts a half-period, R132), and injects faults with FLT_FORCE. -/
def Obligations.FaultsReachTheCollector : Prop :=
  (∀ (s : State) (src : BitVec 16) (cause : Byte) (part : Option PartId) (g : Agent), Quiet s → (sourceOf src.toNat).isSome = true →
    let f := s.ctl.flt
    let n := src.toNat
    let p := if n = 0x280 then part.map (·.val) else none
    let rows := [(Instr.faultReport src cause part, false, p, true), (.forceFault g src cause, true, none, decide (f.forceTill ≤ s.ctl.ns) && s.ctl.forceOk n)]
    Accepted s g 0x80008 → ∀ r ∈ rows,
    (r.2.2.2 = false → exec r.1 s = .next (elect s))
    ∧ (r.2.2.2 = true → ∀ cls ∈ classOf cause.toNat,
      (cls < 2 → Plain n cause.toNat → ∃ u, exec r.1 s = .next (elect u) ∧ Recorded s u [eventAt s src cause cls 0 n r.2.1 false]
        ∧ ({ u with ctl := { u.ctl with flt := { u.ctl.flt with forceTill := f.forceTill } } } = u ∨ r.2.1 = true)
        ∧ OnlyRecorded s { u with ctl := { u.ctl with flt := { u.ctl.flt with forceTill := f.forceTill } } })
      ∧ (2 ≤ cls → s.ctl.effLevel n r.2.2.1 = none → ∃ u, exec r.1 s = .next (elect u) ∧ Recorded s u [eventAt s src cause 1 0 n r.2.1 false])
      ∧ (∀ l ∈ s.ctl.effLevel n r.2.2.1, 2 ≤ cls →
        let x := s.ctl.domainAt l n r.2.2.1
        let ev := eventAt s src cause cls x.level (if x.level = 3 then 0 else x.unit) r.2.1
        (Plain n cause.toNat → s.ctl.dev.inReset = true → ∃ u, exec r.1 s = .next (elect u) ∧ Recorded s u [ev true]
            ∧ u.ctl.flt.slots = f.slots ∧ u.ctl.flt.queue = f.queue ∧ u.pl = s.pl)
        ∧ (Plain n cause.toNat → s.ctl.dev.inReset = false → s.ctl.dev.state.booted = false → ∃ u, exec r.1 s = .next (elect u)
            ∧ Recorded s u [ev false] ∧ u.ctl.flt.slots = f.slots ∧ u.ctl.flt.queue = f.queue ∧ u.pl = s.pl)
        ∧ (Running s → x.level = 3 → ∃ u, exec r.1 s = .next (elect (settle u)) ∧ Recorded s u [ev false] ∧ u.ctl.dev.state = .boot
            ∧ u.ctl.dev.inReset = true ∧ u.ctl.dev.resetCause = 4 ∧ u.ctl.flt.slots = [] ∧ u.ctl.flt.queue = [])
        ∧ (Running s → x.level < 3 → Plain n cause.toNat →
          let same (y : Domain) := y.level = x.level ∧ y.unit = x.unit
          let runs (y : Domain) := ∃ i, i < 4 ∧ f.slot i = some y
          let fresh := (∀ y, runs y → ¬ same y ∧ s.ctl.inside x y = false) ∧ ∀ y ∈ f.queue, ¬ same y ∧ s.ctl.inside x y = false
          (∀ y, (∀ z, runs z → ¬ same z) → (runs y ∧ s.ctl.inside x y = true ∨ y ∈ f.queue ∧ (s.ctl.inside x y = true ∨ same y)) →
            ∃ u, exec r.1 s = .next (elect u) ∧ Recorded s u [ev true] ∧ u.ctl.flt.slots = f.slots ∧ u.ctl.flt.queue = f.queue ∧ u.pl = s.pl)
          ∧ (fresh → f.queue = [] → ∀ i, i < 4 →
            (∀ j, j < i → ∀ y, f.slot j = some y → s.ctl.inside y x = false) →
            ((∃ y, f.slot i = some y ∧ s.ctl.inside y x = true)
              ∨ (∀ y, runs y → s.ctl.inside y x = false) ∧ f.slot i = none ∧ ∀ j, j < i → (f.slot j).isSome = true) →
            ∃ u, exec r.1 s = .next (elect (settle u)) ∧ Recorded s u [ev false] ∧ u.ctl.flt.slot i = some x ∧ u.ctl.flt.queue = []
              ∧ (∀ j, j < 4 → j ≠ i → u.ctl.flt.slot j = match f.slot j with | some y => if s.ctl.inside y x then none else some y | none => none)
              ∧ (∀ t : PortId, x.level = 0 → sourceOf n = some (.port t.val) → ((s.pl.port t.val).link = .up ∨ (s.pl.port t.val).link = .paused) →
                  (u.pl.port t.val).link = .training ∧ ∀ j, j ≠ t.val → u.pl.port j = s.pl.port j)
              ∧ (x.level = 0 → n = 0x292 → u.ctl.dev.pcieUp = false)
              ∧ (x.level = 0 → n = 0x294 → u.ctl.own.session.isOpen = false ∧ u.pl.obs.trace = [])
              ∧ (x.level = 1 → (s.pl.part x.unit).state.holds = true → (u.pl.part x.unit).state = .resetting ∧ (u.pl.part x.unit).contained = true)
              ∧ (x.level = 2 → x.unit < 4 →
                  (∀ t : PortId, t.val / 12 = x.unit → (u.pl.port t.val).link = .disabled ∨ (u.pl.port t.val).link = .dark)
                  ∧ ∀ y ∈ s.ctl.static.parts, y.holdsIn x.unit = true → (s.pl.part y.part).state.holds = true → (u.pl.part y.part).state = .resetting))
          ∧ (fresh → (∀ y, runs y → s.ctl.inside y x = false) → (∀ i, i < 4 → (f.slot i).isSome = true) → (∀ y ∈ f.queue, s.ctl.inside y x = false) →
            (f.queue.length < 32 → ∃ u, exec r.1 s = .next (elect u) ∧ Recorded s u [ev false] ∧ u.ctl.flt.slots = f.slots
              ∧ u.ctl.flt.queue = f.queue ++ [x] ∧ u.pl = s.pl)
            ∧ (32 ≤ f.queue.length → ∃ u, exec r.1 s = .next (elect (settle u)) ∧ Recorded s u [ev false] ∧ u.ctl.dev.inReset = true
              ∧ u.ctl.dev.resetCause = 4 ∧ u.ctl.flt.slots = [] ∧ u.ctl.flt.queue = []))
          ∧ (∀ i z, i < 4 → f.slot i = some z → same z → (∀ j, j < i → ∀ y, f.slot j = some y → ¬ same y) →
            let y := s.ctl.escalated z n
            let up (absorbed : Bool) : FltEvent := { eventAt s src cause (if cause = 6 then 3 else 2) y.level (if y.level = 3 then 0 else y.unit) r.2.1 absorbed with
              seq := f.seq + 1, escalated := true }
            let covered := ∃ j w, j < 4 ∧ j ≠ i ∧ f.slot j = some w ∧ (w.level = y.level ∧ w.unit = y.unit ∨ s.ctl.inside y w = true)
            (¬ covered → y.level < 3 → ∃ u, exec r.1 s = .next (elect (settle u)) ∧ Recorded s u [up false, ev false]
              ∧ (f.queue = [] → u.ctl.flt.slot i = some y))
            ∧ (y.level = 3 → ¬ covered → ∃ u, exec r.1 s = .next (elect (settle u)) ∧ Recorded s u [up false, ev false]
              ∧ u.ctl.dev.inReset = true ∧ u.ctl.dev.resetCause = 4 ∧ u.ctl.flt.slots = [] ∧ u.ctl.flt.queue = []))))))
  ∧ (∀ (s : State) (src : BitVec 16) (g : Agent) (cause : Byte), Quiet s → (sourceOf src.toNat).isSome = true → Accepted s g 0x80008 →
    let n := src.toNat
    let latched := SMap.find false s.ctl.flt.wireLatch n
    let wire := eventAt s src 6
    (latched = true → exec (.wireFault src) s = .next (elect s))
    ∧ (s.ctl.ns < s.ctl.flt.forceTill ∨ s.ctl.forceOk n = false → exec (.forceWire g src cause) s = .next (elect s))
    ∧ (s.ctl.flt.forceTill ≤ s.ctl.ns → s.ctl.forceOk n = true → latched = true → exec (.forceWire g src cause) s =
        .next (elect (onFlt (fun f => { f with forceTill := s.ctl.ns + 16 }) s)))
    ∧ (latched = false → s.ctl.effLevel n none = none → ∃ u, exec (.wireFault src) s = .next (elect u) ∧ Recorded s u [wire 1 0 n false false])
    ∧ (latched = false → ∀ l ∈ s.ctl.effLevel n none, Running s → NoRecovery s →
        let x := s.ctl.domainAt l n none
        (l < 3 → x.level < 3 → ∃ u, exec (.wireFault src) s = .next (elect (settle u)) ∧ Recorded s u [wire 3 x.level x.unit false false]
          ∧ u.ctl.flt.slot 0 = some x ∧ SMap.find 1 u.ctl.flt.pairs n = 3 ∧ SMap.find false u.ctl.flt.wireLatch n = true)
        ∧ (l < 3 → x.level < 3 → s.ctl.flt.forceTill ≤ s.ctl.ns → s.ctl.forceOk n = true → ∃ u, exec (.forceWire g src cause) s = .next (elect (settle u))
          ∧ Recorded s u [wire 3 x.level x.unit true false] ∧ u.ctl.flt.slot 0 = some x ∧ u.ctl.flt.forceTill = s.ctl.ns + 16)))
  ∧ (∀ (s : State) (i : Fin 4) (x : Domain), Quiet s → s.ctl.flt.slot i.val = some x →
    let waits := x.level = 0 ∧ x.unit = 0x292 ∧ (s.ctl.dev.pins.pcieRefclk = false ∨ s.ctl.dev.locks.hif = false)
    (waits → ∀ ok, exec (.recoveryDone i ok) s = .next (elect s))
    ∧ (¬ waits → s.ctl.flt.slots = [(i.val, some x)] → s.ctl.flt.queue = [] → ∃ u, exec (.recoveryDone i true) s = .next (elect u)
      ∧ u.ctl.flt.slots = [] ∧ u.ctl.flt.queue = []
      ∧ (∀ p, p < 32 → let y := s.pl.part p
          u.pl.part p = if y.contained = true ∧ y.state = .resetting then (if y.disabling then { state := .idle } else { y with state := .active, contained := false })
            else { y with contained := false })
      ∧ (∀ t : PortId, x.level = 2 → t.val / 12 = x.unit → s.ctl.dev.lit = true → (s.pl.port t.val).link = .dark → (s.pl.port t.val).inUse = true →
          (u.pl.port t.val).link = .training)
      ∧ u.ctl.flash = s.ctl.flash ∧ u.ctl.dev = s.ctl.dev)
    ∧ (¬ waits → ∀ y q, s.ctl.flt.queue = y :: q → (∀ j, j < 4 → (s.ctl.flt.slot j).isSome = true) → ∃ u, exec (.recoveryDone i true) s = .next (elect (settle u))
      ∧ u.ctl.flt.slot i.val = some y ∧ u.ctl.flt.queue = q)
    ∧ (∀ t : Fin 272, x.level = 0 → x.unit = t.val → s.ctl.tileState t.val = 0 ∨ s.ctl.tileState t.val = 1 → ∃ u, exec (.recoveryDone i false) s = .next (elect (settle u))
      ∧ u.ctl.tileState t.val = 2 ∧ (∀ l, s.ctl.logicalOf t.val = some l → u.ctl.tileOf l = none) ∧ (s.ctl.flt.queue = [] → u.ctl.flt.slot i.val = none))
    ∧ (∀ m : Fin 104, ∀ k, x.level = 0 → x.unit = 0x200 + m.val → s.ctl.coreState m.val = 0 →
      (k < 104 ∧ s.ctl.coreState k = 1 ∧ ∀ j, j < k → s.ctl.coreState j ≠ 1) → ∃ u, exec (.recoveryDone i false) s = .next (elect (settle u))
      ∧ u.ctl.coreState m.val = 2 ∧ u.ctl.coreState k = 0 ∧ (s.ctl.flt.queue = [] → u.ctl.flt.slot i.val = none))
    ∧ (∀ q : QuadId, Running s → x = { level := 0, unit := 0x1C4 + q.val, source := 0x1C4 + q.val } → s.ctl.flt.slots = [(i.val, some x)] → s.ctl.flt.queue = [] →
      ∃ u, exec (.recoveryDone i false) s = .next (elect (settle u)) ∧ u.ctl.flt.slot i.val = some { level := 2, unit := q.val, source := 0x1C4 + q.val }
        ∧ ∃ e, u.ctl.flt.hist.head? = some e ∧ e.escalated = true ∧ e.level = 2 ∧ e.domain = q.val))
  ∧ (∀ (s : State) (i : Fin 4), Quiet s → s.ctl.flt.slot i.val = none → ∀ ok, exec (.recoveryDone i ok) s = .next (elect s))
  ∧ (∀ (s : State) (g : Agent) (k : Fin 64) (v : Word), Quiet s → Accepted s g (0x81000 + 4 * k.val) →
    let f := s.ctl.flt
    ∃ t, exec (.pendingClear g k v) s = .next t
      ∧ t = { s with ctl := { s.ctl with dev := t.ctl.dev, flt := { f with pend := t.ctl.flt.pend } } }
      ∧ t.ctl.dev = (if f.uncleared = true ∧ t.ctl.flt.uncleared = false then { s.ctl.dev with alertLow := false, alertAt := s.ctl.ns } else s.ctl.dev)
      ∧ (∀ j, j ≠ k.val → SMap.find 0 t.ctl.flt.pend j = SMap.find 0 f.pend j)
      ∧ ∀ b, b < 32 → (SMap.find 0 t.ctl.flt.pend k.val).getLsbD b = ((SMap.find 0 f.pend k.val).getLsbD b
          && !(v.getLsbD b && decide (SMap.find 1 f.pairs (32 * k.val + b) = 1)
              && (f.queue.all fun y => y.source != 32 * k.val + b) && [0, 1, 2, 3].all fun j => ((f.slot j).all fun y => y.source != 32 * k.val + b))))

/-- R530 to R536, R540: a laser whose bias has drifted past LASER_DRIFT, or whose output is lost, is swapped for a reserve laser of its
quadrant; a tile past TILE_SLOWDOWN is marked for retirement; a pseudo-channel past HBM_CE_RATE is copied to the lower-numbered
free spare, one copy per stack at a time. A spare brought in by wear is recorded
with WEAR; without a spare EXHAUSTED is recorded and SERVICE becomes
DEGRADED. A reading below its threshold, and a unit out of service, only updates the measurement. -/
def Obligations.WearMonitorsBringInSpares : Prop :=
  ∀ s : State, Quiet s →
    let f := s.ctl.flt
    let short (t : State) (src : Nat) : Prop :=
      Recorded s t [eventAt s (BitVec.ofNat 16 src) 0x0D 1 0 src false false] ∧ t.ctl.flash.short = true
        ∧ t.ctl.dev.state = (if s.ctl.dev.state = .service then .degraded else s.ctl.dev.state)
    let worn (t : State) (src : Nat) : Prop := Recorded s t [eventAt s (BitVec.ofNat 16 src) 0x0C 0 0 src false false] ∧ t.ctl.dev = s.ctl.dev
    (∀ (l : Fin 80) (drift : Nat) (lost : Bool),
      let q := l.val / 20
      let seen := SMap.put 0 f.laserDrift l.val (min 1023 drift)
      let past := lost = true ∨ s.ctl.static.laserDrift * 10 < drift
      let spare := ∃ r, r / 20 = q ∧ s.ctl.laserState r = 1
      let key := if lost then 100 + l.val else l.val
      let c := Instr.laserBiasCheck l drift lost
      (s.ctl.laserState l.val ≠ 0 ∨ ¬ past ∨ (SMap.find none f.swapFrom q).isSome = true → exec c s = .next (onFlt (fun f => { f with laserDrift := seen }) s))
      ∧ (s.ctl.laserState l.val = 0 → past → SMap.find none f.swapFrom q = none →
        (spare → exec c s = .next (onFlt (fun f => { f with
          laserDrift := seen, swapFrom := SMap.put none f.swapFrom q (some l.val)
          swapLost := SMap.put false f.swapLost q !decide (s.ctl.static.laserDrift * 10 < drift) }) s))
        ∧ (¬ spare → SMap.find false f.noted key = true → exec c s = .next (onFlt (fun f => { f with laserDrift := seen }) s))
        ∧ (¬ spare → SMap.find false f.noted key = false → ∃ t, exec c s = .next t ∧ short t (0x1C8 + q) ∧ t.pl = s.pl
            ∧ t.ctl.flt.swapFrom = f.swapFrom ∧ t.ctl.flash.laserState = s.ctl.flash.laserState)))
    ∧ (∀ q : QuadId,
      (∀ l r, SMap.find none f.swapFrom q.val = some l → r / 20 = q.val → s.ctl.laserState r = 1 →
        (∀ j, j / 20 = q.val → j < r → s.ctl.laserState j ≠ 1) → l ≠ r → ∃ t, exec (.laserSwap q) s = .next t
          ∧ t.ctl.laserState l = 2 ∧ t.ctl.laserState r = 0 ∧ (∀ j, j ≠ l → j ≠ r → t.ctl.laserState j = s.ctl.laserState j)
          ∧ SMap.find none t.ctl.flt.swapFrom q.val = none ∧ t.pl = s.pl
          ∧ (SMap.find false f.swapLost q.val = false → worn t (0x1C8 + q.val))
          ∧ (SMap.find false f.swapLost q.val = true → t.ctl.flt.hist = f.hist ∧ t.ctl.flt.seq = f.seq ∧ t.ctl.flt.first = f.first ∧ t.ctl.flt.pend = f.pend ∧ t.ctl.dev = s.ctl.dev))
      ∧ (SMap.find none f.swapFrom q.val = none ∨ (∀ r, r / 20 = q.val → s.ctl.laserState r ≠ 1) → exec (.laserSwap q) s = .next s))
    ∧ (∀ (t : Fin 272) (slow : Nat),
      let seen := SMap.put 0 f.tileSlow t.val (min 1023 slow)
      let c := Instr.tileSlowdownCheck t slow
      let supply := tileSupply s.ctl (t.val / 68)
      (slow ≤ s.ctl.static.tileSlow ∨ s.ctl.tileState t.val ≠ 0 ∨ SMap.find false f.retirePending t.val = true →
        exec c s = .next (onFlt (fun f => { f with tileSlow := seen }) s))
      ∧ (s.ctl.static.tileSlow < slow → s.ctl.tileState t.val = 0 → SMap.find false f.retirePending t.val = false → ∃ u, exec c s = .next u
          ∧ (supply.1 ≤ supply.2 → short u t.val) ∧ (supply.2 < supply.1 → worn u t.val)
          ∧ SMap.find false u.ctl.flt.retirePending t.val = true ∧ u.ctl.flash.tileState = s.ctl.flash.tileState ∧ u.pl = s.pl))
    ∧ (∀ (k : StackId) (pc : Fin 32) (errors : Nat),
      let h := s.ctl.stackHbm k.val
      let m := s.ctl.pcMap k.val
      let h' := { h with ce := SMap.put 0 h.ce pc.val (min 0xFFFFFFFF errors) }
      let planned := (if h.copying.isSome then 1 else 0) + h.waiting.length
      let more := s.ctl.static.hbmCeRate < errors
      let known := h.copying = some pc.val ∨ pc.val ∈ h.waiting
      let ends (x : Hbm) := ∃ t, exec (.hbmCeCheck k pc errors) s = .next t ∧ t.ctl.stackHbm k.val = x
        ∧ (∀ j, j ≠ k.val → t.ctl.stackHbm j = s.ctl.stackHbm j) ∧ t = { s with ctl := { s.ctl with hbm := t.ctl.hbm } }
      (¬ more ∨ m.logical pc.val = none ∨ known → ends h')
      ∧ (more → ¬ known → ∀ l, m.logical pc.val = some l →
        (m.left ≤ planned → SMap.find false s.ctl.flash.hbmShort k.val = true → ends h')
        ∧ (m.left ≤ planned → SMap.find false s.ctl.flash.hbmShort k.val = false → ∃ t, exec (.hbmCeCheck k pc errors) s = .next t
            ∧ short t (0x140 + k.val) ∧ t.ctl.stackHbm k.val = h' ∧ SMap.find false t.ctl.flash.hbmShort k.val = true ∧ t.ctl.flash.pcMaps = s.ctl.flash.pcMaps)
        ∧ (planned < m.left → h.copying = none → ends { h' with copying := some pc.val, done := false, copyFrom := l, mib := 0, copyAt := s.ctl.ns })
        ∧ (planned < m.left → h.copying.isSome = true → ends { h' with waiting := h.waiting ++ [pc.val] })))
    ∧ (∀ (k : StackId) (bad : List Nat),
      let h := s.ctl.stackHbm k.val
      let m := s.ctl.pcMap k.val
      (h.copying = none ∨ m.free = none → exec (.pcCopyDone k bad) s = .next s)
      ∧ (∀ pc sp, h.copying = some pc → pc ≠ 30 → m.free = some sp →
        let m' := if sp = 30 then { m with spare30 := some h.copyFrom } else { m with spare31 := some h.copyFrom }
        let ended := { h with copying := none, done := true, mib := 1536, waiting := h.waiting.drop 1, faulty := h.faulty.filter (· != pc) }
        ∃ t, exec (.pcCopyDone k bad) s = .next t
          ∧ (pc ∉ h.faulty → worn t (0x140 + k.val)) ∧ (pc ∈ h.faulty → t.ctl.flt.hist = f.hist ∧ t.ctl.flt.seq = f.seq ∧ t.ctl.flt.first = f.first ∧ t.ctl.flt.pend = f.pend ∧ t.ctl.dev = s.ctl.dev) ∧ t.ctl.pcMap k.val = m'
          ∧ (∀ j, j ≠ k.val → t.ctl.pcMap j = s.ctl.pcMap j ∧ t.ctl.stackHbm j = s.ctl.stackHbm j)
          ∧ (h.waiting = [] → t.ctl.stackHbm k.val = ended)
          ∧ (∀ w l rest, h.waiting = w :: rest → m'.logical w = some l →
              t.ctl.stackHbm k.val = { ended with copying := some w, done := false, copyFrom := l, mib := 0, copyAt := s.ctl.ns })
          ∧ t.pl = { s.pl with poison := t.pl.poison }
          ∧ ∀ x, x ∈ t.pl.poison ↔ x ∈ s.pl.poison ∨ x ∈ bad ∧ x * 64 < 900 * 2 ^ 30 ∧ stackOf (x * 64) = k.val))

/-! ### Observation -/

/-- R219, R549 to R552, R555 to R557: when a sampler's interval ends, each of its sets in ascending order gets one 64-byte record at
position SEQ mod 2^LOG2 of its buffer, SEQ advances for each, and a record that cannot be written is dropped; its ten counts are the
cycles of the set's own domain between its last two boundaries (at nominal rates, the model's choice, log 151); a SYNC record is
formed every 1 ms while it is enabled; while a session is open and its PLL is locked the port sends a frame with up to 32 records and
what remains waits, a LOST record after it when records were dropped and that kind is traced; a coalescing interval with violations counted ends in one event with the last violation and their number. -/
def Obligations.ObservationRecords : Prop :=
  (∀ (s : State) (w : Sampler) (counts : List SetCount), Quiet s →
    let (key, cfg, buf, size, seq0) := match w with
      | .global => (0, 0xC0020, 0xC0024, 0xC002C, s.pl.obs.smpSeq)
      | .part p => (1 + p.val, 0xC8040 + p.val * 256, 0xC8044 + p.val * 256, 0xC804C + p.val * 256, SMap.find 0 s.pl.obs.partSeq p.val)
    let due := SMap.find 0 s.pl.obs.smpAt key + bits (s.pl.reg cfg) 19 0 * 1500
    let base := (s.pl.reg (buf + 4)).toNat * 2 ^ 32 + bits (s.pl.reg buf) 31 6 * 64
    let depth := 2 ^ bits (s.pl.reg size) 4 0
    let sets := enabledSets s.ctl s.pl w
    let counted (n : Nat) : SetCount := (counts.find? (·.set == n)).getD { set := n }
    let rate (n : Nat) : Nat :=
      if n < 276 then (if s.ctl.static.coreFreq = 0 then 1152 else if s.ctl.static.coreFreq = 1 then 960 else 768)
      else if n < 284 ∨ n = 352 then 960 else if n < 332 then 544 else 625
    let cycles (n : Nat) : Nat := (s.pl.obs.cycle.toNat * rate n / 960 + (counted n).edge.val)
      - (SMap.find 0 s.pl.obs.smpAt key * rate n / 960 + SMap.find 0 s.pl.obs.edges (512 * key + n))
    let fn := match w with | .global => 0 | .part p => ownerFn s.pl p.val
    let image (j n : Nat) : List Byte :=
      let x := counted n
      let y := sharesOf (cycles n) x
      leBytes 2 n ++ leBytes 1 (if y.stall.sum = 0 then 255 else x.reason) ++ [0] ++ leBytes 4 (seq0 + BitVec.ofNat 32 j).toNat
        ++ leBytes 8 s.pl.obs.cycle.toNat ++ leBytes 4 y.busy ++ leBytes 4 y.idle ++ (y.stall.map fun m => leBytes 4 m).flatten
        ++ leBytes 8 (if s.ctl.lod.state = .free then 0 else s.ctl.lod.tick.toNat)
    (flag (s.pl.reg cfg) 31 = false ∨ s.ctl.dev.state.booted = false ∨ s.pl.obs.cycle.toNat < due → exec (.sampleInterval w counts) s = .next s)
    ∧ (flag (s.pl.reg cfg) 31 = true → s.ctl.dev.state.booted = true → due ≤ s.pl.obs.cycle.toNat → ∃ t, exec (.sampleInterval w counts) s = .next t
      ∧ t = { s with pl := { s.pl with host := t.pl.host, mem := t.pl.mem, poison := t.pl.poison, obs := { s.pl.obs with
                smpSeq := t.pl.obs.smpSeq, partSeq := t.pl.obs.partSeq, edges := t.pl.obs.edges, smpAt := SMap.put 0 s.pl.obs.smpAt key s.pl.obs.cycle.toNat } } }
      ∧ (match w with | .global => t.pl.obs.smpSeq | .part p => SMap.find 0 t.pl.obs.partSeq p.val) = seq0 + BitVec.ofNat 32 sets.length
      ∧ (∀ n ∈ sets, SMap.find 0 t.pl.obs.edges (512 * key + n) = (counted n).edge.val)
      ∧ (flag (s.pl.reg buf) 0 = false → t.pl.mem = s.pl.mem ∧ t.pl.poison = s.pl.poison
        ∧ (s.ctl.dev.pcieUp = false → t.pl.host = s.pl.host)
        ∧ (s.ctl.dev.pcieUp = true → (∀ x ∈ s.pl.hostBad, x.fn ≠ some fn) → sets.length ≤ depth → ∀ j n, sets[j]? = some n →
            Mem.readN t.pl.host (base + 64 * ((seq0 + BitVec.ofNat 32 j).toNat % depth)) 64 = image j n))
      ∧ (flag (s.pl.reg buf) 0 = true → base + 64 * depth ≤ 900 * 2 ^ 30 → t.pl.host = s.pl.host
        ∧ (∀ p, w = .part p → s.ctl.ownsStacked p.val base (64 * depth) = true → sets.length ≤ depth → ∀ j n, sets[j]? = some n →
            Mem.readN t.pl.mem (base + 64 * ((seq0 + BitVec.ofNat 32 j).toNat % depth)) 64 = image j n)
        ∧ (∀ p, w = .part p → s.ctl.partRec p.val = none → t.pl.mem = s.pl.mem)
        ∧ (w = .global → sets.length ≤ depth → ∀ j n, sets[j]? = some n →
            Mem.readN t.pl.mem (base + 64 * ((seq0 + BitVec.ofNat 32 j).toNat % depth)) 64 = image j n))))
  ∧ (∀ (n : Nat) (x : SetCount), let y := sharesOf n x
      y.busy + y.idle + y.stall.sum = n ∧ y.stall.length = 8 ∧ y.busy = min x.busy n)
  ∧ (∀ s : State, Quiet s →
    let o := s.pl.obs
    let on := s.ctl.own.session.isOpen = true ∧ flag (s.pl.reg 0xC0004) 31 = true ∧ flag (s.pl.reg 0xC0004) 8 = true
    let put (tr : List (List Byte)) (lost at_ : Nat) : State := { s with pl := { s.pl with obs := { o with trace := tr, lostSince := lost, syncAt := at_ } } }
    let sync : List Byte := [8, 0, 0, 0, 0, 0, 0, 0] ++ leBytes 6 o.cycle.toNat ++ [0, 0] ++ leBytes 8 s.ctl.lod.tick.toNat
      ++ leBytes 1 s.ctl.lod.state.num ++ List.replicate 7 0
    (o.cycle.toNat < o.syncAt + 1500000 → exec .traceSync s = .next s)
    ∧ (o.syncAt + 1500000 ≤ o.cycle.toNat →
      (¬ on → exec .traceSync s = .next (put o.trace o.lostSince o.cycle.toNat))
      ∧ (on → o.lostSince = 0 ∨ flag (s.pl.reg 0xC0004) 7 = false → o.trace.length < 8192 → exec .traceSync s = .next (put (o.trace ++ [sync]) o.lostSince o.cycle.toNat))))
  ∧ (∀ s : State, Quiet s →
    let o := s.pl.obs
    let up := s.ctl.own.session.isOpen = true ∧ s.ctl.dev.locks.obs = true
    let sent := o.trace.take 32
    let head : List Byte := [0x42, 0x4F] ++ leBytes 2 o.fseq.toNat ++ leBytes 1 sent.length ++ [0, 0, 0] ++ leBytes 8 s.ctl.flash.serial.toNat
      ++ fitTo 1024 sent.flatten
    let lost : List Byte := [7, 0, 0, 0, 0, 0, 0, 0] ++ leBytes 6 o.cycle.toNat ++ [0, 0] ++ leBytes 4 o.lostSince ++ List.replicate 12 0
    let left := o.trace.drop 32
    let told : Bool := o.lostSince != 0 && flag (s.pl.reg 0xC0004) 31 && flag (s.pl.reg 0xC0004) 7
    (¬ up → exec .obsFrameTx s = .next s)
    ∧ (up → o.trace.length < 8192 + 32 → exec .obsFrameTx s = .next { s with pl :=
        { s.pl with
          obsOut := (head ++ leBytes 4 (crc32c head).toNat ++ [0, 0, 0, 0]) :: s.pl.obsOut
          obs := { o with
            fseq := o.fseq + 1, lostSince := if told then 0 else o.lostSince, trace := if told then left ++ [lost] else left } } }))
  ∧ (∀ (s : State) (i : QpId), Quiet s →
    let w := s.pl.win i.val
    let again := { w with coalesceEnd := s.ctl.ns + bits (s.pl.reg 0x300030) 9 0 * 1000, counted := 0, last := [] }
    (w.coalescing = false ∨ s.ctl.ns < w.coalesceEnd → exec (.coalescingIntervalEnd i) s = .next s)
    ∧ (w.coalescing = true → w.coalesceEnd ≤ s.ctl.ns → w.counted = 0 → exec (.coalescingIntervalEnd i) s =
        .next { s with pl := s.pl.setWin i.val { w with coalescing := false, last := [] } })
    ∧ (w.coalescing = true → w.coalesceEnd ≤ s.ctl.ns → w.counted ≠ 0 →
      (partOfWin s.pl i.val = none → exec (.coalescingIntervalEnd i) s = .next { s with pl := s.pl.setWin i.val again })
      ∧ (∀ p x, partOfWin s.pl i.val = some p → s.pl.eventRing p = some x → (s.pl.event p).held = [] → 0 < s.pl.cqFree x →
          s.ctl.dev.pcieUp = true → (∀ y ∈ s.pl.hostBad, y.fn ≠ some (s.pl.holder x)) → s.pl.ringLoc (Reg.cmp x 0) = false → ∃ t, exec (.coalescingIntervalEnd i) s = .next t
          ∧ t.pl.win i.val = again ∧ (∀ j, j ≠ i.val → t.pl.win j = s.pl.win j)
          ∧ (t.pl.cq x).write = (s.pl.cq x).write + 1 ∧ (t.pl.event p).seq = (s.pl.event p).seq + 1
          ∧ Mem.readN t.pl.host (s.pl.ringBase (Reg.cmp x 0) + (s.pl.cq x).write.toNat % s.pl.cmpSize x * 32) 32 =
              [2, 0, 0, BitVec.ofNat 8 (lapOf (s.pl.cq x).write (s.pl.cmpSize x))] ++ leBytes 4 (s.pl.event p).seq.toNat
                ++ fitTo 24 (w.last ++ leBytes 2 (min w.counted 0xFFFF))
          ∧ t.ctl = s.ctl ∧ t.pl.mem = s.pl.mem)))

/-! ### Reset, invariants, encodings -/

/-- R13, R89, R91, R106, R566 and the Reset columns of the register tables: right after reset the device is in BOOT with the reset
not yet complete, nothing runs, every table is empty, both memories list nothing, and each register below has the value its table
gives. (That the machine starts inside the reset, with cause 0, is the model's choice, log 1.) -/
def Obligations.ResetLeavesTheResetColumns : Prop :=
  let s := State.reset
  let d := s.pl
  s.pending = [] ∧ Quiet s ∧ s.ctl.dev.state = .boot ∧ s.ctl.dev.inReset = true ∧ s.ctl.dev.resetCause = 0 ∧ s.ctl.dev.lit = false
    ∧ s.ctl.dev.pcieUp = false ∧ s.ctl.own.owner = 0 ∧ s.ctl.own.session.isOpen = false ∧ s.ctl.image = none ∧ s.ctl.lat.phase = .idle
    ∧ s.ctl.lod.state = .free ∧ s.ctl.flt.hist = [] ∧ s.ctl.flt.slots = [] ∧ s.ctl.flt.queue = []
    ∧ d.mem = [] ∧ Memory.wf d.mem = true ∧ Memory.wf d.host = true ∧ d.rings = [] ∧ d.cqs = [] ∧ d.qps = [] ∧ d.wins = [] ∧ d.keys = [] ∧ d.cache = []
    ∧ d.pointers = [] ∧ d.turns = []
    ∧ d.faults = [] ∧ d.veins = [] ∧ d.stg = [] ∧ d.obs.trace = []
    ∧ (∀ r ∈ [((0x30014 : Nat), (0xA8C : Word)), (0x30004, 0), (0x20008, 0), (0x20010, 0), (0x40020, 0x3E803E8), (0x40024, 0), (0x40100, 0), (0xC0004, 0),
          (0xC0020, 0), (0xC002C, 6), (0x200000, 0), (0x200008, 0x64), (0x300030, 0xA), (0x40001C, 0x3E8), (0x400020, 0xA04), (0x400040, 0x07D01014),
          (0x400044, 0xFA), (0x500000, 0x30FA0), (0x500004, 0x320032), (0x500008, 0x1080CD), (0x50000C, 0x37000A), (0x500010, 0x10), (0x600010, 4),
          (0x700000, 0x1004), (0x700004, 0x400032), (0x700008, 0x14), (0x800000, 0)], d.reg r.1 = r.2)
    ∧ (∀ n, n < 48 → d.reg (Reg.prt n 0xC) = 0x88B688B5 ∧ d.reg (Reg.prt n 0x10) = 0xC57B ∧ d.reg (Reg.prt n 0x1C) = 0xFFFFFFFF
        ∧ d.reg (Reg.prt n 0x20) = 0xFFFF ∧ d.reg (Reg.quantum n 0) = 0x24 ∧ d.reg (Reg.shapeBurst n 0) = 0x40)
    ∧ (∀ p, p < 32 → d.reg (Reg.partWeight p) = 0x10 ∧ d.reg (Reg.par p 0x10) = 0x10 ∧ d.reg (Reg.root p) = 0 ∧ d.reg (Reg.pc p 0x4C) = 6)
    ∧ Lawful s

/-- Every step from a state in which the machine's own invariant holds answers a next state in which it holds: nothing is left undone, the
fault history and queue keep their bounds (R519, R527), the outputs are dark outside TRAINING, SERVICE, DEGRADED and QUARANTINE (R84,
R106), the PCIe link is down before BOOT and during a device reset (R84, R87), a device reset runs in BOOT with the loader idle (R566), and
the slot check of BOOT and APPLY run in BOOT and in AWAIT_HOST only (R69, R70, R73). No command stops the machine. -/
def Obligations.EveryStepKeepsTheMachineLawful : Prop :=
  ∀ s : State, Lawful s → ∃ t, step s = .next t ∧ Lawful t

/-- R267, R270, R281, R287: the bytes of a packet parse as the packet, with every field at every value it can hold: unsealed, the SEALED
flag clear; sealed, the SEALED flag set, ciphertext and tag in place of the payload, and COUNTER and KEY_SLOT read back. -/
def Obligations.PacketsParseAsBuilt : Prop :=
  ∀ p : Pkt, extLen p.ptype = some p.ext.length → p.flags < 256 → p.tc < 8 → p.dst < 2 ^ 20 → p.src < 2 ^ 20 → p.dstQp < 2 ^ 24 →
    p.srcQp < 2 ^ 24 → p.msgLen < 2 ^ 32 → p.offset < 2 ^ 32 →
    (parsePkt p.bytes = { p with flags := p.flags / 2 * 2 } ∧ rawVersion p.bytes = 1 ∧ rawUnits p.bytes = p.ext.length / 8 ∧ rawSealed p.bytes = false
      ∧ payloadLen p.bytes false = some (if hasPayload p.ptype then p.payload.length else 0))
    ∧ (∀ (counter : DWord) (key : BitVec 16) (body tag : List Byte), tag.length = 16 →
      let raw := p.aad counter key.toNat ++ body ++ tag
      parsePkt raw = { p with flags := p.flags / 2 * 2 + 1, payload := body ++ tag } ∧ rawVersion raw = 1 ∧ rawUnits raw = p.ext.length / 8 + 2
        ∧ rawSealed raw = true ∧ rawCounter raw = counter ∧ rawKeySlot raw = key.toNat
        ∧ payloadLen raw false = some (if hasPayload p.ptype then body.length else 0))
end

