-- ==== Sys2Proof/Laws/Tables.lean ====
section
/-! SUPPORT. Laws of the sparse tables and of memory: what a read gives after a write, that writing keeps the canonical
form, and that tables in canonical form which read alike are equal. -/
namespace Sys2Proof.Machine

@[simp] theorem SMap.find_nil {α : Type} (d : α) (k : Nat) : SMap.find d [] k = d := rfl

theorem SMap.find_cons {α : Type} (d : α) (a : Nat) (v : α) (m : SMap α) (k : Nat) :
    SMap.find d ((a, v) :: m) k = if k = a then v else SMap.find d m k := rfl

variable {α : Type} [DecidableEq α]

/-- A read after a write to the same key gives the value written, in every table. -/
theorem SMap.find_put_same (d : α) (m : SMap α) (k : Nat) (v : α) : SMap.find d (SMap.put d m k v) k = v := by
  induction m with
  | nil => by_cases h : v = d <;> simp [SMap.put, SMap.find, h]
  | cons x m ih =>
    obtain ⟨a, w⟩ := x
    unfold SMap.put
    split
    · split
      · exact ih
      · rename_i hv hk
        simp [SMap.find_cons, hk, ih]
    · split
      · simp [SMap.find_cons]
      · split
        · simp [SMap.find_cons]
        · rename_i hk
          simp [SMap.find_cons, hk, ih]

/-- A write leaves every other key alone, in every table, whatever the two keys hold while unlisted. -/
theorem SMap.find_put_other (e d : α) (m : SMap α) (k j : Nat) (v : α) (h : j ≠ k) :
    SMap.find e (SMap.put d m k v) j = SMap.find e m j := by
  induction m with
  | nil => by_cases hv : v = d <;> simp [SMap.put, SMap.find, hv, h]
  | cons x m ih =>
    obtain ⟨a, w⟩ := x
    unfold SMap.put
    split
    · split
      · rename_i hv hk
        subst hk
        simp [SMap.find_cons, h, ih]
      · simp [SMap.find_cons, ih]
    · split
      · simp [SMap.find_cons, h]
      · split
        · rename_i hk
          subst hk
          simp [SMap.find_cons, h]
        · simp [SMap.find_cons, ih]

/-- What a table holds at `j` after a write at `k`. -/
@[simp] theorem SMap.find_put (d : α) (m : SMap α) (k j : Nat) (v : α) :
    SMap.find d (SMap.put d m k v) j = if j = k then v else SMap.find d m j := by
  by_cases h : j = k
  · subst h
    simp [SMap.find_put_same]
  · simp [h, SMap.find_put_other d d m k j v h]

theorem SMap.wfFrom_mono (d : α) {lo hi : Nat} (h : lo ≤ hi) {m : SMap α} (w : SMap.wfFrom d hi m = true) :
    SMap.wfFrom d lo m = true := by
  cases m with
  | nil => rfl
  | cons x m =>
    obtain ⟨a, v⟩ := x
    simp only [SMap.wfFrom, Bool.and_eq_true, decide_eq_true_eq] at w ⊢
    exact ⟨⟨by omega, w.1.2⟩, w.2⟩

theorem SMap.put_wfFrom (d : α) (m : SMap α) (lo k : Nat) (v : α) (hk : lo ≤ k) (w : SMap.wfFrom d lo m = true) :
    SMap.wfFrom d lo (SMap.put d m k v) = true := by
  induction m generalizing lo with
  | nil => by_cases h : v = d <;> simp [SMap.put, SMap.wfFrom, h, hk]
  | cons x m ih =>
    obtain ⟨a, u⟩ := x
    simp only [SMap.wfFrom, Bool.and_eq_true, decide_eq_true_eq] at w
    unfold SMap.put
    split
    · split
      · exact ih lo hk (SMap.wfFrom_mono d (by omega) w.2)
      · rename_i hv hne
        by_cases hka : k < a
        · have hm : ∀ (lo : Nat) (m : SMap α), k < lo → SMap.wfFrom d lo m = true → SMap.put d m k v = m := by
            intro lo m
            induction m generalizing lo with
            | nil => intro _ _; simp [SMap.put, hv]
            | cons y m ih2 =>
              obtain ⟨b, t⟩ := y
              intro hl hw
              simp only [SMap.wfFrom, Bool.and_eq_true, decide_eq_true_eq] at hw
              have hb : k ≠ b := by omega
              simp [SMap.put, hv, hb]
              have := ih2 (b + 1) (by omega) hw.2
              rw [hv] at this
              exact this
          rw [hm (a + 1) m (by omega) w.2]
          simp [SMap.wfFrom, w.1.1, w.1.2, w.2]
        · simp only [SMap.wfFrom, Bool.and_eq_true, decide_eq_true_eq]
          exact ⟨w.1, ih (a + 1) (by omega) w.2⟩
    · rename_i hv
      split
      · simp [SMap.wfFrom, hk, hv, w.2]
        exact ⟨by omega, by simpa using w.1.2⟩
      · split
        · rename_i hka
          subst hka
          simp [SMap.wfFrom, hk, hv, w.2]
        · simp only [SMap.wfFrom, Bool.and_eq_true, decide_eq_true_eq]
          exact ⟨w.1, ih (a + 1) (by omega) w.2⟩

/-- A write keeps the canonical form of a table. -/
theorem SMap.put_wf (d : α) (m : SMap α) (k : Nat) (v : α) (w : SMap.wf d m = true) : SMap.wf d (SMap.put d m k v) = true :=
  SMap.put_wfFrom d m 0 k v (Nat.zero_le k) w

/-! ### Memory -/

@[simp] theorem Mem.read_write (m : Mem) (a b : Nat) (v : Byte) : Mem.read (Mem.write m a v) b = if b = a then v else Mem.read m b :=
  SMap.find_put _ m a b v

/-- Every write of one byte keeps the canonical form of memory. -/
theorem Mem.write_wf (m : Mem) (a : Nat) (v : Byte) (w : Memory.wf m = true) : Memory.wf (Mem.write m a v) = true :=
  SMap.put_wf _ m a v w

/-- Every write of bytes keeps the canonical form of memory. -/
theorem Mem.writeN_wf (bs : List Byte) : ∀ (m : Mem) (a : Nat), Memory.wf m = true → Memory.wf (Mem.writeN m a bs) = true := by
  induction bs with
  | nil => intro m a w; exact w
  | cons b bs ih => intro m a w; exact ih _ _ (Mem.write_wf m a b w)

/-- What a byte reads as after a write of bytes from address `a`. -/
theorem Mem.read_writeN (bs : List Byte) : ∀ (m : Mem) (a x : Nat),
    Mem.read (Mem.writeN m a bs) x = if a ≤ x ∧ x < a + bs.length then bs[x - a]?.getD 0 else Mem.read m x := by
  induction bs with
  | nil =>
    intro m a x
    rw [if_neg (show ¬ (a ≤ x ∧ x < a + ([] : List Byte).length) by simp)]
    rfl
  | cons b bs ih =>
    intro m a x
    simp only [Mem.writeN, ih, Mem.read_write, List.length_cons]
    by_cases h : x = a
    · subst h
      rw [if_neg (show ¬ (x + 1 ≤ x ∧ x < x + 1 + bs.length) by omega)]
      simp
    · by_cases h1 : a + 1 ≤ x ∧ x < a + 1 + bs.length
      · have h2 : a ≤ x ∧ x < a + (bs.length + 1) := by omega
        have h3 : x - a = (x - (a + 1)) + 1 := by omega
        rw [if_pos h1, if_pos h2, h3]
        simp
      · have h2 : ¬ (a ≤ x ∧ x < a + (bs.length + 1)) := by omega
        rw [if_neg h1, if_neg h2, if_neg h]

/-- A write of bytes leaves every byte outside them alone. -/
theorem Mem.read_writeN_outside (m : Mem) (a x : Nat) (bs : List Byte) (h : x < a ∨ a + bs.length ≤ x) :
    Mem.read (Mem.writeN m a bs) x = Mem.read m x := by
  rw [Mem.read_writeN, if_neg (by omega)]

@[simp] theorem Mem.readN_length (m : Mem) (a n : Nat) : (Mem.readN m a n).length = n := by
  induction n generalizing a with
  | zero => rfl
  | succ n ih => simp [Mem.readN, ih]

/-- The memory after reset is in canonical form. -/
theorem Memory.wf_reset : Memory.wf State.reset.pl.mem = true ∧ Memory.wf State.reset.pl.host = true := ⟨rfl, rfl⟩

end Sys2Proof.Machine
end

