-- ==== Sys2Proof/Laws/State.lean ====
section
/-! SUPPORT. What every named update of the state leaves: one lemma per field per update, and what each table holds after
one of its entries is set. Every table may be read at every key, so the laws hold in every state. -/
namespace Sys2Proof.Machine

/-! ### The parts of the state -/

@[simp] theorem onPlane_pending (f : Ctl → Plane → Plane) (s : State) : (onPlane f s).pending = s.pending := rfl
@[simp] theorem onPlane_ctl (f : Ctl → Plane → Plane) (s : State) : (onPlane f s).ctl = s.ctl := rfl
@[simp] theorem onPlane_pl (f : Ctl → Plane → Plane) (s : State) : (onPlane f s).pl = f s.ctl s.pl := rfl
@[simp] theorem onCtl_pending (f : Ctl → Ctl) (s : State) : (onCtl f s).pending = s.pending := rfl
@[simp] theorem onCtl_pl (f : Ctl → Ctl) (s : State) : (onCtl f s).pl = s.pl := rfl
@[simp] theorem onCtl_ctl (f : Ctl → Ctl) (s : State) : (onCtl f s).ctl = f s.ctl := rfl
@[simp] theorem onOwn_pending (f : Own → Own) (s : State) : (onOwn f s).pending = s.pending := rfl
@[simp] theorem onOwn_pl (f : Own → Own) (s : State) : (onOwn f s).pl = s.pl := rfl
@[simp] theorem onOwn_ns (f : Own → Own) (s : State) : (onOwn f s).ctl.ns = s.ctl.ns := rfl
@[simp] theorem onOwn_dev (f : Own → Own) (s : State) : (onOwn f s).ctl.dev = s.ctl.dev := rfl
@[simp] theorem onOwn_own (f : Own → Own) (s : State) : (onOwn f s).ctl.own = f s.ctl.own := rfl
@[simp] theorem onOwn_flash (f : Own → Own) (s : State) : (onOwn f s).ctl.flash = s.ctl.flash := rfl
@[simp] theorem onOwn_inEffect (f : Own → Own) (s : State) : (onOwn f s).ctl.inEffect = s.ctl.inEffect := rfl
@[simp] theorem onOwn_snaps (f : Own → Own) (s : State) : (onOwn f s).ctl.snaps = s.ctl.snaps := rfl
@[simp] theorem onOwn_held (f : Own → Own) (s : State) : (onOwn f s).ctl.held = s.ctl.held := rfl
@[simp] theorem onOwn_lat (f : Own → Own) (s : State) : (onOwn f s).ctl.lat = s.ctl.lat := rfl
@[simp] theorem onOwn_image (f : Own → Own) (s : State) : (onOwn f s).ctl.image = s.ctl.image := rfl
@[simp] theorem onOwn_lod (f : Own → Own) (s : State) : (onOwn f s).ctl.lod = s.ctl.lod := rfl
@[simp] theorem onOwn_flt (f : Own → Own) (s : State) : (onOwn f s).ctl.flt = s.ctl.flt := rfl
@[simp] theorem onOwn_hbm (f : Own → Own) (s : State) : (onOwn f s).ctl.hbm = s.ctl.hbm := rfl
@[simp] theorem onDev_pending (f : Dev → Dev) (s : State) : (onDev f s).pending = s.pending := rfl
@[simp] theorem onDev_pl (f : Dev → Dev) (s : State) : (onDev f s).pl = s.pl := rfl
@[simp] theorem onDev_ns (f : Dev → Dev) (s : State) : (onDev f s).ctl.ns = s.ctl.ns := rfl
@[simp] theorem onDev_dev (f : Dev → Dev) (s : State) : (onDev f s).ctl.dev = f s.ctl.dev := rfl
@[simp] theorem onDev_own (f : Dev → Dev) (s : State) : (onDev f s).ctl.own = s.ctl.own := rfl
@[simp] theorem onDev_flash (f : Dev → Dev) (s : State) : (onDev f s).ctl.flash = s.ctl.flash := rfl
@[simp] theorem onDev_inEffect (f : Dev → Dev) (s : State) : (onDev f s).ctl.inEffect = s.ctl.inEffect := rfl
@[simp] theorem onDev_snaps (f : Dev → Dev) (s : State) : (onDev f s).ctl.snaps = s.ctl.snaps := rfl
@[simp] theorem onDev_held (f : Dev → Dev) (s : State) : (onDev f s).ctl.held = s.ctl.held := rfl
@[simp] theorem onDev_lat (f : Dev → Dev) (s : State) : (onDev f s).ctl.lat = s.ctl.lat := rfl
@[simp] theorem onDev_image (f : Dev → Dev) (s : State) : (onDev f s).ctl.image = s.ctl.image := rfl
@[simp] theorem onDev_lod (f : Dev → Dev) (s : State) : (onDev f s).ctl.lod = s.ctl.lod := rfl
@[simp] theorem onDev_flt (f : Dev → Dev) (s : State) : (onDev f s).ctl.flt = s.ctl.flt := rfl
@[simp] theorem onDev_hbm (f : Dev → Dev) (s : State) : (onDev f s).ctl.hbm = s.ctl.hbm := rfl
@[simp] theorem onFlash_pending (f : Flash → Flash) (s : State) : (onFlash f s).pending = s.pending := rfl
@[simp] theorem onFlash_pl (f : Flash → Flash) (s : State) : (onFlash f s).pl = s.pl := rfl
@[simp] theorem onFlash_ns (f : Flash → Flash) (s : State) : (onFlash f s).ctl.ns = s.ctl.ns := rfl
@[simp] theorem onFlash_dev (f : Flash → Flash) (s : State) : (onFlash f s).ctl.dev = s.ctl.dev := rfl
@[simp] theorem onFlash_own (f : Flash → Flash) (s : State) : (onFlash f s).ctl.own = s.ctl.own := rfl
@[simp] theorem onFlash_flash (f : Flash → Flash) (s : State) : (onFlash f s).ctl.flash = f s.ctl.flash := rfl
@[simp] theorem onFlash_inEffect (f : Flash → Flash) (s : State) : (onFlash f s).ctl.inEffect = s.ctl.inEffect := rfl
@[simp] theorem onFlash_snaps (f : Flash → Flash) (s : State) : (onFlash f s).ctl.snaps = s.ctl.snaps := rfl
@[simp] theorem onFlash_held (f : Flash → Flash) (s : State) : (onFlash f s).ctl.held = s.ctl.held := rfl
@[simp] theorem onFlash_lat (f : Flash → Flash) (s : State) : (onFlash f s).ctl.lat = s.ctl.lat := rfl
@[simp] theorem onFlash_image (f : Flash → Flash) (s : State) : (onFlash f s).ctl.image = s.ctl.image := rfl
@[simp] theorem onFlash_lod (f : Flash → Flash) (s : State) : (onFlash f s).ctl.lod = s.ctl.lod := rfl
@[simp] theorem onFlash_flt (f : Flash → Flash) (s : State) : (onFlash f s).ctl.flt = s.ctl.flt := rfl
@[simp] theorem onFlash_hbm (f : Flash → Flash) (s : State) : (onFlash f s).ctl.hbm = s.ctl.hbm := rfl
@[simp] theorem onLat_pending (f : Lat → Lat) (s : State) : (onLat f s).pending = s.pending := rfl
@[simp] theorem onLat_pl (f : Lat → Lat) (s : State) : (onLat f s).pl = s.pl := rfl
@[simp] theorem onLat_ns (f : Lat → Lat) (s : State) : (onLat f s).ctl.ns = s.ctl.ns := rfl
@[simp] theorem onLat_dev (f : Lat → Lat) (s : State) : (onLat f s).ctl.dev = s.ctl.dev := rfl
@[simp] theorem onLat_own (f : Lat → Lat) (s : State) : (onLat f s).ctl.own = s.ctl.own := rfl
@[simp] theorem onLat_flash (f : Lat → Lat) (s : State) : (onLat f s).ctl.flash = s.ctl.flash := rfl
@[simp] theorem onLat_inEffect (f : Lat → Lat) (s : State) : (onLat f s).ctl.inEffect = s.ctl.inEffect := rfl
@[simp] theorem onLat_snaps (f : Lat → Lat) (s : State) : (onLat f s).ctl.snaps = s.ctl.snaps := rfl
@[simp] theorem onLat_held (f : Lat → Lat) (s : State) : (onLat f s).ctl.held = s.ctl.held := rfl
@[simp] theorem onLat_lat (f : Lat → Lat) (s : State) : (onLat f s).ctl.lat = f s.ctl.lat := rfl
@[simp] theorem onLat_image (f : Lat → Lat) (s : State) : (onLat f s).ctl.image = s.ctl.image := rfl
@[simp] theorem onLat_lod (f : Lat → Lat) (s : State) : (onLat f s).ctl.lod = s.ctl.lod := rfl
@[simp] theorem onLat_flt (f : Lat → Lat) (s : State) : (onLat f s).ctl.flt = s.ctl.flt := rfl
@[simp] theorem onLat_hbm (f : Lat → Lat) (s : State) : (onLat f s).ctl.hbm = s.ctl.hbm := rfl
@[simp] theorem onLod_pending (f : Lod → Lod) (s : State) : (onLod f s).pending = s.pending := rfl
@[simp] theorem onLod_pl (f : Lod → Lod) (s : State) : (onLod f s).pl = s.pl := rfl
@[simp] theorem onLod_ns (f : Lod → Lod) (s : State) : (onLod f s).ctl.ns = s.ctl.ns := rfl
@[simp] theorem onLod_dev (f : Lod → Lod) (s : State) : (onLod f s).ctl.dev = s.ctl.dev := rfl
@[simp] theorem onLod_own (f : Lod → Lod) (s : State) : (onLod f s).ctl.own = s.ctl.own := rfl
@[simp] theorem onLod_flash (f : Lod → Lod) (s : State) : (onLod f s).ctl.flash = s.ctl.flash := rfl
@[simp] theorem onLod_inEffect (f : Lod → Lod) (s : State) : (onLod f s).ctl.inEffect = s.ctl.inEffect := rfl
@[simp] theorem onLod_snaps (f : Lod → Lod) (s : State) : (onLod f s).ctl.snaps = s.ctl.snaps := rfl
@[simp] theorem onLod_held (f : Lod → Lod) (s : State) : (onLod f s).ctl.held = s.ctl.held := rfl
@[simp] theorem onLod_lat (f : Lod → Lod) (s : State) : (onLod f s).ctl.lat = s.ctl.lat := rfl
@[simp] theorem onLod_image (f : Lod → Lod) (s : State) : (onLod f s).ctl.image = s.ctl.image := rfl
@[simp] theorem onLod_lod (f : Lod → Lod) (s : State) : (onLod f s).ctl.lod = f s.ctl.lod := rfl
@[simp] theorem onLod_flt (f : Lod → Lod) (s : State) : (onLod f s).ctl.flt = s.ctl.flt := rfl
@[simp] theorem onLod_hbm (f : Lod → Lod) (s : State) : (onLod f s).ctl.hbm = s.ctl.hbm := rfl
@[simp] theorem onFlt_pending (f : Flt → Flt) (s : State) : (onFlt f s).pending = s.pending := rfl
@[simp] theorem onFlt_pl (f : Flt → Flt) (s : State) : (onFlt f s).pl = s.pl := rfl
@[simp] theorem onFlt_ns (f : Flt → Flt) (s : State) : (onFlt f s).ctl.ns = s.ctl.ns := rfl
@[simp] theorem onFlt_dev (f : Flt → Flt) (s : State) : (onFlt f s).ctl.dev = s.ctl.dev := rfl
@[simp] theorem onFlt_own (f : Flt → Flt) (s : State) : (onFlt f s).ctl.own = s.ctl.own := rfl
@[simp] theorem onFlt_flash (f : Flt → Flt) (s : State) : (onFlt f s).ctl.flash = s.ctl.flash := rfl
@[simp] theorem onFlt_inEffect (f : Flt → Flt) (s : State) : (onFlt f s).ctl.inEffect = s.ctl.inEffect := rfl
@[simp] theorem onFlt_snaps (f : Flt → Flt) (s : State) : (onFlt f s).ctl.snaps = s.ctl.snaps := rfl
@[simp] theorem onFlt_held (f : Flt → Flt) (s : State) : (onFlt f s).ctl.held = s.ctl.held := rfl
@[simp] theorem onFlt_lat (f : Flt → Flt) (s : State) : (onFlt f s).ctl.lat = s.ctl.lat := rfl
@[simp] theorem onFlt_image (f : Flt → Flt) (s : State) : (onFlt f s).ctl.image = s.ctl.image := rfl
@[simp] theorem onFlt_lod (f : Flt → Flt) (s : State) : (onFlt f s).ctl.lod = s.ctl.lod := rfl
@[simp] theorem onFlt_flt (f : Flt → Flt) (s : State) : (onFlt f s).ctl.flt = f s.ctl.flt := rfl
@[simp] theorem onFlt_hbm (f : Flt → Flt) (s : State) : (onFlt f s).ctl.hbm = s.ctl.hbm := rfl

/-! ### The tables of the data side -/

@[simp] theorem Plane.setReg_seq (d : Plane) (a : Nat) (v : Word) : (d.setReg a v).seq = d.seq := rfl
@[simp] theorem Plane.setReg_bus (d : Plane) (a : Nat) (v : Word) : (d.setReg a v).bus = d.bus := rfl
@[simp] theorem Plane.setReg_ports (d : Plane) (a : Nat) (v : Word) : (d.setReg a v).ports = d.ports := rfl
@[simp] theorem Plane.setReg_flows (d : Plane) (a : Nat) (v : Word) : (d.setReg a v).flows = d.flows := rfl
@[simp] theorem Plane.setReg_wheels (d : Plane) (a : Nat) (v : Word) : (d.setReg a v).wheels = d.wheels := rfl
@[simp] theorem Plane.setReg_parts (d : Plane) (a : Nat) (v : Word) : (d.setReg a v).parts = d.parts := rfl
@[simp] theorem Plane.setReg_vfs (d : Plane) (a : Nat) (v : Word) : (d.setReg a v).vfs = d.vfs := rfl
@[simp] theorem Plane.setReg_par (d : Plane) (a : Nat) (v : Word) : (d.setReg a v).par = d.par := rfl
@[simp] theorem Plane.setReg_mem (d : Plane) (a : Nat) (v : Word) : (d.setReg a v).mem = d.mem := rfl
@[simp] theorem Plane.setReg_host (d : Plane) (a : Nat) (v : Word) : (d.setReg a v).host = d.host := rfl
@[simp] theorem Plane.setReg_hostBad (d : Plane) (a : Nat) (v : Word) : (d.setReg a v).hostBad = d.hostBad := rfl
@[simp] theorem Plane.setReg_portPart (d : Plane) (a : Nat) (v : Word) : (d.setReg a v).portPart = d.portPart := rfl
@[simp] theorem Plane.setReg_poison (d : Plane) (a : Nat) (v : Word) : (d.setReg a v).poison = d.poison := rfl
@[simp] theorem Plane.setReg_faults (d : Plane) (a : Nat) (v : Word) : (d.setReg a v).faults = d.faults := rfl
@[simp] theorem Plane.setReg_slotless (d : Plane) (a : Nat) (v : Word) : (d.setReg a v).slotless = d.slotless := rfl
@[simp] theorem Plane.setReg_cache (d : Plane) (a : Nat) (v : Word) : (d.setReg a v).cache = d.cache := rfl
@[simp] theorem Plane.setReg_pointers (d : Plane) (a : Nat) (v : Word) : (d.setReg a v).pointers = d.pointers := rfl
@[simp] theorem Plane.setReg_wins (d : Plane) (a : Nat) (v : Word) : (d.setReg a v).wins = d.wins := rfl
@[simp] theorem Plane.setReg_rings (d : Plane) (a : Nat) (v : Word) : (d.setReg a v).rings = d.rings := rfl
@[simp] theorem Plane.setReg_cqs (d : Plane) (a : Nat) (v : Word) : (d.setReg a v).cqs = d.cqs := rfl
@[simp] theorem Plane.setReg_events (d : Plane) (a : Nat) (v : Word) : (d.setReg a v).events = d.events := rfl
@[simp] theorem Plane.setReg_qps (d : Plane) (a : Nat) (v : Word) : (d.setReg a v).qps = d.qps := rfl
@[simp] theorem Plane.setReg_xpt (d : Plane) (a : Nat) (v : Word) : (d.setReg a v).xpt = d.xpt := rfl
@[simp] theorem Plane.setReg_stg (d : Plane) (a : Nat) (v : Word) : (d.setReg a v).stg = d.stg := rfl
@[simp] theorem Plane.setReg_col (d : Plane) (a : Nat) (v : Word) : (d.setReg a v).col = d.col := rfl
@[simp] theorem Plane.setReg_veins (d : Plane) (a : Nat) (v : Word) : (d.setReg a v).veins = d.veins := rfl
@[simp] theorem Plane.setReg_turns (d : Plane) (a : Nat) (v : Word) : (d.setReg a v).turns = d.turns := rfl
@[simp] theorem Plane.setReg_keys (d : Plane) (a : Nat) (v : Word) : (d.setReg a v).keys = d.keys := rfl
@[simp] theorem Plane.setReg_cip (d : Plane) (a : Nat) (v : Word) : (d.setReg a v).cip = d.cip := rfl
@[simp] theorem Plane.setReg_obs (d : Plane) (a : Nat) (v : Word) : (d.setReg a v).obs = d.obs := rfl
@[simp] theorem Plane.setReg_wire (d : Plane) (a : Nat) (v : Word) : (d.setReg a v).wire = d.wire := rfl
@[simp] theorem Plane.setReg_msix (d : Plane) (a : Nat) (v : Word) : (d.setReg a v).msix = d.msix := rfl
@[simp] theorem Plane.setReg_obsOut (d : Plane) (a : Nat) (v : Word) : (d.setReg a v).obsOut = d.obsOut := rfl
@[simp] theorem Plane.setReg_effects (d : Plane) (a : Nat) (v : Word) : (d.setReg a v).effects = d.effects := rfl
@[simp] theorem Plane.setReg_reg (d : Plane) (a : Nat) (v : Word) (b : Nat) : (d.setReg a v).reg b = if b = a then v else d.reg b := by
  unfold Plane.reg Plane.setReg
  by_cases h : b = a
  · subst h
    simp
  · simp [h, SMap.find_put_other _ _ _ _ _ _ h]
@[simp] theorem Plane.setReg_port (d : Plane) (a : Nat) (v : Word) (m : Nat) : (d.setReg a v).port m = d.port m := rfl
@[simp] theorem Plane.setReg_flow (d : Plane) (a : Nat) (v : Word) (m : Nat) : (d.setReg a v).flow m = d.flow m := rfl
@[simp] theorem Plane.setReg_wheel (d : Plane) (a : Nat) (v : Word) (m : Nat) : (d.setReg a v).wheel m = d.wheel m := rfl
@[simp] theorem Plane.setReg_part (d : Plane) (a : Nat) (v : Word) (m : Nat) : (d.setReg a v).part m = d.part m := rfl
@[simp] theorem Plane.setReg_vf (d : Plane) (a : Nat) (v : Word) (m : Nat) : (d.setReg a v).vf m = d.vf m := rfl
@[simp] theorem Plane.setReg_slot (d : Plane) (a : Nat) (v : Word) (m : Nat) : (d.setReg a v).slot m = d.slot m := rfl
@[simp] theorem Plane.setReg_win (d : Plane) (a : Nat) (v : Word) (m : Nat) : (d.setReg a v).win m = d.win m := rfl
@[simp] theorem Plane.setReg_ring (d : Plane) (a : Nat) (v : Word) (m : Nat) : (d.setReg a v).ring m = d.ring m := rfl
@[simp] theorem Plane.setReg_cq (d : Plane) (a : Nat) (v : Word) (m : Nat) : (d.setReg a v).cq m = d.cq m := rfl
@[simp] theorem Plane.setReg_event (d : Plane) (a : Nat) (v : Word) (m : Nat) : (d.setReg a v).event m = d.event m := rfl
@[simp] theorem Plane.setReg_qp (d : Plane) (a : Nat) (v : Word) (m : Nat) : (d.setReg a v).qp m = d.qp m := rfl
@[simp] theorem Plane.setReg_queue (d : Plane) (a : Nat) (v : Word) (m : Nat) : (d.setReg a v).queue m = d.queue m := rfl
@[simp] theorem Plane.setReg_vein (d : Plane) (a : Nat) (v : Word) (m : Nat) : (d.setReg a v).vein m = d.vein m := rfl
@[simp] theorem Plane.setReg_key (d : Plane) (a : Nat) (v : Word) (m : Nat) : (d.setReg a v).key m = d.key m := rfl
@[simp] theorem Plane.setPort_seq (d : Plane) (n : Nat) (v : Port) : (d.setPort n v).seq = d.seq := rfl
@[simp] theorem Plane.setPort_regs (d : Plane) (n : Nat) (v : Port) : (d.setPort n v).regs = d.regs := rfl
@[simp] theorem Plane.setPort_bus (d : Plane) (n : Nat) (v : Port) : (d.setPort n v).bus = d.bus := rfl
@[simp] theorem Plane.setPort_flows (d : Plane) (n : Nat) (v : Port) : (d.setPort n v).flows = d.flows := rfl
@[simp] theorem Plane.setPort_wheels (d : Plane) (n : Nat) (v : Port) : (d.setPort n v).wheels = d.wheels := rfl
@[simp] theorem Plane.setPort_parts (d : Plane) (n : Nat) (v : Port) : (d.setPort n v).parts = d.parts := rfl
@[simp] theorem Plane.setPort_vfs (d : Plane) (n : Nat) (v : Port) : (d.setPort n v).vfs = d.vfs := rfl
@[simp] theorem Plane.setPort_par (d : Plane) (n : Nat) (v : Port) : (d.setPort n v).par = d.par := rfl
@[simp] theorem Plane.setPort_mem (d : Plane) (n : Nat) (v : Port) : (d.setPort n v).mem = d.mem := rfl
@[simp] theorem Plane.setPort_host (d : Plane) (n : Nat) (v : Port) : (d.setPort n v).host = d.host := rfl
@[simp] theorem Plane.setPort_hostBad (d : Plane) (n : Nat) (v : Port) : (d.setPort n v).hostBad = d.hostBad := rfl
@[simp] theorem Plane.setPort_portPart (d : Plane) (n : Nat) (v : Port) : (d.setPort n v).portPart = d.portPart := rfl
@[simp] theorem Plane.setPort_poison (d : Plane) (n : Nat) (v : Port) : (d.setPort n v).poison = d.poison := rfl
@[simp] theorem Plane.setPort_faults (d : Plane) (n : Nat) (v : Port) : (d.setPort n v).faults = d.faults := rfl
@[simp] theorem Plane.setPort_slotless (d : Plane) (n : Nat) (v : Port) : (d.setPort n v).slotless = d.slotless := rfl
@[simp] theorem Plane.setPort_cache (d : Plane) (n : Nat) (v : Port) : (d.setPort n v).cache = d.cache := rfl
@[simp] theorem Plane.setPort_pointers (d : Plane) (n : Nat) (v : Port) : (d.setPort n v).pointers = d.pointers := rfl
@[simp] theorem Plane.setPort_wins (d : Plane) (n : Nat) (v : Port) : (d.setPort n v).wins = d.wins := rfl
@[simp] theorem Plane.setPort_rings (d : Plane) (n : Nat) (v : Port) : (d.setPort n v).rings = d.rings := rfl
@[simp] theorem Plane.setPort_cqs (d : Plane) (n : Nat) (v : Port) : (d.setPort n v).cqs = d.cqs := rfl
@[simp] theorem Plane.setPort_events (d : Plane) (n : Nat) (v : Port) : (d.setPort n v).events = d.events := rfl
@[simp] theorem Plane.setPort_qps (d : Plane) (n : Nat) (v : Port) : (d.setPort n v).qps = d.qps := rfl
@[simp] theorem Plane.setPort_xpt (d : Plane) (n : Nat) (v : Port) : (d.setPort n v).xpt = d.xpt := rfl
@[simp] theorem Plane.setPort_stg (d : Plane) (n : Nat) (v : Port) : (d.setPort n v).stg = d.stg := rfl
@[simp] theorem Plane.setPort_col (d : Plane) (n : Nat) (v : Port) : (d.setPort n v).col = d.col := rfl
@[simp] theorem Plane.setPort_veins (d : Plane) (n : Nat) (v : Port) : (d.setPort n v).veins = d.veins := rfl
@[simp] theorem Plane.setPort_turns (d : Plane) (n : Nat) (v : Port) : (d.setPort n v).turns = d.turns := rfl
@[simp] theorem Plane.setPort_keys (d : Plane) (n : Nat) (v : Port) : (d.setPort n v).keys = d.keys := rfl
@[simp] theorem Plane.setPort_cip (d : Plane) (n : Nat) (v : Port) : (d.setPort n v).cip = d.cip := rfl
@[simp] theorem Plane.setPort_obs (d : Plane) (n : Nat) (v : Port) : (d.setPort n v).obs = d.obs := rfl
@[simp] theorem Plane.setPort_wire (d : Plane) (n : Nat) (v : Port) : (d.setPort n v).wire = d.wire := rfl
@[simp] theorem Plane.setPort_msix (d : Plane) (n : Nat) (v : Port) : (d.setPort n v).msix = d.msix := rfl
@[simp] theorem Plane.setPort_obsOut (d : Plane) (n : Nat) (v : Port) : (d.setPort n v).obsOut = d.obsOut := rfl
@[simp] theorem Plane.setPort_effects (d : Plane) (n : Nat) (v : Port) : (d.setPort n v).effects = d.effects := rfl
@[simp] theorem Plane.setPort_reg (d : Plane) (n : Nat) (v : Port) (m : Nat) : (d.setPort n v).reg m = d.reg m := rfl
@[simp] theorem Plane.setPort_port (d : Plane) (n : Nat) (v : Port) (m : Nat) : (d.setPort n v).port m = if m = n then v else d.port m :=
  SMap.find_put _ _ _ _ _
@[simp] theorem Plane.setPort_flow (d : Plane) (n : Nat) (v : Port) (m : Nat) : (d.setPort n v).flow m = d.flow m := rfl
@[simp] theorem Plane.setPort_wheel (d : Plane) (n : Nat) (v : Port) (m : Nat) : (d.setPort n v).wheel m = d.wheel m := rfl
@[simp] theorem Plane.setPort_part (d : Plane) (n : Nat) (v : Port) (m : Nat) : (d.setPort n v).part m = d.part m := rfl
@[simp] theorem Plane.setPort_vf (d : Plane) (n : Nat) (v : Port) (m : Nat) : (d.setPort n v).vf m = d.vf m := rfl
@[simp] theorem Plane.setPort_slot (d : Plane) (n : Nat) (v : Port) (m : Nat) : (d.setPort n v).slot m = d.slot m := rfl
@[simp] theorem Plane.setPort_win (d : Plane) (n : Nat) (v : Port) (m : Nat) : (d.setPort n v).win m = d.win m := rfl
@[simp] theorem Plane.setPort_ring (d : Plane) (n : Nat) (v : Port) (m : Nat) : (d.setPort n v).ring m = d.ring m := rfl
@[simp] theorem Plane.setPort_cq (d : Plane) (n : Nat) (v : Port) (m : Nat) : (d.setPort n v).cq m = d.cq m := rfl
@[simp] theorem Plane.setPort_event (d : Plane) (n : Nat) (v : Port) (m : Nat) : (d.setPort n v).event m = d.event m := rfl
@[simp] theorem Plane.setPort_qp (d : Plane) (n : Nat) (v : Port) (m : Nat) : (d.setPort n v).qp m = d.qp m := rfl
@[simp] theorem Plane.setPort_queue (d : Plane) (n : Nat) (v : Port) (m : Nat) : (d.setPort n v).queue m = d.queue m := rfl
@[simp] theorem Plane.setPort_vein (d : Plane) (n : Nat) (v : Port) (m : Nat) : (d.setPort n v).vein m = d.vein m := rfl
@[simp] theorem Plane.setPort_key (d : Plane) (n : Nat) (v : Port) (m : Nat) : (d.setPort n v).key m = d.key m := rfl
@[simp] theorem Plane.setFlow_seq (d : Plane) (n : Nat) (v : Flow) : (d.setFlow n v).seq = d.seq := rfl
@[simp] theorem Plane.setFlow_regs (d : Plane) (n : Nat) (v : Flow) : (d.setFlow n v).regs = d.regs := rfl
@[simp] theorem Plane.setFlow_bus (d : Plane) (n : Nat) (v : Flow) : (d.setFlow n v).bus = d.bus := rfl
@[simp] theorem Plane.setFlow_ports (d : Plane) (n : Nat) (v : Flow) : (d.setFlow n v).ports = d.ports := rfl
@[simp] theorem Plane.setFlow_wheels (d : Plane) (n : Nat) (v : Flow) : (d.setFlow n v).wheels = d.wheels := rfl
@[simp] theorem Plane.setFlow_parts (d : Plane) (n : Nat) (v : Flow) : (d.setFlow n v).parts = d.parts := rfl
@[simp] theorem Plane.setFlow_vfs (d : Plane) (n : Nat) (v : Flow) : (d.setFlow n v).vfs = d.vfs := rfl
@[simp] theorem Plane.setFlow_par (d : Plane) (n : Nat) (v : Flow) : (d.setFlow n v).par = d.par := rfl
@[simp] theorem Plane.setFlow_mem (d : Plane) (n : Nat) (v : Flow) : (d.setFlow n v).mem = d.mem := rfl
@[simp] theorem Plane.setFlow_host (d : Plane) (n : Nat) (v : Flow) : (d.setFlow n v).host = d.host := rfl
@[simp] theorem Plane.setFlow_hostBad (d : Plane) (n : Nat) (v : Flow) : (d.setFlow n v).hostBad = d.hostBad := rfl
@[simp] theorem Plane.setFlow_portPart (d : Plane) (n : Nat) (v : Flow) : (d.setFlow n v).portPart = d.portPart := rfl
@[simp] theorem Plane.setFlow_poison (d : Plane) (n : Nat) (v : Flow) : (d.setFlow n v).poison = d.poison := rfl
@[simp] theorem Plane.setFlow_faults (d : Plane) (n : Nat) (v : Flow) : (d.setFlow n v).faults = d.faults := rfl
@[simp] theorem Plane.setFlow_slotless (d : Plane) (n : Nat) (v : Flow) : (d.setFlow n v).slotless = d.slotless := rfl
@[simp] theorem Plane.setFlow_cache (d : Plane) (n : Nat) (v : Flow) : (d.setFlow n v).cache = d.cache := rfl
@[simp] theorem Plane.setFlow_pointers (d : Plane) (n : Nat) (v : Flow) : (d.setFlow n v).pointers = d.pointers := rfl
@[simp] theorem Plane.setFlow_wins (d : Plane) (n : Nat) (v : Flow) : (d.setFlow n v).wins = d.wins := rfl
@[simp] theorem Plane.setFlow_rings (d : Plane) (n : Nat) (v : Flow) : (d.setFlow n v).rings = d.rings := rfl
@[simp] theorem Plane.setFlow_cqs (d : Plane) (n : Nat) (v : Flow) : (d.setFlow n v).cqs = d.cqs := rfl
@[simp] theorem Plane.setFlow_events (d : Plane) (n : Nat) (v : Flow) : (d.setFlow n v).events = d.events := rfl
@[simp] theorem Plane.setFlow_qps (d : Plane) (n : Nat) (v : Flow) : (d.setFlow n v).qps = d.qps := rfl
@[simp] theorem Plane.setFlow_xpt (d : Plane) (n : Nat) (v : Flow) : (d.setFlow n v).xpt = d.xpt := rfl
@[simp] theorem Plane.setFlow_stg (d : Plane) (n : Nat) (v : Flow) : (d.setFlow n v).stg = d.stg := rfl
@[simp] theorem Plane.setFlow_col (d : Plane) (n : Nat) (v : Flow) : (d.setFlow n v).col = d.col := rfl
@[simp] theorem Plane.setFlow_veins (d : Plane) (n : Nat) (v : Flow) : (d.setFlow n v).veins = d.veins := rfl
@[simp] theorem Plane.setFlow_turns (d : Plane) (n : Nat) (v : Flow) : (d.setFlow n v).turns = d.turns := rfl
@[simp] theorem Plane.setFlow_keys (d : Plane) (n : Nat) (v : Flow) : (d.setFlow n v).keys = d.keys := rfl
@[simp] theorem Plane.setFlow_cip (d : Plane) (n : Nat) (v : Flow) : (d.setFlow n v).cip = d.cip := rfl
@[simp] theorem Plane.setFlow_obs (d : Plane) (n : Nat) (v : Flow) : (d.setFlow n v).obs = d.obs := rfl
@[simp] theorem Plane.setFlow_wire (d : Plane) (n : Nat) (v : Flow) : (d.setFlow n v).wire = d.wire := rfl
@[simp] theorem Plane.setFlow_msix (d : Plane) (n : Nat) (v : Flow) : (d.setFlow n v).msix = d.msix := rfl
@[simp] theorem Plane.setFlow_obsOut (d : Plane) (n : Nat) (v : Flow) : (d.setFlow n v).obsOut = d.obsOut := rfl
@[simp] theorem Plane.setFlow_effects (d : Plane) (n : Nat) (v : Flow) : (d.setFlow n v).effects = d.effects := rfl
@[simp] theorem Plane.setFlow_reg (d : Plane) (n : Nat) (v : Flow) (m : Nat) : (d.setFlow n v).reg m = d.reg m := rfl
@[simp] theorem Plane.setFlow_port (d : Plane) (n : Nat) (v : Flow) (m : Nat) : (d.setFlow n v).port m = d.port m := rfl
@[simp] theorem Plane.setFlow_flow (d : Plane) (n : Nat) (v : Flow) (m : Nat) : (d.setFlow n v).flow m = if m = n then v else d.flow m :=
  SMap.find_put _ _ _ _ _
@[simp] theorem Plane.setFlow_wheel (d : Plane) (n : Nat) (v : Flow) (m : Nat) : (d.setFlow n v).wheel m = d.wheel m := rfl
@[simp] theorem Plane.setFlow_part (d : Plane) (n : Nat) (v : Flow) (m : Nat) : (d.setFlow n v).part m = d.part m := rfl
@[simp] theorem Plane.setFlow_vf (d : Plane) (n : Nat) (v : Flow) (m : Nat) : (d.setFlow n v).vf m = d.vf m := rfl
@[simp] theorem Plane.setFlow_slot (d : Plane) (n : Nat) (v : Flow) (m : Nat) : (d.setFlow n v).slot m = d.slot m := rfl
@[simp] theorem Plane.setFlow_win (d : Plane) (n : Nat) (v : Flow) (m : Nat) : (d.setFlow n v).win m = d.win m := rfl
@[simp] theorem Plane.setFlow_ring (d : Plane) (n : Nat) (v : Flow) (m : Nat) : (d.setFlow n v).ring m = d.ring m := rfl
@[simp] theorem Plane.setFlow_cq (d : Plane) (n : Nat) (v : Flow) (m : Nat) : (d.setFlow n v).cq m = d.cq m := rfl
@[simp] theorem Plane.setFlow_event (d : Plane) (n : Nat) (v : Flow) (m : Nat) : (d.setFlow n v).event m = d.event m := rfl
@[simp] theorem Plane.setFlow_qp (d : Plane) (n : Nat) (v : Flow) (m : Nat) : (d.setFlow n v).qp m = d.qp m := rfl
@[simp] theorem Plane.setFlow_queue (d : Plane) (n : Nat) (v : Flow) (m : Nat) : (d.setFlow n v).queue m = d.queue m := rfl
@[simp] theorem Plane.setFlow_vein (d : Plane) (n : Nat) (v : Flow) (m : Nat) : (d.setFlow n v).vein m = d.vein m := rfl
@[simp] theorem Plane.setFlow_key (d : Plane) (n : Nat) (v : Flow) (m : Nat) : (d.setFlow n v).key m = d.key m := rfl
@[simp] theorem Plane.setWheel_seq (d : Plane) (n : Nat) (v : Wheel) : (d.setWheel n v).seq = d.seq := rfl
@[simp] theorem Plane.setWheel_regs (d : Plane) (n : Nat) (v : Wheel) : (d.setWheel n v).regs = d.regs := rfl
@[simp] theorem Plane.setWheel_bus (d : Plane) (n : Nat) (v : Wheel) : (d.setWheel n v).bus = d.bus := rfl
@[simp] theorem Plane.setWheel_ports (d : Plane) (n : Nat) (v : Wheel) : (d.setWheel n v).ports = d.ports := rfl
@[simp] theorem Plane.setWheel_flows (d : Plane) (n : Nat) (v : Wheel) : (d.setWheel n v).flows = d.flows := rfl
@[simp] theorem Plane.setWheel_parts (d : Plane) (n : Nat) (v : Wheel) : (d.setWheel n v).parts = d.parts := rfl
@[simp] theorem Plane.setWheel_vfs (d : Plane) (n : Nat) (v : Wheel) : (d.setWheel n v).vfs = d.vfs := rfl
@[simp] theorem Plane.setWheel_par (d : Plane) (n : Nat) (v : Wheel) : (d.setWheel n v).par = d.par := rfl
@[simp] theorem Plane.setWheel_mem (d : Plane) (n : Nat) (v : Wheel) : (d.setWheel n v).mem = d.mem := rfl
@[simp] theorem Plane.setWheel_host (d : Plane) (n : Nat) (v : Wheel) : (d.setWheel n v).host = d.host := rfl
@[simp] theorem Plane.setWheel_hostBad (d : Plane) (n : Nat) (v : Wheel) : (d.setWheel n v).hostBad = d.hostBad := rfl
@[simp] theorem Plane.setWheel_portPart (d : Plane) (n : Nat) (v : Wheel) : (d.setWheel n v).portPart = d.portPart := rfl
@[simp] theorem Plane.setWheel_poison (d : Plane) (n : Nat) (v : Wheel) : (d.setWheel n v).poison = d.poison := rfl
@[simp] theorem Plane.setWheel_faults (d : Plane) (n : Nat) (v : Wheel) : (d.setWheel n v).faults = d.faults := rfl
@[simp] theorem Plane.setWheel_slotless (d : Plane) (n : Nat) (v : Wheel) : (d.setWheel n v).slotless = d.slotless := rfl
@[simp] theorem Plane.setWheel_cache (d : Plane) (n : Nat) (v : Wheel) : (d.setWheel n v).cache = d.cache := rfl
@[simp] theorem Plane.setWheel_pointers (d : Plane) (n : Nat) (v : Wheel) : (d.setWheel n v).pointers = d.pointers := rfl
@[simp] theorem Plane.setWheel_wins (d : Plane) (n : Nat) (v : Wheel) : (d.setWheel n v).wins = d.wins := rfl
@[simp] theorem Plane.setWheel_rings (d : Plane) (n : Nat) (v : Wheel) : (d.setWheel n v).rings = d.rings := rfl
@[simp] theorem Plane.setWheel_cqs (d : Plane) (n : Nat) (v : Wheel) : (d.setWheel n v).cqs = d.cqs := rfl
@[simp] theorem Plane.setWheel_events (d : Plane) (n : Nat) (v : Wheel) : (d.setWheel n v).events = d.events := rfl
@[simp] theorem Plane.setWheel_qps (d : Plane) (n : Nat) (v : Wheel) : (d.setWheel n v).qps = d.qps := rfl
@[simp] theorem Plane.setWheel_xpt (d : Plane) (n : Nat) (v : Wheel) : (d.setWheel n v).xpt = d.xpt := rfl
@[simp] theorem Plane.setWheel_stg (d : Plane) (n : Nat) (v : Wheel) : (d.setWheel n v).stg = d.stg := rfl
@[simp] theorem Plane.setWheel_col (d : Plane) (n : Nat) (v : Wheel) : (d.setWheel n v).col = d.col := rfl
@[simp] theorem Plane.setWheel_veins (d : Plane) (n : Nat) (v : Wheel) : (d.setWheel n v).veins = d.veins := rfl
@[simp] theorem Plane.setWheel_turns (d : Plane) (n : Nat) (v : Wheel) : (d.setWheel n v).turns = d.turns := rfl
@[simp] theorem Plane.setWheel_keys (d : Plane) (n : Nat) (v : Wheel) : (d.setWheel n v).keys = d.keys := rfl
@[simp] theorem Plane.setWheel_cip (d : Plane) (n : Nat) (v : Wheel) : (d.setWheel n v).cip = d.cip := rfl
@[simp] theorem Plane.setWheel_obs (d : Plane) (n : Nat) (v : Wheel) : (d.setWheel n v).obs = d.obs := rfl
@[simp] theorem Plane.setWheel_wire (d : Plane) (n : Nat) (v : Wheel) : (d.setWheel n v).wire = d.wire := rfl
@[simp] theorem Plane.setWheel_msix (d : Plane) (n : Nat) (v : Wheel) : (d.setWheel n v).msix = d.msix := rfl
@[simp] theorem Plane.setWheel_obsOut (d : Plane) (n : Nat) (v : Wheel) : (d.setWheel n v).obsOut = d.obsOut := rfl
@[simp] theorem Plane.setWheel_effects (d : Plane) (n : Nat) (v : Wheel) : (d.setWheel n v).effects = d.effects := rfl
@[simp] theorem Plane.setWheel_reg (d : Plane) (n : Nat) (v : Wheel) (m : Nat) : (d.setWheel n v).reg m = d.reg m := rfl
@[simp] theorem Plane.setWheel_port (d : Plane) (n : Nat) (v : Wheel) (m : Nat) : (d.setWheel n v).port m = d.port m := rfl
@[simp] theorem Plane.setWheel_flow (d : Plane) (n : Nat) (v : Wheel) (m : Nat) : (d.setWheel n v).flow m = d.flow m := rfl
@[simp] theorem Plane.setWheel_wheel (d : Plane) (n : Nat) (v : Wheel) (m : Nat) : (d.setWheel n v).wheel m = if m = n then v else d.wheel m :=
  SMap.find_put _ _ _ _ _
@[simp] theorem Plane.setWheel_part (d : Plane) (n : Nat) (v : Wheel) (m : Nat) : (d.setWheel n v).part m = d.part m := rfl
@[simp] theorem Plane.setWheel_vf (d : Plane) (n : Nat) (v : Wheel) (m : Nat) : (d.setWheel n v).vf m = d.vf m := rfl
@[simp] theorem Plane.setWheel_slot (d : Plane) (n : Nat) (v : Wheel) (m : Nat) : (d.setWheel n v).slot m = d.slot m := rfl
@[simp] theorem Plane.setWheel_win (d : Plane) (n : Nat) (v : Wheel) (m : Nat) : (d.setWheel n v).win m = d.win m := rfl
@[simp] theorem Plane.setWheel_ring (d : Plane) (n : Nat) (v : Wheel) (m : Nat) : (d.setWheel n v).ring m = d.ring m := rfl
@[simp] theorem Plane.setWheel_cq (d : Plane) (n : Nat) (v : Wheel) (m : Nat) : (d.setWheel n v).cq m = d.cq m := rfl
@[simp] theorem Plane.setWheel_event (d : Plane) (n : Nat) (v : Wheel) (m : Nat) : (d.setWheel n v).event m = d.event m := rfl
@[simp] theorem Plane.setWheel_qp (d : Plane) (n : Nat) (v : Wheel) (m : Nat) : (d.setWheel n v).qp m = d.qp m := rfl
@[simp] theorem Plane.setWheel_queue (d : Plane) (n : Nat) (v : Wheel) (m : Nat) : (d.setWheel n v).queue m = d.queue m := rfl
@[simp] theorem Plane.setWheel_vein (d : Plane) (n : Nat) (v : Wheel) (m : Nat) : (d.setWheel n v).vein m = d.vein m := rfl
@[simp] theorem Plane.setWheel_key (d : Plane) (n : Nat) (v : Wheel) (m : Nat) : (d.setWheel n v).key m = d.key m := rfl
@[simp] theorem Plane.setPart_seq (d : Plane) (n : Nat) (v : Part) : (d.setPart n v).seq = d.seq := rfl
@[simp] theorem Plane.setPart_regs (d : Plane) (n : Nat) (v : Part) : (d.setPart n v).regs = d.regs := rfl
@[simp] theorem Plane.setPart_bus (d : Plane) (n : Nat) (v : Part) : (d.setPart n v).bus = d.bus := rfl
@[simp] theorem Plane.setPart_ports (d : Plane) (n : Nat) (v : Part) : (d.setPart n v).ports = d.ports := rfl
@[simp] theorem Plane.setPart_flows (d : Plane) (n : Nat) (v : Part) : (d.setPart n v).flows = d.flows := rfl
@[simp] theorem Plane.setPart_wheels (d : Plane) (n : Nat) (v : Part) : (d.setPart n v).wheels = d.wheels := rfl
@[simp] theorem Plane.setPart_vfs (d : Plane) (n : Nat) (v : Part) : (d.setPart n v).vfs = d.vfs := rfl
@[simp] theorem Plane.setPart_par (d : Plane) (n : Nat) (v : Part) : (d.setPart n v).par = d.par := rfl
@[simp] theorem Plane.setPart_mem (d : Plane) (n : Nat) (v : Part) : (d.setPart n v).mem = d.mem := rfl
@[simp] theorem Plane.setPart_host (d : Plane) (n : Nat) (v : Part) : (d.setPart n v).host = d.host := rfl
@[simp] theorem Plane.setPart_hostBad (d : Plane) (n : Nat) (v : Part) : (d.setPart n v).hostBad = d.hostBad := rfl
@[simp] theorem Plane.setPart_portPart (d : Plane) (n : Nat) (v : Part) : (d.setPart n v).portPart = d.portPart := rfl
@[simp] theorem Plane.setPart_poison (d : Plane) (n : Nat) (v : Part) : (d.setPart n v).poison = d.poison := rfl
@[simp] theorem Plane.setPart_faults (d : Plane) (n : Nat) (v : Part) : (d.setPart n v).faults = d.faults := rfl
@[simp] theorem Plane.setPart_slotless (d : Plane) (n : Nat) (v : Part) : (d.setPart n v).slotless = d.slotless := rfl
@[simp] theorem Plane.setPart_cache (d : Plane) (n : Nat) (v : Part) : (d.setPart n v).cache = d.cache := rfl
@[simp] theorem Plane.setPart_pointers (d : Plane) (n : Nat) (v : Part) : (d.setPart n v).pointers = d.pointers := rfl
@[simp] theorem Plane.setPart_wins (d : Plane) (n : Nat) (v : Part) : (d.setPart n v).wins = d.wins := rfl
@[simp] theorem Plane.setPart_rings (d : Plane) (n : Nat) (v : Part) : (d.setPart n v).rings = d.rings := rfl
@[simp] theorem Plane.setPart_cqs (d : Plane) (n : Nat) (v : Part) : (d.setPart n v).cqs = d.cqs := rfl
@[simp] theorem Plane.setPart_events (d : Plane) (n : Nat) (v : Part) : (d.setPart n v).events = d.events := rfl
@[simp] theorem Plane.setPart_qps (d : Plane) (n : Nat) (v : Part) : (d.setPart n v).qps = d.qps := rfl
@[simp] theorem Plane.setPart_xpt (d : Plane) (n : Nat) (v : Part) : (d.setPart n v).xpt = d.xpt := rfl
@[simp] theorem Plane.setPart_stg (d : Plane) (n : Nat) (v : Part) : (d.setPart n v).stg = d.stg := rfl
@[simp] theorem Plane.setPart_col (d : Plane) (n : Nat) (v : Part) : (d.setPart n v).col = d.col := rfl
@[simp] theorem Plane.setPart_veins (d : Plane) (n : Nat) (v : Part) : (d.setPart n v).veins = d.veins := rfl
@[simp] theorem Plane.setPart_turns (d : Plane) (n : Nat) (v : Part) : (d.setPart n v).turns = d.turns := rfl
@[simp] theorem Plane.setPart_keys (d : Plane) (n : Nat) (v : Part) : (d.setPart n v).keys = d.keys := rfl
@[simp] theorem Plane.setPart_cip (d : Plane) (n : Nat) (v : Part) : (d.setPart n v).cip = d.cip := rfl
@[simp] theorem Plane.setPart_obs (d : Plane) (n : Nat) (v : Part) : (d.setPart n v).obs = d.obs := rfl
@[simp] theorem Plane.setPart_wire (d : Plane) (n : Nat) (v : Part) : (d.setPart n v).wire = d.wire := rfl
@[simp] theorem Plane.setPart_msix (d : Plane) (n : Nat) (v : Part) : (d.setPart n v).msix = d.msix := rfl
@[simp] theorem Plane.setPart_obsOut (d : Plane) (n : Nat) (v : Part) : (d.setPart n v).obsOut = d.obsOut := rfl
@[simp] theorem Plane.setPart_effects (d : Plane) (n : Nat) (v : Part) : (d.setPart n v).effects = d.effects := rfl
@[simp] theorem Plane.setPart_reg (d : Plane) (n : Nat) (v : Part) (m : Nat) : (d.setPart n v).reg m = d.reg m := rfl
@[simp] theorem Plane.setPart_port (d : Plane) (n : Nat) (v : Part) (m : Nat) : (d.setPart n v).port m = d.port m := rfl
@[simp] theorem Plane.setPart_flow (d : Plane) (n : Nat) (v : Part) (m : Nat) : (d.setPart n v).flow m = d.flow m := rfl
@[simp] theorem Plane.setPart_wheel (d : Plane) (n : Nat) (v : Part) (m : Nat) : (d.setPart n v).wheel m = d.wheel m := rfl
@[simp] theorem Plane.setPart_part (d : Plane) (n : Nat) (v : Part) (m : Nat) : (d.setPart n v).part m = if m = n then v else d.part m :=
  SMap.find_put _ _ _ _ _
@[simp] theorem Plane.setPart_vf (d : Plane) (n : Nat) (v : Part) (m : Nat) : (d.setPart n v).vf m = d.vf m := rfl
@[simp] theorem Plane.setPart_slot (d : Plane) (n : Nat) (v : Part) (m : Nat) : (d.setPart n v).slot m = d.slot m := rfl
@[simp] theorem Plane.setPart_win (d : Plane) (n : Nat) (v : Part) (m : Nat) : (d.setPart n v).win m = d.win m := rfl
@[simp] theorem Plane.setPart_ring (d : Plane) (n : Nat) (v : Part) (m : Nat) : (d.setPart n v).ring m = d.ring m := rfl
@[simp] theorem Plane.setPart_cq (d : Plane) (n : Nat) (v : Part) (m : Nat) : (d.setPart n v).cq m = d.cq m := rfl
@[simp] theorem Plane.setPart_event (d : Plane) (n : Nat) (v : Part) (m : Nat) : (d.setPart n v).event m = d.event m := rfl
@[simp] theorem Plane.setPart_qp (d : Plane) (n : Nat) (v : Part) (m : Nat) : (d.setPart n v).qp m = d.qp m := rfl
@[simp] theorem Plane.setPart_queue (d : Plane) (n : Nat) (v : Part) (m : Nat) : (d.setPart n v).queue m = d.queue m := rfl
@[simp] theorem Plane.setPart_vein (d : Plane) (n : Nat) (v : Part) (m : Nat) : (d.setPart n v).vein m = d.vein m := rfl
@[simp] theorem Plane.setPart_key (d : Plane) (n : Nat) (v : Part) (m : Nat) : (d.setPart n v).key m = d.key m := rfl
@[simp] theorem Plane.setVf_seq (d : Plane) (n : Nat) (v : Vf) : (d.setVf n v).seq = d.seq := rfl
@[simp] theorem Plane.setVf_regs (d : Plane) (n : Nat) (v : Vf) : (d.setVf n v).regs = d.regs := rfl
@[simp] theorem Plane.setVf_bus (d : Plane) (n : Nat) (v : Vf) : (d.setVf n v).bus = d.bus := rfl
@[simp] theorem Plane.setVf_ports (d : Plane) (n : Nat) (v : Vf) : (d.setVf n v).ports = d.ports := rfl
@[simp] theorem Plane.setVf_flows (d : Plane) (n : Nat) (v : Vf) : (d.setVf n v).flows = d.flows := rfl
@[simp] theorem Plane.setVf_wheels (d : Plane) (n : Nat) (v : Vf) : (d.setVf n v).wheels = d.wheels := rfl
@[simp] theorem Plane.setVf_parts (d : Plane) (n : Nat) (v : Vf) : (d.setVf n v).parts = d.parts := rfl
@[simp] theorem Plane.setVf_par (d : Plane) (n : Nat) (v : Vf) : (d.setVf n v).par = d.par := rfl
@[simp] theorem Plane.setVf_mem (d : Plane) (n : Nat) (v : Vf) : (d.setVf n v).mem = d.mem := rfl
@[simp] theorem Plane.setVf_host (d : Plane) (n : Nat) (v : Vf) : (d.setVf n v).host = d.host := rfl
@[simp] theorem Plane.setVf_hostBad (d : Plane) (n : Nat) (v : Vf) : (d.setVf n v).hostBad = d.hostBad := rfl
@[simp] theorem Plane.setVf_portPart (d : Plane) (n : Nat) (v : Vf) : (d.setVf n v).portPart = d.portPart := rfl
@[simp] theorem Plane.setVf_poison (d : Plane) (n : Nat) (v : Vf) : (d.setVf n v).poison = d.poison := rfl
@[simp] theorem Plane.setVf_faults (d : Plane) (n : Nat) (v : Vf) : (d.setVf n v).faults = d.faults := rfl
@[simp] theorem Plane.setVf_slotless (d : Plane) (n : Nat) (v : Vf) : (d.setVf n v).slotless = d.slotless := rfl
@[simp] theorem Plane.setVf_cache (d : Plane) (n : Nat) (v : Vf) : (d.setVf n v).cache = d.cache := rfl
@[simp] theorem Plane.setVf_pointers (d : Plane) (n : Nat) (v : Vf) : (d.setVf n v).pointers = d.pointers := rfl
@[simp] theorem Plane.setVf_wins (d : Plane) (n : Nat) (v : Vf) : (d.setVf n v).wins = d.wins := rfl
@[simp] theorem Plane.setVf_rings (d : Plane) (n : Nat) (v : Vf) : (d.setVf n v).rings = d.rings := rfl
@[simp] theorem Plane.setVf_cqs (d : Plane) (n : Nat) (v : Vf) : (d.setVf n v).cqs = d.cqs := rfl
@[simp] theorem Plane.setVf_events (d : Plane) (n : Nat) (v : Vf) : (d.setVf n v).events = d.events := rfl
@[simp] theorem Plane.setVf_qps (d : Plane) (n : Nat) (v : Vf) : (d.setVf n v).qps = d.qps := rfl
@[simp] theorem Plane.setVf_xpt (d : Plane) (n : Nat) (v : Vf) : (d.setVf n v).xpt = d.xpt := rfl
@[simp] theorem Plane.setVf_stg (d : Plane) (n : Nat) (v : Vf) : (d.setVf n v).stg = d.stg := rfl
@[simp] theorem Plane.setVf_col (d : Plane) (n : Nat) (v : Vf) : (d.setVf n v).col = d.col := rfl
@[simp] theorem Plane.setVf_veins (d : Plane) (n : Nat) (v : Vf) : (d.setVf n v).veins = d.veins := rfl
@[simp] theorem Plane.setVf_turns (d : Plane) (n : Nat) (v : Vf) : (d.setVf n v).turns = d.turns := rfl
@[simp] theorem Plane.setVf_keys (d : Plane) (n : Nat) (v : Vf) : (d.setVf n v).keys = d.keys := rfl
@[simp] theorem Plane.setVf_cip (d : Plane) (n : Nat) (v : Vf) : (d.setVf n v).cip = d.cip := rfl
@[simp] theorem Plane.setVf_obs (d : Plane) (n : Nat) (v : Vf) : (d.setVf n v).obs = d.obs := rfl
@[simp] theorem Plane.setVf_wire (d : Plane) (n : Nat) (v : Vf) : (d.setVf n v).wire = d.wire := rfl
@[simp] theorem Plane.setVf_msix (d : Plane) (n : Nat) (v : Vf) : (d.setVf n v).msix = d.msix := rfl
@[simp] theorem Plane.setVf_obsOut (d : Plane) (n : Nat) (v : Vf) : (d.setVf n v).obsOut = d.obsOut := rfl
@[simp] theorem Plane.setVf_effects (d : Plane) (n : Nat) (v : Vf) : (d.setVf n v).effects = d.effects := rfl
@[simp] theorem Plane.setVf_reg (d : Plane) (n : Nat) (v : Vf) (m : Nat) : (d.setVf n v).reg m = d.reg m := rfl
@[simp] theorem Plane.setVf_port (d : Plane) (n : Nat) (v : Vf) (m : Nat) : (d.setVf n v).port m = d.port m := rfl
@[simp] theorem Plane.setVf_flow (d : Plane) (n : Nat) (v : Vf) (m : Nat) : (d.setVf n v).flow m = d.flow m := rfl
@[simp] theorem Plane.setVf_wheel (d : Plane) (n : Nat) (v : Vf) (m : Nat) : (d.setVf n v).wheel m = d.wheel m := rfl
@[simp] theorem Plane.setVf_part (d : Plane) (n : Nat) (v : Vf) (m : Nat) : (d.setVf n v).part m = d.part m := rfl
@[simp] theorem Plane.setVf_vf (d : Plane) (n : Nat) (v : Vf) (m : Nat) : (d.setVf n v).vf m = if m = n then v else d.vf m :=
  SMap.find_put _ _ _ _ _
@[simp] theorem Plane.setVf_slot (d : Plane) (n : Nat) (v : Vf) (m : Nat) : (d.setVf n v).slot m = d.slot m := rfl
@[simp] theorem Plane.setVf_win (d : Plane) (n : Nat) (v : Vf) (m : Nat) : (d.setVf n v).win m = d.win m := rfl
@[simp] theorem Plane.setVf_ring (d : Plane) (n : Nat) (v : Vf) (m : Nat) : (d.setVf n v).ring m = d.ring m := rfl
@[simp] theorem Plane.setVf_cq (d : Plane) (n : Nat) (v : Vf) (m : Nat) : (d.setVf n v).cq m = d.cq m := rfl
@[simp] theorem Plane.setVf_event (d : Plane) (n : Nat) (v : Vf) (m : Nat) : (d.setVf n v).event m = d.event m := rfl
@[simp] theorem Plane.setVf_qp (d : Plane) (n : Nat) (v : Vf) (m : Nat) : (d.setVf n v).qp m = d.qp m := rfl
@[simp] theorem Plane.setVf_queue (d : Plane) (n : Nat) (v : Vf) (m : Nat) : (d.setVf n v).queue m = d.queue m := rfl
@[simp] theorem Plane.setVf_vein (d : Plane) (n : Nat) (v : Vf) (m : Nat) : (d.setVf n v).vein m = d.vein m := rfl
@[simp] theorem Plane.setVf_key (d : Plane) (n : Nat) (v : Vf) (m : Nat) : (d.setVf n v).key m = d.key m := rfl
@[simp] theorem Plane.setSlot_seq (d : Plane) (n : Nat) (v : FaultSlot) : (d.setSlot n v).seq = d.seq := rfl
@[simp] theorem Plane.setSlot_regs (d : Plane) (n : Nat) (v : FaultSlot) : (d.setSlot n v).regs = d.regs := rfl
@[simp] theorem Plane.setSlot_bus (d : Plane) (n : Nat) (v : FaultSlot) : (d.setSlot n v).bus = d.bus := rfl
@[simp] theorem Plane.setSlot_ports (d : Plane) (n : Nat) (v : FaultSlot) : (d.setSlot n v).ports = d.ports := rfl
@[simp] theorem Plane.setSlot_flows (d : Plane) (n : Nat) (v : FaultSlot) : (d.setSlot n v).flows = d.flows := rfl
@[simp] theorem Plane.setSlot_wheels (d : Plane) (n : Nat) (v : FaultSlot) : (d.setSlot n v).wheels = d.wheels := rfl
@[simp] theorem Plane.setSlot_parts (d : Plane) (n : Nat) (v : FaultSlot) : (d.setSlot n v).parts = d.parts := rfl
@[simp] theorem Plane.setSlot_vfs (d : Plane) (n : Nat) (v : FaultSlot) : (d.setSlot n v).vfs = d.vfs := rfl
@[simp] theorem Plane.setSlot_par (d : Plane) (n : Nat) (v : FaultSlot) : (d.setSlot n v).par = d.par := rfl
@[simp] theorem Plane.setSlot_mem (d : Plane) (n : Nat) (v : FaultSlot) : (d.setSlot n v).mem = d.mem := rfl
@[simp] theorem Plane.setSlot_host (d : Plane) (n : Nat) (v : FaultSlot) : (d.setSlot n v).host = d.host := rfl
@[simp] theorem Plane.setSlot_hostBad (d : Plane) (n : Nat) (v : FaultSlot) : (d.setSlot n v).hostBad = d.hostBad := rfl
@[simp] theorem Plane.setSlot_portPart (d : Plane) (n : Nat) (v : FaultSlot) : (d.setSlot n v).portPart = d.portPart := rfl
@[simp] theorem Plane.setSlot_poison (d : Plane) (n : Nat) (v : FaultSlot) : (d.setSlot n v).poison = d.poison := rfl
@[simp] theorem Plane.setSlot_slotless (d : Plane) (n : Nat) (v : FaultSlot) : (d.setSlot n v).slotless = d.slotless := rfl
@[simp] theorem Plane.setSlot_cache (d : Plane) (n : Nat) (v : FaultSlot) : (d.setSlot n v).cache = d.cache := rfl
@[simp] theorem Plane.setSlot_pointers (d : Plane) (n : Nat) (v : FaultSlot) : (d.setSlot n v).pointers = d.pointers := rfl
@[simp] theorem Plane.setSlot_wins (d : Plane) (n : Nat) (v : FaultSlot) : (d.setSlot n v).wins = d.wins := rfl
@[simp] theorem Plane.setSlot_rings (d : Plane) (n : Nat) (v : FaultSlot) : (d.setSlot n v).rings = d.rings := rfl
@[simp] theorem Plane.setSlot_cqs (d : Plane) (n : Nat) (v : FaultSlot) : (d.setSlot n v).cqs = d.cqs := rfl
@[simp] theorem Plane.setSlot_events (d : Plane) (n : Nat) (v : FaultSlot) : (d.setSlot n v).events = d.events := rfl
@[simp] theorem Plane.setSlot_qps (d : Plane) (n : Nat) (v : FaultSlot) : (d.setSlot n v).qps = d.qps := rfl
@[simp] theorem Plane.setSlot_xpt (d : Plane) (n : Nat) (v : FaultSlot) : (d.setSlot n v).xpt = d.xpt := rfl
@[simp] theorem Plane.setSlot_stg (d : Plane) (n : Nat) (v : FaultSlot) : (d.setSlot n v).stg = d.stg := rfl
@[simp] theorem Plane.setSlot_col (d : Plane) (n : Nat) (v : FaultSlot) : (d.setSlot n v).col = d.col := rfl
@[simp] theorem Plane.setSlot_veins (d : Plane) (n : Nat) (v : FaultSlot) : (d.setSlot n v).veins = d.veins := rfl
@[simp] theorem Plane.setSlot_turns (d : Plane) (n : Nat) (v : FaultSlot) : (d.setSlot n v).turns = d.turns := rfl
@[simp] theorem Plane.setSlot_keys (d : Plane) (n : Nat) (v : FaultSlot) : (d.setSlot n v).keys = d.keys := rfl
@[simp] theorem Plane.setSlot_cip (d : Plane) (n : Nat) (v : FaultSlot) : (d.setSlot n v).cip = d.cip := rfl
@[simp] theorem Plane.setSlot_obs (d : Plane) (n : Nat) (v : FaultSlot) : (d.setSlot n v).obs = d.obs := rfl
@[simp] theorem Plane.setSlot_wire (d : Plane) (n : Nat) (v : FaultSlot) : (d.setSlot n v).wire = d.wire := rfl
@[simp] theorem Plane.setSlot_msix (d : Plane) (n : Nat) (v : FaultSlot) : (d.setSlot n v).msix = d.msix := rfl
@[simp] theorem Plane.setSlot_obsOut (d : Plane) (n : Nat) (v : FaultSlot) : (d.setSlot n v).obsOut = d.obsOut := rfl
@[simp] theorem Plane.setSlot_effects (d : Plane) (n : Nat) (v : FaultSlot) : (d.setSlot n v).effects = d.effects := rfl
@[simp] theorem Plane.setSlot_reg (d : Plane) (n : Nat) (v : FaultSlot) (m : Nat) : (d.setSlot n v).reg m = d.reg m := rfl
@[simp] theorem Plane.setSlot_port (d : Plane) (n : Nat) (v : FaultSlot) (m : Nat) : (d.setSlot n v).port m = d.port m := rfl
@[simp] theorem Plane.setSlot_flow (d : Plane) (n : Nat) (v : FaultSlot) (m : Nat) : (d.setSlot n v).flow m = d.flow m := rfl
@[simp] theorem Plane.setSlot_wheel (d : Plane) (n : Nat) (v : FaultSlot) (m : Nat) : (d.setSlot n v).wheel m = d.wheel m := rfl
@[simp] theorem Plane.setSlot_part (d : Plane) (n : Nat) (v : FaultSlot) (m : Nat) : (d.setSlot n v).part m = d.part m := rfl
@[simp] theorem Plane.setSlot_vf (d : Plane) (n : Nat) (v : FaultSlot) (m : Nat) : (d.setSlot n v).vf m = d.vf m := rfl
@[simp] theorem Plane.setSlot_slot (d : Plane) (n : Nat) (v : FaultSlot) (m : Nat) : (d.setSlot n v).slot m = if m = n then v else d.slot m :=
  SMap.find_put _ _ _ _ _
@[simp] theorem Plane.setSlot_win (d : Plane) (n : Nat) (v : FaultSlot) (m : Nat) : (d.setSlot n v).win m = d.win m := rfl
@[simp] theorem Plane.setSlot_ring (d : Plane) (n : Nat) (v : FaultSlot) (m : Nat) : (d.setSlot n v).ring m = d.ring m := rfl
@[simp] theorem Plane.setSlot_cq (d : Plane) (n : Nat) (v : FaultSlot) (m : Nat) : (d.setSlot n v).cq m = d.cq m := rfl
@[simp] theorem Plane.setSlot_event (d : Plane) (n : Nat) (v : FaultSlot) (m : Nat) : (d.setSlot n v).event m = d.event m := rfl
@[simp] theorem Plane.setSlot_qp (d : Plane) (n : Nat) (v : FaultSlot) (m : Nat) : (d.setSlot n v).qp m = d.qp m := rfl
@[simp] theorem Plane.setSlot_queue (d : Plane) (n : Nat) (v : FaultSlot) (m : Nat) : (d.setSlot n v).queue m = d.queue m := rfl
@[simp] theorem Plane.setSlot_vein (d : Plane) (n : Nat) (v : FaultSlot) (m : Nat) : (d.setSlot n v).vein m = d.vein m := rfl
@[simp] theorem Plane.setSlot_key (d : Plane) (n : Nat) (v : FaultSlot) (m : Nat) : (d.setSlot n v).key m = d.key m := rfl
@[simp] theorem Plane.setWin_seq (d : Plane) (n : Nat) (v : Window) : (d.setWin n v).seq = d.seq := rfl
@[simp] theorem Plane.setWin_regs (d : Plane) (n : Nat) (v : Window) : (d.setWin n v).regs = d.regs := rfl
@[simp] theorem Plane.setWin_bus (d : Plane) (n : Nat) (v : Window) : (d.setWin n v).bus = d.bus := rfl
@[simp] theorem Plane.setWin_ports (d : Plane) (n : Nat) (v : Window) : (d.setWin n v).ports = d.ports := rfl
@[simp] theorem Plane.setWin_flows (d : Plane) (n : Nat) (v : Window) : (d.setWin n v).flows = d.flows := rfl
@[simp] theorem Plane.setWin_wheels (d : Plane) (n : Nat) (v : Window) : (d.setWin n v).wheels = d.wheels := rfl
@[simp] theorem Plane.setWin_parts (d : Plane) (n : Nat) (v : Window) : (d.setWin n v).parts = d.parts := rfl
@[simp] theorem Plane.setWin_vfs (d : Plane) (n : Nat) (v : Window) : (d.setWin n v).vfs = d.vfs := rfl
@[simp] theorem Plane.setWin_par (d : Plane) (n : Nat) (v : Window) : (d.setWin n v).par = d.par := rfl
@[simp] theorem Plane.setWin_mem (d : Plane) (n : Nat) (v : Window) : (d.setWin n v).mem = d.mem := rfl
@[simp] theorem Plane.setWin_host (d : Plane) (n : Nat) (v : Window) : (d.setWin n v).host = d.host := rfl
@[simp] theorem Plane.setWin_hostBad (d : Plane) (n : Nat) (v : Window) : (d.setWin n v).hostBad = d.hostBad := rfl
@[simp] theorem Plane.setWin_portPart (d : Plane) (n : Nat) (v : Window) : (d.setWin n v).portPart = d.portPart := rfl
@[simp] theorem Plane.setWin_poison (d : Plane) (n : Nat) (v : Window) : (d.setWin n v).poison = d.poison := rfl
@[simp] theorem Plane.setWin_faults (d : Plane) (n : Nat) (v : Window) : (d.setWin n v).faults = d.faults := rfl
@[simp] theorem Plane.setWin_slotless (d : Plane) (n : Nat) (v : Window) : (d.setWin n v).slotless = d.slotless := rfl
@[simp] theorem Plane.setWin_cache (d : Plane) (n : Nat) (v : Window) : (d.setWin n v).cache = d.cache := rfl
@[simp] theorem Plane.setWin_pointers (d : Plane) (n : Nat) (v : Window) : (d.setWin n v).pointers = d.pointers := rfl
@[simp] theorem Plane.setWin_rings (d : Plane) (n : Nat) (v : Window) : (d.setWin n v).rings = d.rings := rfl
@[simp] theorem Plane.setWin_cqs (d : Plane) (n : Nat) (v : Window) : (d.setWin n v).cqs = d.cqs := rfl
@[simp] theorem Plane.setWin_events (d : Plane) (n : Nat) (v : Window) : (d.setWin n v).events = d.events := rfl
@[simp] theorem Plane.setWin_qps (d : Plane) (n : Nat) (v : Window) : (d.setWin n v).qps = d.qps := rfl
@[simp] theorem Plane.setWin_xpt (d : Plane) (n : Nat) (v : Window) : (d.setWin n v).xpt = d.xpt := rfl
@[simp] theorem Plane.setWin_stg (d : Plane) (n : Nat) (v : Window) : (d.setWin n v).stg = d.stg := rfl
@[simp] theorem Plane.setWin_col (d : Plane) (n : Nat) (v : Window) : (d.setWin n v).col = d.col := rfl
@[simp] theorem Plane.setWin_veins (d : Plane) (n : Nat) (v : Window) : (d.setWin n v).veins = d.veins := rfl
@[simp] theorem Plane.setWin_turns (d : Plane) (n : Nat) (v : Window) : (d.setWin n v).turns = d.turns := rfl
@[simp] theorem Plane.setWin_keys (d : Plane) (n : Nat) (v : Window) : (d.setWin n v).keys = d.keys := rfl
@[simp] theorem Plane.setWin_cip (d : Plane) (n : Nat) (v : Window) : (d.setWin n v).cip = d.cip := rfl
@[simp] theorem Plane.setWin_obs (d : Plane) (n : Nat) (v : Window) : (d.setWin n v).obs = d.obs := rfl
@[simp] theorem Plane.setWin_wire (d : Plane) (n : Nat) (v : Window) : (d.setWin n v).wire = d.wire := rfl
@[simp] theorem Plane.setWin_msix (d : Plane) (n : Nat) (v : Window) : (d.setWin n v).msix = d.msix := rfl
@[simp] theorem Plane.setWin_obsOut (d : Plane) (n : Nat) (v : Window) : (d.setWin n v).obsOut = d.obsOut := rfl
@[simp] theorem Plane.setWin_effects (d : Plane) (n : Nat) (v : Window) : (d.setWin n v).effects = d.effects := rfl
@[simp] theorem Plane.setWin_reg (d : Plane) (n : Nat) (v : Window) (m : Nat) : (d.setWin n v).reg m = d.reg m := rfl
@[simp] theorem Plane.setWin_port (d : Plane) (n : Nat) (v : Window) (m : Nat) : (d.setWin n v).port m = d.port m := rfl
@[simp] theorem Plane.setWin_flow (d : Plane) (n : Nat) (v : Window) (m : Nat) : (d.setWin n v).flow m = d.flow m := rfl
@[simp] theorem Plane.setWin_wheel (d : Plane) (n : Nat) (v : Window) (m : Nat) : (d.setWin n v).wheel m = d.wheel m := rfl
@[simp] theorem Plane.setWin_part (d : Plane) (n : Nat) (v : Window) (m : Nat) : (d.setWin n v).part m = d.part m := rfl
@[simp] theorem Plane.setWin_vf (d : Plane) (n : Nat) (v : Window) (m : Nat) : (d.setWin n v).vf m = d.vf m := rfl
@[simp] theorem Plane.setWin_slot (d : Plane) (n : Nat) (v : Window) (m : Nat) : (d.setWin n v).slot m = d.slot m := rfl
@[simp] theorem Plane.setWin_win (d : Plane) (n : Nat) (v : Window) (m : Nat) : (d.setWin n v).win m = if m = n then v else d.win m :=
  SMap.find_put _ _ _ _ _
@[simp] theorem Plane.setWin_ring (d : Plane) (n : Nat) (v : Window) (m : Nat) : (d.setWin n v).ring m = d.ring m := rfl
@[simp] theorem Plane.setWin_cq (d : Plane) (n : Nat) (v : Window) (m : Nat) : (d.setWin n v).cq m = d.cq m := rfl
@[simp] theorem Plane.setWin_event (d : Plane) (n : Nat) (v : Window) (m : Nat) : (d.setWin n v).event m = d.event m := rfl
@[simp] theorem Plane.setWin_qp (d : Plane) (n : Nat) (v : Window) (m : Nat) : (d.setWin n v).qp m = d.qp m := rfl
@[simp] theorem Plane.setWin_queue (d : Plane) (n : Nat) (v : Window) (m : Nat) : (d.setWin n v).queue m = d.queue m := rfl
@[simp] theorem Plane.setWin_vein (d : Plane) (n : Nat) (v : Window) (m : Nat) : (d.setWin n v).vein m = d.vein m := rfl
@[simp] theorem Plane.setWin_key (d : Plane) (n : Nat) (v : Window) (m : Nat) : (d.setWin n v).key m = d.key m := rfl
@[simp] theorem Plane.setRing_seq (d : Plane) (n : Nat) (v : Ring) : (d.setRing n v).seq = d.seq := rfl
@[simp] theorem Plane.setRing_regs (d : Plane) (n : Nat) (v : Ring) : (d.setRing n v).regs = d.regs := rfl
@[simp] theorem Plane.setRing_bus (d : Plane) (n : Nat) (v : Ring) : (d.setRing n v).bus = d.bus := rfl
@[simp] theorem Plane.setRing_ports (d : Plane) (n : Nat) (v : Ring) : (d.setRing n v).ports = d.ports := rfl
@[simp] theorem Plane.setRing_flows (d : Plane) (n : Nat) (v : Ring) : (d.setRing n v).flows = d.flows := rfl
@[simp] theorem Plane.setRing_wheels (d : Plane) (n : Nat) (v : Ring) : (d.setRing n v).wheels = d.wheels := rfl
@[simp] theorem Plane.setRing_parts (d : Plane) (n : Nat) (v : Ring) : (d.setRing n v).parts = d.parts := rfl
@[simp] theorem Plane.setRing_vfs (d : Plane) (n : Nat) (v : Ring) : (d.setRing n v).vfs = d.vfs := rfl
@[simp] theorem Plane.setRing_par (d : Plane) (n : Nat) (v : Ring) : (d.setRing n v).par = d.par := rfl
@[simp] theorem Plane.setRing_mem (d : Plane) (n : Nat) (v : Ring) : (d.setRing n v).mem = d.mem := rfl
@[simp] theorem Plane.setRing_host (d : Plane) (n : Nat) (v : Ring) : (d.setRing n v).host = d.host := rfl
@[simp] theorem Plane.setRing_hostBad (d : Plane) (n : Nat) (v : Ring) : (d.setRing n v).hostBad = d.hostBad := rfl
@[simp] theorem Plane.setRing_portPart (d : Plane) (n : Nat) (v : Ring) : (d.setRing n v).portPart = d.portPart := rfl
@[simp] theorem Plane.setRing_poison (d : Plane) (n : Nat) (v : Ring) : (d.setRing n v).poison = d.poison := rfl
@[simp] theorem Plane.setRing_faults (d : Plane) (n : Nat) (v : Ring) : (d.setRing n v).faults = d.faults := rfl
@[simp] theorem Plane.setRing_slotless (d : Plane) (n : Nat) (v : Ring) : (d.setRing n v).slotless = d.slotless := rfl
@[simp] theorem Plane.setRing_cache (d : Plane) (n : Nat) (v : Ring) : (d.setRing n v).cache = d.cache := rfl
@[simp] theorem Plane.setRing_pointers (d : Plane) (n : Nat) (v : Ring) : (d.setRing n v).pointers = d.pointers := rfl
@[simp] theorem Plane.setRing_wins (d : Plane) (n : Nat) (v : Ring) : (d.setRing n v).wins = d.wins := rfl
@[simp] theorem Plane.setRing_cqs (d : Plane) (n : Nat) (v : Ring) : (d.setRing n v).cqs = d.cqs := rfl
@[simp] theorem Plane.setRing_events (d : Plane) (n : Nat) (v : Ring) : (d.setRing n v).events = d.events := rfl
@[simp] theorem Plane.setRing_qps (d : Plane) (n : Nat) (v : Ring) : (d.setRing n v).qps = d.qps := rfl
@[simp] theorem Plane.setRing_xpt (d : Plane) (n : Nat) (v : Ring) : (d.setRing n v).xpt = d.xpt := rfl
@[simp] theorem Plane.setRing_stg (d : Plane) (n : Nat) (v : Ring) : (d.setRing n v).stg = d.stg := rfl
@[simp] theorem Plane.setRing_col (d : Plane) (n : Nat) (v : Ring) : (d.setRing n v).col = d.col := rfl
@[simp] theorem Plane.setRing_veins (d : Plane) (n : Nat) (v : Ring) : (d.setRing n v).veins = d.veins := rfl
@[simp] theorem Plane.setRing_turns (d : Plane) (n : Nat) (v : Ring) : (d.setRing n v).turns = d.turns := rfl
@[simp] theorem Plane.setRing_keys (d : Plane) (n : Nat) (v : Ring) : (d.setRing n v).keys = d.keys := rfl
@[simp] theorem Plane.setRing_cip (d : Plane) (n : Nat) (v : Ring) : (d.setRing n v).cip = d.cip := rfl
@[simp] theorem Plane.setRing_obs (d : Plane) (n : Nat) (v : Ring) : (d.setRing n v).obs = d.obs := rfl
@[simp] theorem Plane.setRing_wire (d : Plane) (n : Nat) (v : Ring) : (d.setRing n v).wire = d.wire := rfl
@[simp] theorem Plane.setRing_msix (d : Plane) (n : Nat) (v : Ring) : (d.setRing n v).msix = d.msix := rfl
@[simp] theorem Plane.setRing_obsOut (d : Plane) (n : Nat) (v : Ring) : (d.setRing n v).obsOut = d.obsOut := rfl
@[simp] theorem Plane.setRing_effects (d : Plane) (n : Nat) (v : Ring) : (d.setRing n v).effects = d.effects := rfl
@[simp] theorem Plane.setRing_reg (d : Plane) (n : Nat) (v : Ring) (m : Nat) : (d.setRing n v).reg m = d.reg m := rfl
@[simp] theorem Plane.setRing_port (d : Plane) (n : Nat) (v : Ring) (m : Nat) : (d.setRing n v).port m = d.port m := rfl
@[simp] theorem Plane.setRing_flow (d : Plane) (n : Nat) (v : Ring) (m : Nat) : (d.setRing n v).flow m = d.flow m := rfl
@[simp] theorem Plane.setRing_wheel (d : Plane) (n : Nat) (v : Ring) (m : Nat) : (d.setRing n v).wheel m = d.wheel m := rfl
@[simp] theorem Plane.setRing_part (d : Plane) (n : Nat) (v : Ring) (m : Nat) : (d.setRing n v).part m = d.part m := rfl
@[simp] theorem Plane.setRing_vf (d : Plane) (n : Nat) (v : Ring) (m : Nat) : (d.setRing n v).vf m = d.vf m := rfl
@[simp] theorem Plane.setRing_slot (d : Plane) (n : Nat) (v : Ring) (m : Nat) : (d.setRing n v).slot m = d.slot m := rfl
@[simp] theorem Plane.setRing_win (d : Plane) (n : Nat) (v : Ring) (m : Nat) : (d.setRing n v).win m = d.win m := rfl
@[simp] theorem Plane.setRing_ring (d : Plane) (n : Nat) (v : Ring) (m : Nat) : (d.setRing n v).ring m = if m = n then v else d.ring m :=
  SMap.find_put _ _ _ _ _
@[simp] theorem Plane.setRing_cq (d : Plane) (n : Nat) (v : Ring) (m : Nat) : (d.setRing n v).cq m = d.cq m := rfl
@[simp] theorem Plane.setRing_event (d : Plane) (n : Nat) (v : Ring) (m : Nat) : (d.setRing n v).event m = d.event m := rfl
@[simp] theorem Plane.setRing_qp (d : Plane) (n : Nat) (v : Ring) (m : Nat) : (d.setRing n v).qp m = d.qp m := rfl
@[simp] theorem Plane.setRing_queue (d : Plane) (n : Nat) (v : Ring) (m : Nat) : (d.setRing n v).queue m = d.queue m := rfl
@[simp] theorem Plane.setRing_vein (d : Plane) (n : Nat) (v : Ring) (m : Nat) : (d.setRing n v).vein m = d.vein m := rfl
@[simp] theorem Plane.setRing_key (d : Plane) (n : Nat) (v : Ring) (m : Nat) : (d.setRing n v).key m = d.key m := rfl
@[simp] theorem Plane.setCq_seq (d : Plane) (n : Nat) (v : Cq) : (d.setCq n v).seq = d.seq := rfl
@[simp] theorem Plane.setCq_regs (d : Plane) (n : Nat) (v : Cq) : (d.setCq n v).regs = d.regs := rfl
@[simp] theorem Plane.setCq_bus (d : Plane) (n : Nat) (v : Cq) : (d.setCq n v).bus = d.bus := rfl
@[simp] theorem Plane.setCq_ports (d : Plane) (n : Nat) (v : Cq) : (d.setCq n v).ports = d.ports := rfl
@[simp] theorem Plane.setCq_flows (d : Plane) (n : Nat) (v : Cq) : (d.setCq n v).flows = d.flows := rfl
@[simp] theorem Plane.setCq_wheels (d : Plane) (n : Nat) (v : Cq) : (d.setCq n v).wheels = d.wheels := rfl
@[simp] theorem Plane.setCq_parts (d : Plane) (n : Nat) (v : Cq) : (d.setCq n v).parts = d.parts := rfl
@[simp] theorem Plane.setCq_vfs (d : Plane) (n : Nat) (v : Cq) : (d.setCq n v).vfs = d.vfs := rfl
@[simp] theorem Plane.setCq_par (d : Plane) (n : Nat) (v : Cq) : (d.setCq n v).par = d.par := rfl
@[simp] theorem Plane.setCq_mem (d : Plane) (n : Nat) (v : Cq) : (d.setCq n v).mem = d.mem := rfl
@[simp] theorem Plane.setCq_host (d : Plane) (n : Nat) (v : Cq) : (d.setCq n v).host = d.host := rfl
@[simp] theorem Plane.setCq_hostBad (d : Plane) (n : Nat) (v : Cq) : (d.setCq n v).hostBad = d.hostBad := rfl
@[simp] theorem Plane.setCq_portPart (d : Plane) (n : Nat) (v : Cq) : (d.setCq n v).portPart = d.portPart := rfl
@[simp] theorem Plane.setCq_poison (d : Plane) (n : Nat) (v : Cq) : (d.setCq n v).poison = d.poison := rfl
@[simp] theorem Plane.setCq_faults (d : Plane) (n : Nat) (v : Cq) : (d.setCq n v).faults = d.faults := rfl
@[simp] theorem Plane.setCq_slotless (d : Plane) (n : Nat) (v : Cq) : (d.setCq n v).slotless = d.slotless := rfl
@[simp] theorem Plane.setCq_cache (d : Plane) (n : Nat) (v : Cq) : (d.setCq n v).cache = d.cache := rfl
@[simp] theorem Plane.setCq_pointers (d : Plane) (n : Nat) (v : Cq) : (d.setCq n v).pointers = d.pointers := rfl
@[simp] theorem Plane.setCq_wins (d : Plane) (n : Nat) (v : Cq) : (d.setCq n v).wins = d.wins := rfl
@[simp] theorem Plane.setCq_rings (d : Plane) (n : Nat) (v : Cq) : (d.setCq n v).rings = d.rings := rfl
@[simp] theorem Plane.setCq_events (d : Plane) (n : Nat) (v : Cq) : (d.setCq n v).events = d.events := rfl
@[simp] theorem Plane.setCq_qps (d : Plane) (n : Nat) (v : Cq) : (d.setCq n v).qps = d.qps := rfl
@[simp] theorem Plane.setCq_xpt (d : Plane) (n : Nat) (v : Cq) : (d.setCq n v).xpt = d.xpt := rfl
@[simp] theorem Plane.setCq_stg (d : Plane) (n : Nat) (v : Cq) : (d.setCq n v).stg = d.stg := rfl
@[simp] theorem Plane.setCq_col (d : Plane) (n : Nat) (v : Cq) : (d.setCq n v).col = d.col := rfl
@[simp] theorem Plane.setCq_veins (d : Plane) (n : Nat) (v : Cq) : (d.setCq n v).veins = d.veins := rfl
@[simp] theorem Plane.setCq_turns (d : Plane) (n : Nat) (v : Cq) : (d.setCq n v).turns = d.turns := rfl
@[simp] theorem Plane.setCq_keys (d : Plane) (n : Nat) (v : Cq) : (d.setCq n v).keys = d.keys := rfl
@[simp] theorem Plane.setCq_cip (d : Plane) (n : Nat) (v : Cq) : (d.setCq n v).cip = d.cip := rfl
@[simp] theorem Plane.setCq_obs (d : Plane) (n : Nat) (v : Cq) : (d.setCq n v).obs = d.obs := rfl
@[simp] theorem Plane.setCq_wire (d : Plane) (n : Nat) (v : Cq) : (d.setCq n v).wire = d.wire := rfl
@[simp] theorem Plane.setCq_msix (d : Plane) (n : Nat) (v : Cq) : (d.setCq n v).msix = d.msix := rfl
@[simp] theorem Plane.setCq_obsOut (d : Plane) (n : Nat) (v : Cq) : (d.setCq n v).obsOut = d.obsOut := rfl
@[simp] theorem Plane.setCq_effects (d : Plane) (n : Nat) (v : Cq) : (d.setCq n v).effects = d.effects := rfl
@[simp] theorem Plane.setCq_reg (d : Plane) (n : Nat) (v : Cq) (m : Nat) : (d.setCq n v).reg m = d.reg m := rfl
@[simp] theorem Plane.setCq_port (d : Plane) (n : Nat) (v : Cq) (m : Nat) : (d.setCq n v).port m = d.port m := rfl
@[simp] theorem Plane.setCq_flow (d : Plane) (n : Nat) (v : Cq) (m : Nat) : (d.setCq n v).flow m = d.flow m := rfl
@[simp] theorem Plane.setCq_wheel (d : Plane) (n : Nat) (v : Cq) (m : Nat) : (d.setCq n v).wheel m = d.wheel m := rfl
@[simp] theorem Plane.setCq_part (d : Plane) (n : Nat) (v : Cq) (m : Nat) : (d.setCq n v).part m = d.part m := rfl
@[simp] theorem Plane.setCq_vf (d : Plane) (n : Nat) (v : Cq) (m : Nat) : (d.setCq n v).vf m = d.vf m := rfl
@[simp] theorem Plane.setCq_slot (d : Plane) (n : Nat) (v : Cq) (m : Nat) : (d.setCq n v).slot m = d.slot m := rfl
@[simp] theorem Plane.setCq_win (d : Plane) (n : Nat) (v : Cq) (m : Nat) : (d.setCq n v).win m = d.win m := rfl
@[simp] theorem Plane.setCq_ring (d : Plane) (n : Nat) (v : Cq) (m : Nat) : (d.setCq n v).ring m = d.ring m := rfl
@[simp] theorem Plane.setCq_cq (d : Plane) (n : Nat) (v : Cq) (m : Nat) : (d.setCq n v).cq m = if m = n then v else d.cq m :=
  SMap.find_put _ _ _ _ _
@[simp] theorem Plane.setCq_event (d : Plane) (n : Nat) (v : Cq) (m : Nat) : (d.setCq n v).event m = d.event m := rfl
@[simp] theorem Plane.setCq_qp (d : Plane) (n : Nat) (v : Cq) (m : Nat) : (d.setCq n v).qp m = d.qp m := rfl
@[simp] theorem Plane.setCq_queue (d : Plane) (n : Nat) (v : Cq) (m : Nat) : (d.setCq n v).queue m = d.queue m := rfl
@[simp] theorem Plane.setCq_vein (d : Plane) (n : Nat) (v : Cq) (m : Nat) : (d.setCq n v).vein m = d.vein m := rfl
@[simp] theorem Plane.setCq_key (d : Plane) (n : Nat) (v : Cq) (m : Nat) : (d.setCq n v).key m = d.key m := rfl
@[simp] theorem Plane.setEvent_seq (d : Plane) (n : Nat) (v : Events) : (d.setEvent n v).seq = d.seq := rfl
@[simp] theorem Plane.setEvent_regs (d : Plane) (n : Nat) (v : Events) : (d.setEvent n v).regs = d.regs := rfl
@[simp] theorem Plane.setEvent_bus (d : Plane) (n : Nat) (v : Events) : (d.setEvent n v).bus = d.bus := rfl
@[simp] theorem Plane.setEvent_ports (d : Plane) (n : Nat) (v : Events) : (d.setEvent n v).ports = d.ports := rfl
@[simp] theorem Plane.setEvent_flows (d : Plane) (n : Nat) (v : Events) : (d.setEvent n v).flows = d.flows := rfl
@[simp] theorem Plane.setEvent_wheels (d : Plane) (n : Nat) (v : Events) : (d.setEvent n v).wheels = d.wheels := rfl
@[simp] theorem Plane.setEvent_parts (d : Plane) (n : Nat) (v : Events) : (d.setEvent n v).parts = d.parts := rfl
@[simp] theorem Plane.setEvent_vfs (d : Plane) (n : Nat) (v : Events) : (d.setEvent n v).vfs = d.vfs := rfl
@[simp] theorem Plane.setEvent_par (d : Plane) (n : Nat) (v : Events) : (d.setEvent n v).par = d.par := rfl
@[simp] theorem Plane.setEvent_mem (d : Plane) (n : Nat) (v : Events) : (d.setEvent n v).mem = d.mem := rfl
@[simp] theorem Plane.setEvent_host (d : Plane) (n : Nat) (v : Events) : (d.setEvent n v).host = d.host := rfl
@[simp] theorem Plane.setEvent_hostBad (d : Plane) (n : Nat) (v : Events) : (d.setEvent n v).hostBad = d.hostBad := rfl
@[simp] theorem Plane.setEvent_portPart (d : Plane) (n : Nat) (v : Events) : (d.setEvent n v).portPart = d.portPart := rfl
@[simp] theorem Plane.setEvent_poison (d : Plane) (n : Nat) (v : Events) : (d.setEvent n v).poison = d.poison := rfl
@[simp] theorem Plane.setEvent_faults (d : Plane) (n : Nat) (v : Events) : (d.setEvent n v).faults = d.faults := rfl
@[simp] theorem Plane.setEvent_slotless (d : Plane) (n : Nat) (v : Events) : (d.setEvent n v).slotless = d.slotless := rfl
@[simp] theorem Plane.setEvent_cache (d : Plane) (n : Nat) (v : Events) : (d.setEvent n v).cache = d.cache := rfl
@[simp] theorem Plane.setEvent_pointers (d : Plane) (n : Nat) (v : Events) : (d.setEvent n v).pointers = d.pointers := rfl
@[simp] theorem Plane.setEvent_wins (d : Plane) (n : Nat) (v : Events) : (d.setEvent n v).wins = d.wins := rfl
@[simp] theorem Plane.setEvent_rings (d : Plane) (n : Nat) (v : Events) : (d.setEvent n v).rings = d.rings := rfl
@[simp] theorem Plane.setEvent_cqs (d : Plane) (n : Nat) (v : Events) : (d.setEvent n v).cqs = d.cqs := rfl
@[simp] theorem Plane.setEvent_qps (d : Plane) (n : Nat) (v : Events) : (d.setEvent n v).qps = d.qps := rfl
@[simp] theorem Plane.setEvent_xpt (d : Plane) (n : Nat) (v : Events) : (d.setEvent n v).xpt = d.xpt := rfl
@[simp] theorem Plane.setEvent_stg (d : Plane) (n : Nat) (v : Events) : (d.setEvent n v).stg = d.stg := rfl
@[simp] theorem Plane.setEvent_col (d : Plane) (n : Nat) (v : Events) : (d.setEvent n v).col = d.col := rfl
@[simp] theorem Plane.setEvent_veins (d : Plane) (n : Nat) (v : Events) : (d.setEvent n v).veins = d.veins := rfl
@[simp] theorem Plane.setEvent_turns (d : Plane) (n : Nat) (v : Events) : (d.setEvent n v).turns = d.turns := rfl
@[simp] theorem Plane.setEvent_keys (d : Plane) (n : Nat) (v : Events) : (d.setEvent n v).keys = d.keys := rfl
@[simp] theorem Plane.setEvent_cip (d : Plane) (n : Nat) (v : Events) : (d.setEvent n v).cip = d.cip := rfl
@[simp] theorem Plane.setEvent_obs (d : Plane) (n : Nat) (v : Events) : (d.setEvent n v).obs = d.obs := rfl
@[simp] theorem Plane.setEvent_wire (d : Plane) (n : Nat) (v : Events) : (d.setEvent n v).wire = d.wire := rfl
@[simp] theorem Plane.setEvent_msix (d : Plane) (n : Nat) (v : Events) : (d.setEvent n v).msix = d.msix := rfl
@[simp] theorem Plane.setEvent_obsOut (d : Plane) (n : Nat) (v : Events) : (d.setEvent n v).obsOut = d.obsOut := rfl
@[simp] theorem Plane.setEvent_effects (d : Plane) (n : Nat) (v : Events) : (d.setEvent n v).effects = d.effects := rfl
@[simp] theorem Plane.setEvent_reg (d : Plane) (n : Nat) (v : Events) (m : Nat) : (d.setEvent n v).reg m = d.reg m := rfl
@[simp] theorem Plane.setEvent_port (d : Plane) (n : Nat) (v : Events) (m : Nat) : (d.setEvent n v).port m = d.port m := rfl
@[simp] theorem Plane.setEvent_flow (d : Plane) (n : Nat) (v : Events) (m : Nat) : (d.setEvent n v).flow m = d.flow m := rfl
@[simp] theorem Plane.setEvent_wheel (d : Plane) (n : Nat) (v : Events) (m : Nat) : (d.setEvent n v).wheel m = d.wheel m := rfl
@[simp] theorem Plane.setEvent_part (d : Plane) (n : Nat) (v : Events) (m : Nat) : (d.setEvent n v).part m = d.part m := rfl
@[simp] theorem Plane.setEvent_vf (d : Plane) (n : Nat) (v : Events) (m : Nat) : (d.setEvent n v).vf m = d.vf m := rfl
@[simp] theorem Plane.setEvent_slot (d : Plane) (n : Nat) (v : Events) (m : Nat) : (d.setEvent n v).slot m = d.slot m := rfl
@[simp] theorem Plane.setEvent_win (d : Plane) (n : Nat) (v : Events) (m : Nat) : (d.setEvent n v).win m = d.win m := rfl
@[simp] theorem Plane.setEvent_ring (d : Plane) (n : Nat) (v : Events) (m : Nat) : (d.setEvent n v).ring m = d.ring m := rfl
@[simp] theorem Plane.setEvent_cq (d : Plane) (n : Nat) (v : Events) (m : Nat) : (d.setEvent n v).cq m = d.cq m := rfl
@[simp] theorem Plane.setEvent_event (d : Plane) (n : Nat) (v : Events) (m : Nat) : (d.setEvent n v).event m = if m = n then v else d.event m :=
  SMap.find_put _ _ _ _ _
@[simp] theorem Plane.setEvent_qp (d : Plane) (n : Nat) (v : Events) (m : Nat) : (d.setEvent n v).qp m = d.qp m := rfl
@[simp] theorem Plane.setEvent_queue (d : Plane) (n : Nat) (v : Events) (m : Nat) : (d.setEvent n v).queue m = d.queue m := rfl
@[simp] theorem Plane.setEvent_vein (d : Plane) (n : Nat) (v : Events) (m : Nat) : (d.setEvent n v).vein m = d.vein m := rfl
@[simp] theorem Plane.setEvent_key (d : Plane) (n : Nat) (v : Events) (m : Nat) : (d.setEvent n v).key m = d.key m := rfl
@[simp] theorem Plane.setQp_seq (d : Plane) (n : Nat) (v : Qp) : (d.setQp n v).seq = d.seq := rfl
@[simp] theorem Plane.setQp_regs (d : Plane) (n : Nat) (v : Qp) : (d.setQp n v).regs = d.regs := rfl
@[simp] theorem Plane.setQp_bus (d : Plane) (n : Nat) (v : Qp) : (d.setQp n v).bus = d.bus := rfl
@[simp] theorem Plane.setQp_ports (d : Plane) (n : Nat) (v : Qp) : (d.setQp n v).ports = d.ports := rfl
@[simp] theorem Plane.setQp_flows (d : Plane) (n : Nat) (v : Qp) : (d.setQp n v).flows = d.flows := rfl
@[simp] theorem Plane.setQp_wheels (d : Plane) (n : Nat) (v : Qp) : (d.setQp n v).wheels = d.wheels := rfl
@[simp] theorem Plane.setQp_parts (d : Plane) (n : Nat) (v : Qp) : (d.setQp n v).parts = d.parts := rfl
@[simp] theorem Plane.setQp_vfs (d : Plane) (n : Nat) (v : Qp) : (d.setQp n v).vfs = d.vfs := rfl
@[simp] theorem Plane.setQp_par (d : Plane) (n : Nat) (v : Qp) : (d.setQp n v).par = d.par := rfl
@[simp] theorem Plane.setQp_mem (d : Plane) (n : Nat) (v : Qp) : (d.setQp n v).mem = d.mem := rfl
@[simp] theorem Plane.setQp_host (d : Plane) (n : Nat) (v : Qp) : (d.setQp n v).host = d.host := rfl
@[simp] theorem Plane.setQp_hostBad (d : Plane) (n : Nat) (v : Qp) : (d.setQp n v).hostBad = d.hostBad := rfl
@[simp] theorem Plane.setQp_portPart (d : Plane) (n : Nat) (v : Qp) : (d.setQp n v).portPart = d.portPart := rfl
@[simp] theorem Plane.setQp_poison (d : Plane) (n : Nat) (v : Qp) : (d.setQp n v).poison = d.poison := rfl
@[simp] theorem Plane.setQp_faults (d : Plane) (n : Nat) (v : Qp) : (d.setQp n v).faults = d.faults := rfl
@[simp] theorem Plane.setQp_slotless (d : Plane) (n : Nat) (v : Qp) : (d.setQp n v).slotless = d.slotless := rfl
@[simp] theorem Plane.setQp_cache (d : Plane) (n : Nat) (v : Qp) : (d.setQp n v).cache = d.cache := rfl
@[simp] theorem Plane.setQp_pointers (d : Plane) (n : Nat) (v : Qp) : (d.setQp n v).pointers = d.pointers := rfl
@[simp] theorem Plane.setQp_wins (d : Plane) (n : Nat) (v : Qp) : (d.setQp n v).wins = d.wins := rfl
@[simp] theorem Plane.setQp_rings (d : Plane) (n : Nat) (v : Qp) : (d.setQp n v).rings = d.rings := rfl
@[simp] theorem Plane.setQp_cqs (d : Plane) (n : Nat) (v : Qp) : (d.setQp n v).cqs = d.cqs := rfl
@[simp] theorem Plane.setQp_events (d : Plane) (n : Nat) (v : Qp) : (d.setQp n v).events = d.events := rfl
@[simp] theorem Plane.setQp_xpt (d : Plane) (n : Nat) (v : Qp) : (d.setQp n v).xpt = d.xpt := rfl
@[simp] theorem Plane.setQp_stg (d : Plane) (n : Nat) (v : Qp) : (d.setQp n v).stg = d.stg := rfl
@[simp] theorem Plane.setQp_col (d : Plane) (n : Nat) (v : Qp) : (d.setQp n v).col = d.col := rfl
@[simp] theorem Plane.setQp_veins (d : Plane) (n : Nat) (v : Qp) : (d.setQp n v).veins = d.veins := rfl
@[simp] theorem Plane.setQp_turns (d : Plane) (n : Nat) (v : Qp) : (d.setQp n v).turns = d.turns := rfl
@[simp] theorem Plane.setQp_keys (d : Plane) (n : Nat) (v : Qp) : (d.setQp n v).keys = d.keys := rfl
@[simp] theorem Plane.setQp_cip (d : Plane) (n : Nat) (v : Qp) : (d.setQp n v).cip = d.cip := rfl
@[simp] theorem Plane.setQp_obs (d : Plane) (n : Nat) (v : Qp) : (d.setQp n v).obs = d.obs := rfl
@[simp] theorem Plane.setQp_wire (d : Plane) (n : Nat) (v : Qp) : (d.setQp n v).wire = d.wire := rfl
@[simp] theorem Plane.setQp_msix (d : Plane) (n : Nat) (v : Qp) : (d.setQp n v).msix = d.msix := rfl
@[simp] theorem Plane.setQp_obsOut (d : Plane) (n : Nat) (v : Qp) : (d.setQp n v).obsOut = d.obsOut := rfl
@[simp] theorem Plane.setQp_effects (d : Plane) (n : Nat) (v : Qp) : (d.setQp n v).effects = d.effects := rfl
@[simp] theorem Plane.setQp_reg (d : Plane) (n : Nat) (v : Qp) (m : Nat) : (d.setQp n v).reg m = d.reg m := rfl
@[simp] theorem Plane.setQp_port (d : Plane) (n : Nat) (v : Qp) (m : Nat) : (d.setQp n v).port m = d.port m := rfl
@[simp] theorem Plane.setQp_flow (d : Plane) (n : Nat) (v : Qp) (m : Nat) : (d.setQp n v).flow m = d.flow m := rfl
@[simp] theorem Plane.setQp_wheel (d : Plane) (n : Nat) (v : Qp) (m : Nat) : (d.setQp n v).wheel m = d.wheel m := rfl
@[simp] theorem Plane.setQp_part (d : Plane) (n : Nat) (v : Qp) (m : Nat) : (d.setQp n v).part m = d.part m := rfl
@[simp] theorem Plane.setQp_vf (d : Plane) (n : Nat) (v : Qp) (m : Nat) : (d.setQp n v).vf m = d.vf m := rfl
@[simp] theorem Plane.setQp_slot (d : Plane) (n : Nat) (v : Qp) (m : Nat) : (d.setQp n v).slot m = d.slot m := rfl
@[simp] theorem Plane.setQp_win (d : Plane) (n : Nat) (v : Qp) (m : Nat) : (d.setQp n v).win m = d.win m := rfl
@[simp] theorem Plane.setQp_ring (d : Plane) (n : Nat) (v : Qp) (m : Nat) : (d.setQp n v).ring m = d.ring m := rfl
@[simp] theorem Plane.setQp_cq (d : Plane) (n : Nat) (v : Qp) (m : Nat) : (d.setQp n v).cq m = d.cq m := rfl
@[simp] theorem Plane.setQp_event (d : Plane) (n : Nat) (v : Qp) (m : Nat) : (d.setQp n v).event m = d.event m := rfl
@[simp] theorem Plane.setQp_qp (d : Plane) (n : Nat) (v : Qp) (m : Nat) : (d.setQp n v).qp m = if m = n then v else d.qp m :=
  SMap.find_put _ _ _ _ _
@[simp] theorem Plane.setQp_queue (d : Plane) (n : Nat) (v : Qp) (m : Nat) : (d.setQp n v).queue m = d.queue m := rfl
@[simp] theorem Plane.setQp_vein (d : Plane) (n : Nat) (v : Qp) (m : Nat) : (d.setQp n v).vein m = d.vein m := rfl
@[simp] theorem Plane.setQp_key (d : Plane) (n : Nat) (v : Qp) (m : Nat) : (d.setQp n v).key m = d.key m := rfl
@[simp] theorem Plane.setQueue_seq (d : Plane) (n : Nat) (v : Stg) : (d.setQueue n v).seq = d.seq := rfl
@[simp] theorem Plane.setQueue_regs (d : Plane) (n : Nat) (v : Stg) : (d.setQueue n v).regs = d.regs := rfl
@[simp] theorem Plane.setQueue_bus (d : Plane) (n : Nat) (v : Stg) : (d.setQueue n v).bus = d.bus := rfl
@[simp] theorem Plane.setQueue_ports (d : Plane) (n : Nat) (v : Stg) : (d.setQueue n v).ports = d.ports := rfl
@[simp] theorem Plane.setQueue_flows (d : Plane) (n : Nat) (v : Stg) : (d.setQueue n v).flows = d.flows := rfl
@[simp] theorem Plane.setQueue_wheels (d : Plane) (n : Nat) (v : Stg) : (d.setQueue n v).wheels = d.wheels := rfl
@[simp] theorem Plane.setQueue_parts (d : Plane) (n : Nat) (v : Stg) : (d.setQueue n v).parts = d.parts := rfl
@[simp] theorem Plane.setQueue_vfs (d : Plane) (n : Nat) (v : Stg) : (d.setQueue n v).vfs = d.vfs := rfl
@[simp] theorem Plane.setQueue_par (d : Plane) (n : Nat) (v : Stg) : (d.setQueue n v).par = d.par := rfl
@[simp] theorem Plane.setQueue_mem (d : Plane) (n : Nat) (v : Stg) : (d.setQueue n v).mem = d.mem := rfl
@[simp] theorem Plane.setQueue_host (d : Plane) (n : Nat) (v : Stg) : (d.setQueue n v).host = d.host := rfl
@[simp] theorem Plane.setQueue_hostBad (d : Plane) (n : Nat) (v : Stg) : (d.setQueue n v).hostBad = d.hostBad := rfl
@[simp] theorem Plane.setQueue_portPart (d : Plane) (n : Nat) (v : Stg) : (d.setQueue n v).portPart = d.portPart := rfl
@[simp] theorem Plane.setQueue_poison (d : Plane) (n : Nat) (v : Stg) : (d.setQueue n v).poison = d.poison := rfl
@[simp] theorem Plane.setQueue_faults (d : Plane) (n : Nat) (v : Stg) : (d.setQueue n v).faults = d.faults := rfl
@[simp] theorem Plane.setQueue_slotless (d : Plane) (n : Nat) (v : Stg) : (d.setQueue n v).slotless = d.slotless := rfl
@[simp] theorem Plane.setQueue_cache (d : Plane) (n : Nat) (v : Stg) : (d.setQueue n v).cache = d.cache := rfl
@[simp] theorem Plane.setQueue_pointers (d : Plane) (n : Nat) (v : Stg) : (d.setQueue n v).pointers = d.pointers := rfl
@[simp] theorem Plane.setQueue_wins (d : Plane) (n : Nat) (v : Stg) : (d.setQueue n v).wins = d.wins := rfl
@[simp] theorem Plane.setQueue_rings (d : Plane) (n : Nat) (v : Stg) : (d.setQueue n v).rings = d.rings := rfl
@[simp] theorem Plane.setQueue_cqs (d : Plane) (n : Nat) (v : Stg) : (d.setQueue n v).cqs = d.cqs := rfl
@[simp] theorem Plane.setQueue_events (d : Plane) (n : Nat) (v : Stg) : (d.setQueue n v).events = d.events := rfl
@[simp] theorem Plane.setQueue_qps (d : Plane) (n : Nat) (v : Stg) : (d.setQueue n v).qps = d.qps := rfl
@[simp] theorem Plane.setQueue_xpt (d : Plane) (n : Nat) (v : Stg) : (d.setQueue n v).xpt = d.xpt := rfl
@[simp] theorem Plane.setQueue_col (d : Plane) (n : Nat) (v : Stg) : (d.setQueue n v).col = d.col := rfl
@[simp] theorem Plane.setQueue_veins (d : Plane) (n : Nat) (v : Stg) : (d.setQueue n v).veins = d.veins := rfl
@[simp] theorem Plane.setQueue_turns (d : Plane) (n : Nat) (v : Stg) : (d.setQueue n v).turns = d.turns := rfl
@[simp] theorem Plane.setQueue_keys (d : Plane) (n : Nat) (v : Stg) : (d.setQueue n v).keys = d.keys := rfl
@[simp] theorem Plane.setQueue_cip (d : Plane) (n : Nat) (v : Stg) : (d.setQueue n v).cip = d.cip := rfl
@[simp] theorem Plane.setQueue_obs (d : Plane) (n : Nat) (v : Stg) : (d.setQueue n v).obs = d.obs := rfl
@[simp] theorem Plane.setQueue_wire (d : Plane) (n : Nat) (v : Stg) : (d.setQueue n v).wire = d.wire := rfl
@[simp] theorem Plane.setQueue_msix (d : Plane) (n : Nat) (v : Stg) : (d.setQueue n v).msix = d.msix := rfl
@[simp] theorem Plane.setQueue_obsOut (d : Plane) (n : Nat) (v : Stg) : (d.setQueue n v).obsOut = d.obsOut := rfl
@[simp] theorem Plane.setQueue_effects (d : Plane) (n : Nat) (v : Stg) : (d.setQueue n v).effects = d.effects := rfl
@[simp] theorem Plane.setQueue_reg (d : Plane) (n : Nat) (v : Stg) (m : Nat) : (d.setQueue n v).reg m = d.reg m := rfl
@[simp] theorem Plane.setQueue_port (d : Plane) (n : Nat) (v : Stg) (m : Nat) : (d.setQueue n v).port m = d.port m := rfl
@[simp] theorem Plane.setQueue_flow (d : Plane) (n : Nat) (v : Stg) (m : Nat) : (d.setQueue n v).flow m = d.flow m := rfl
@[simp] theorem Plane.setQueue_wheel (d : Plane) (n : Nat) (v : Stg) (m : Nat) : (d.setQueue n v).wheel m = d.wheel m := rfl
@[simp] theorem Plane.setQueue_part (d : Plane) (n : Nat) (v : Stg) (m : Nat) : (d.setQueue n v).part m = d.part m := rfl
@[simp] theorem Plane.setQueue_vf (d : Plane) (n : Nat) (v : Stg) (m : Nat) : (d.setQueue n v).vf m = d.vf m := rfl
@[simp] theorem Plane.setQueue_slot (d : Plane) (n : Nat) (v : Stg) (m : Nat) : (d.setQueue n v).slot m = d.slot m := rfl
@[simp] theorem Plane.setQueue_win (d : Plane) (n : Nat) (v : Stg) (m : Nat) : (d.setQueue n v).win m = d.win m := rfl
@[simp] theorem Plane.setQueue_ring (d : Plane) (n : Nat) (v : Stg) (m : Nat) : (d.setQueue n v).ring m = d.ring m := rfl
@[simp] theorem Plane.setQueue_cq (d : Plane) (n : Nat) (v : Stg) (m : Nat) : (d.setQueue n v).cq m = d.cq m := rfl
@[simp] theorem Plane.setQueue_event (d : Plane) (n : Nat) (v : Stg) (m : Nat) : (d.setQueue n v).event m = d.event m := rfl
@[simp] theorem Plane.setQueue_qp (d : Plane) (n : Nat) (v : Stg) (m : Nat) : (d.setQueue n v).qp m = d.qp m := rfl
@[simp] theorem Plane.setQueue_queue (d : Plane) (n : Nat) (v : Stg) (m : Nat) : (d.setQueue n v).queue m = if m = n then v else d.queue m :=
  SMap.find_put _ _ _ _ _
@[simp] theorem Plane.setQueue_vein (d : Plane) (n : Nat) (v : Stg) (m : Nat) : (d.setQueue n v).vein m = d.vein m := rfl
@[simp] theorem Plane.setQueue_key (d : Plane) (n : Nat) (v : Stg) (m : Nat) : (d.setQueue n v).key m = d.key m := rfl
@[simp] theorem Plane.setVein_seq (d : Plane) (n : Nat) (v : Vein) : (d.setVein n v).seq = d.seq := rfl
@[simp] theorem Plane.setVein_regs (d : Plane) (n : Nat) (v : Vein) : (d.setVein n v).regs = d.regs := rfl
@[simp] theorem Plane.setVein_bus (d : Plane) (n : Nat) (v : Vein) : (d.setVein n v).bus = d.bus := rfl
@[simp] theorem Plane.setVein_ports (d : Plane) (n : Nat) (v : Vein) : (d.setVein n v).ports = d.ports := rfl
@[simp] theorem Plane.setVein_flows (d : Plane) (n : Nat) (v : Vein) : (d.setVein n v).flows = d.flows := rfl
@[simp] theorem Plane.setVein_wheels (d : Plane) (n : Nat) (v : Vein) : (d.setVein n v).wheels = d.wheels := rfl
@[simp] theorem Plane.setVein_parts (d : Plane) (n : Nat) (v : Vein) : (d.setVein n v).parts = d.parts := rfl
@[simp] theorem Plane.setVein_vfs (d : Plane) (n : Nat) (v : Vein) : (d.setVein n v).vfs = d.vfs := rfl
@[simp] theorem Plane.setVein_par (d : Plane) (n : Nat) (v : Vein) : (d.setVein n v).par = d.par := rfl
@[simp] theorem Plane.setVein_mem (d : Plane) (n : Nat) (v : Vein) : (d.setVein n v).mem = d.mem := rfl
@[simp] theorem Plane.setVein_host (d : Plane) (n : Nat) (v : Vein) : (d.setVein n v).host = d.host := rfl
@[simp] theorem Plane.setVein_hostBad (d : Plane) (n : Nat) (v : Vein) : (d.setVein n v).hostBad = d.hostBad := rfl
@[simp] theorem Plane.setVein_portPart (d : Plane) (n : Nat) (v : Vein) : (d.setVein n v).portPart = d.portPart := rfl
@[simp] theorem Plane.setVein_poison (d : Plane) (n : Nat) (v : Vein) : (d.setVein n v).poison = d.poison := rfl
@[simp] theorem Plane.setVein_faults (d : Plane) (n : Nat) (v : Vein) : (d.setVein n v).faults = d.faults := rfl
@[simp] theorem Plane.setVein_slotless (d : Plane) (n : Nat) (v : Vein) : (d.setVein n v).slotless = d.slotless := rfl
@[simp] theorem Plane.setVein_cache (d : Plane) (n : Nat) (v : Vein) : (d.setVein n v).cache = d.cache := rfl
@[simp] theorem Plane.setVein_pointers (d : Plane) (n : Nat) (v : Vein) : (d.setVein n v).pointers = d.pointers := rfl
@[simp] theorem Plane.setVein_wins (d : Plane) (n : Nat) (v : Vein) : (d.setVein n v).wins = d.wins := rfl
@[simp] theorem Plane.setVein_rings (d : Plane) (n : Nat) (v : Vein) : (d.setVein n v).rings = d.rings := rfl
@[simp] theorem Plane.setVein_cqs (d : Plane) (n : Nat) (v : Vein) : (d.setVein n v).cqs = d.cqs := rfl
@[simp] theorem Plane.setVein_events (d : Plane) (n : Nat) (v : Vein) : (d.setVein n v).events = d.events := rfl
@[simp] theorem Plane.setVein_qps (d : Plane) (n : Nat) (v : Vein) : (d.setVein n v).qps = d.qps := rfl
@[simp] theorem Plane.setVein_xpt (d : Plane) (n : Nat) (v : Vein) : (d.setVein n v).xpt = d.xpt := rfl
@[simp] theorem Plane.setVein_stg (d : Plane) (n : Nat) (v : Vein) : (d.setVein n v).stg = d.stg := rfl
@[simp] theorem Plane.setVein_col (d : Plane) (n : Nat) (v : Vein) : (d.setVein n v).col = d.col := rfl
@[simp] theorem Plane.setVein_turns (d : Plane) (n : Nat) (v : Vein) : (d.setVein n v).turns = d.turns := rfl
@[simp] theorem Plane.setVein_keys (d : Plane) (n : Nat) (v : Vein) : (d.setVein n v).keys = d.keys := rfl
@[simp] theorem Plane.setVein_cip (d : Plane) (n : Nat) (v : Vein) : (d.setVein n v).cip = d.cip := rfl
@[simp] theorem Plane.setVein_obs (d : Plane) (n : Nat) (v : Vein) : (d.setVein n v).obs = d.obs := rfl
@[simp] theorem Plane.setVein_wire (d : Plane) (n : Nat) (v : Vein) : (d.setVein n v).wire = d.wire := rfl
@[simp] theorem Plane.setVein_msix (d : Plane) (n : Nat) (v : Vein) : (d.setVein n v).msix = d.msix := rfl
@[simp] theorem Plane.setVein_obsOut (d : Plane) (n : Nat) (v : Vein) : (d.setVein n v).obsOut = d.obsOut := rfl
@[simp] theorem Plane.setVein_effects (d : Plane) (n : Nat) (v : Vein) : (d.setVein n v).effects = d.effects := rfl
@[simp] theorem Plane.setVein_reg (d : Plane) (n : Nat) (v : Vein) (m : Nat) : (d.setVein n v).reg m = d.reg m := rfl
@[simp] theorem Plane.setVein_port (d : Plane) (n : Nat) (v : Vein) (m : Nat) : (d.setVein n v).port m = d.port m := rfl
@[simp] theorem Plane.setVein_flow (d : Plane) (n : Nat) (v : Vein) (m : Nat) : (d.setVein n v).flow m = d.flow m := rfl
@[simp] theorem Plane.setVein_wheel (d : Plane) (n : Nat) (v : Vein) (m : Nat) : (d.setVein n v).wheel m = d.wheel m := rfl
@[simp] theorem Plane.setVein_part (d : Plane) (n : Nat) (v : Vein) (m : Nat) : (d.setVein n v).part m = d.part m := rfl
@[simp] theorem Plane.setVein_vf (d : Plane) (n : Nat) (v : Vein) (m : Nat) : (d.setVein n v).vf m = d.vf m := rfl
@[simp] theorem Plane.setVein_slot (d : Plane) (n : Nat) (v : Vein) (m : Nat) : (d.setVein n v).slot m = d.slot m := rfl
@[simp] theorem Plane.setVein_win (d : Plane) (n : Nat) (v : Vein) (m : Nat) : (d.setVein n v).win m = d.win m := rfl
@[simp] theorem Plane.setVein_ring (d : Plane) (n : Nat) (v : Vein) (m : Nat) : (d.setVein n v).ring m = d.ring m := rfl
@[simp] theorem Plane.setVein_cq (d : Plane) (n : Nat) (v : Vein) (m : Nat) : (d.setVein n v).cq m = d.cq m := rfl
@[simp] theorem Plane.setVein_event (d : Plane) (n : Nat) (v : Vein) (m : Nat) : (d.setVein n v).event m = d.event m := rfl
@[simp] theorem Plane.setVein_qp (d : Plane) (n : Nat) (v : Vein) (m : Nat) : (d.setVein n v).qp m = d.qp m := rfl
@[simp] theorem Plane.setVein_queue (d : Plane) (n : Nat) (v : Vein) (m : Nat) : (d.setVein n v).queue m = d.queue m := rfl
@[simp] theorem Plane.setVein_vein (d : Plane) (n : Nat) (v : Vein) (m : Nat) : (d.setVein n v).vein m = if m = n then v else d.vein m :=
  SMap.find_put _ _ _ _ _
@[simp] theorem Plane.setVein_key (d : Plane) (n : Nat) (v : Vein) (m : Nat) : (d.setVein n v).key m = d.key m := rfl
@[simp] theorem Plane.setKey_seq (d : Plane) (n : Nat) (v : KeySlot) : (d.setKey n v).seq = d.seq := rfl
@[simp] theorem Plane.setKey_regs (d : Plane) (n : Nat) (v : KeySlot) : (d.setKey n v).regs = d.regs := rfl
@[simp] theorem Plane.setKey_bus (d : Plane) (n : Nat) (v : KeySlot) : (d.setKey n v).bus = d.bus := rfl
@[simp] theorem Plane.setKey_ports (d : Plane) (n : Nat) (v : KeySlot) : (d.setKey n v).ports = d.ports := rfl
@[simp] theorem Plane.setKey_flows (d : Plane) (n : Nat) (v : KeySlot) : (d.setKey n v).flows = d.flows := rfl
@[simp] theorem Plane.setKey_wheels (d : Plane) (n : Nat) (v : KeySlot) : (d.setKey n v).wheels = d.wheels := rfl
@[simp] theorem Plane.setKey_parts (d : Plane) (n : Nat) (v : KeySlot) : (d.setKey n v).parts = d.parts := rfl
@[simp] theorem Plane.setKey_vfs (d : Plane) (n : Nat) (v : KeySlot) : (d.setKey n v).vfs = d.vfs := rfl
@[simp] theorem Plane.setKey_par (d : Plane) (n : Nat) (v : KeySlot) : (d.setKey n v).par = d.par := rfl
@[simp] theorem Plane.setKey_mem (d : Plane) (n : Nat) (v : KeySlot) : (d.setKey n v).mem = d.mem := rfl
@[simp] theorem Plane.setKey_host (d : Plane) (n : Nat) (v : KeySlot) : (d.setKey n v).host = d.host := rfl
@[simp] theorem Plane.setKey_hostBad (d : Plane) (n : Nat) (v : KeySlot) : (d.setKey n v).hostBad = d.hostBad := rfl
@[simp] theorem Plane.setKey_portPart (d : Plane) (n : Nat) (v : KeySlot) : (d.setKey n v).portPart = d.portPart := rfl
@[simp] theorem Plane.setKey_poison (d : Plane) (n : Nat) (v : KeySlot) : (d.setKey n v).poison = d.poison := rfl
@[simp] theorem Plane.setKey_faults (d : Plane) (n : Nat) (v : KeySlot) : (d.setKey n v).faults = d.faults := rfl
@[simp] theorem Plane.setKey_slotless (d : Plane) (n : Nat) (v : KeySlot) : (d.setKey n v).slotless = d.slotless := rfl
@[simp] theorem Plane.setKey_cache (d : Plane) (n : Nat) (v : KeySlot) : (d.setKey n v).cache = d.cache := rfl
@[simp] theorem Plane.setKey_pointers (d : Plane) (n : Nat) (v : KeySlot) : (d.setKey n v).pointers = d.pointers := rfl
@[simp] theorem Plane.setKey_wins (d : Plane) (n : Nat) (v : KeySlot) : (d.setKey n v).wins = d.wins := rfl
@[simp] theorem Plane.setKey_rings (d : Plane) (n : Nat) (v : KeySlot) : (d.setKey n v).rings = d.rings := rfl
@[simp] theorem Plane.setKey_cqs (d : Plane) (n : Nat) (v : KeySlot) : (d.setKey n v).cqs = d.cqs := rfl
@[simp] theorem Plane.setKey_events (d : Plane) (n : Nat) (v : KeySlot) : (d.setKey n v).events = d.events := rfl
@[simp] theorem Plane.setKey_qps (d : Plane) (n : Nat) (v : KeySlot) : (d.setKey n v).qps = d.qps := rfl
@[simp] theorem Plane.setKey_xpt (d : Plane) (n : Nat) (v : KeySlot) : (d.setKey n v).xpt = d.xpt := rfl
@[simp] theorem Plane.setKey_stg (d : Plane) (n : Nat) (v : KeySlot) : (d.setKey n v).stg = d.stg := rfl
@[simp] theorem Plane.setKey_col (d : Plane) (n : Nat) (v : KeySlot) : (d.setKey n v).col = d.col := rfl
@[simp] theorem Plane.setKey_veins (d : Plane) (n : Nat) (v : KeySlot) : (d.setKey n v).veins = d.veins := rfl
@[simp] theorem Plane.setKey_turns (d : Plane) (n : Nat) (v : KeySlot) : (d.setKey n v).turns = d.turns := rfl
@[simp] theorem Plane.setKey_cip (d : Plane) (n : Nat) (v : KeySlot) : (d.setKey n v).cip = d.cip := rfl
@[simp] theorem Plane.setKey_obs (d : Plane) (n : Nat) (v : KeySlot) : (d.setKey n v).obs = d.obs := rfl
@[simp] theorem Plane.setKey_wire (d : Plane) (n : Nat) (v : KeySlot) : (d.setKey n v).wire = d.wire := rfl
@[simp] theorem Plane.setKey_msix (d : Plane) (n : Nat) (v : KeySlot) : (d.setKey n v).msix = d.msix := rfl
@[simp] theorem Plane.setKey_obsOut (d : Plane) (n : Nat) (v : KeySlot) : (d.setKey n v).obsOut = d.obsOut := rfl
@[simp] theorem Plane.setKey_effects (d : Plane) (n : Nat) (v : KeySlot) : (d.setKey n v).effects = d.effects := rfl
@[simp] theorem Plane.setKey_reg (d : Plane) (n : Nat) (v : KeySlot) (m : Nat) : (d.setKey n v).reg m = d.reg m := rfl
@[simp] theorem Plane.setKey_port (d : Plane) (n : Nat) (v : KeySlot) (m : Nat) : (d.setKey n v).port m = d.port m := rfl
@[simp] theorem Plane.setKey_flow (d : Plane) (n : Nat) (v : KeySlot) (m : Nat) : (d.setKey n v).flow m = d.flow m := rfl
@[simp] theorem Plane.setKey_wheel (d : Plane) (n : Nat) (v : KeySlot) (m : Nat) : (d.setKey n v).wheel m = d.wheel m := rfl
@[simp] theorem Plane.setKey_part (d : Plane) (n : Nat) (v : KeySlot) (m : Nat) : (d.setKey n v).part m = d.part m := rfl
@[simp] theorem Plane.setKey_vf (d : Plane) (n : Nat) (v : KeySlot) (m : Nat) : (d.setKey n v).vf m = d.vf m := rfl
@[simp] theorem Plane.setKey_slot (d : Plane) (n : Nat) (v : KeySlot) (m : Nat) : (d.setKey n v).slot m = d.slot m := rfl
@[simp] theorem Plane.setKey_win (d : Plane) (n : Nat) (v : KeySlot) (m : Nat) : (d.setKey n v).win m = d.win m := rfl
@[simp] theorem Plane.setKey_ring (d : Plane) (n : Nat) (v : KeySlot) (m : Nat) : (d.setKey n v).ring m = d.ring m := rfl
@[simp] theorem Plane.setKey_cq (d : Plane) (n : Nat) (v : KeySlot) (m : Nat) : (d.setKey n v).cq m = d.cq m := rfl
@[simp] theorem Plane.setKey_event (d : Plane) (n : Nat) (v : KeySlot) (m : Nat) : (d.setKey n v).event m = d.event m := rfl
@[simp] theorem Plane.setKey_qp (d : Plane) (n : Nat) (v : KeySlot) (m : Nat) : (d.setKey n v).qp m = d.qp m := rfl
@[simp] theorem Plane.setKey_queue (d : Plane) (n : Nat) (v : KeySlot) (m : Nat) : (d.setKey n v).queue m = d.queue m := rfl
@[simp] theorem Plane.setKey_vein (d : Plane) (n : Nat) (v : KeySlot) (m : Nat) : (d.setKey n v).vein m = d.vein m := rfl
@[simp] theorem Plane.setKey_key (d : Plane) (n : Nat) (v : KeySlot) (m : Nat) : (d.setKey n v).key m = if m = n then v else d.key m :=
  SMap.find_put _ _ _ _ _
@[simp] theorem Plane.raise_seq (d : Plane) (x y : Nat) (p : Option Nat) : (d.raise x y p).seq = d.seq := rfl
@[simp] theorem Plane.raise_regs (d : Plane) (x y : Nat) (p : Option Nat) : (d.raise x y p).regs = d.regs := rfl
@[simp] theorem Plane.raise_bus (d : Plane) (x y : Nat) (p : Option Nat) : (d.raise x y p).bus = d.bus := rfl
@[simp] theorem Plane.raise_ports (d : Plane) (x y : Nat) (p : Option Nat) : (d.raise x y p).ports = d.ports := rfl
@[simp] theorem Plane.raise_flows (d : Plane) (x y : Nat) (p : Option Nat) : (d.raise x y p).flows = d.flows := rfl
@[simp] theorem Plane.raise_wheels (d : Plane) (x y : Nat) (p : Option Nat) : (d.raise x y p).wheels = d.wheels := rfl
@[simp] theorem Plane.raise_parts (d : Plane) (x y : Nat) (p : Option Nat) : (d.raise x y p).parts = d.parts := rfl
@[simp] theorem Plane.raise_vfs (d : Plane) (x y : Nat) (p : Option Nat) : (d.raise x y p).vfs = d.vfs := rfl
@[simp] theorem Plane.raise_par (d : Plane) (x y : Nat) (p : Option Nat) : (d.raise x y p).par = d.par := rfl
@[simp] theorem Plane.raise_mem (d : Plane) (x y : Nat) (p : Option Nat) : (d.raise x y p).mem = d.mem := rfl
@[simp] theorem Plane.raise_host (d : Plane) (x y : Nat) (p : Option Nat) : (d.raise x y p).host = d.host := rfl
@[simp] theorem Plane.raise_hostBad (d : Plane) (x y : Nat) (p : Option Nat) : (d.raise x y p).hostBad = d.hostBad := rfl
@[simp] theorem Plane.raise_portPart (d : Plane) (x y : Nat) (p : Option Nat) : (d.raise x y p).portPart = d.portPart := rfl
@[simp] theorem Plane.raise_poison (d : Plane) (x y : Nat) (p : Option Nat) : (d.raise x y p).poison = d.poison := rfl
@[simp] theorem Plane.raise_faults (d : Plane) (x y : Nat) (p : Option Nat) : (d.raise x y p).faults = d.faults := rfl
@[simp] theorem Plane.raise_slotless (d : Plane) (x y : Nat) (p : Option Nat) : (d.raise x y p).slotless = d.slotless := rfl
@[simp] theorem Plane.raise_cache (d : Plane) (x y : Nat) (p : Option Nat) : (d.raise x y p).cache = d.cache := rfl
@[simp] theorem Plane.raise_pointers (d : Plane) (x y : Nat) (p : Option Nat) : (d.raise x y p).pointers = d.pointers := rfl
@[simp] theorem Plane.raise_wins (d : Plane) (x y : Nat) (p : Option Nat) : (d.raise x y p).wins = d.wins := rfl
@[simp] theorem Plane.raise_rings (d : Plane) (x y : Nat) (p : Option Nat) : (d.raise x y p).rings = d.rings := rfl
@[simp] theorem Plane.raise_cqs (d : Plane) (x y : Nat) (p : Option Nat) : (d.raise x y p).cqs = d.cqs := rfl
@[simp] theorem Plane.raise_events (d : Plane) (x y : Nat) (p : Option Nat) : (d.raise x y p).events = d.events := rfl
@[simp] theorem Plane.raise_qps (d : Plane) (x y : Nat) (p : Option Nat) : (d.raise x y p).qps = d.qps := rfl
@[simp] theorem Plane.raise_xpt (d : Plane) (x y : Nat) (p : Option Nat) : (d.raise x y p).xpt = d.xpt := rfl
@[simp] theorem Plane.raise_stg (d : Plane) (x y : Nat) (p : Option Nat) : (d.raise x y p).stg = d.stg := rfl
@[simp] theorem Plane.raise_col (d : Plane) (x y : Nat) (p : Option Nat) : (d.raise x y p).col = d.col := rfl
@[simp] theorem Plane.raise_veins (d : Plane) (x y : Nat) (p : Option Nat) : (d.raise x y p).veins = d.veins := rfl
@[simp] theorem Plane.raise_turns (d : Plane) (x y : Nat) (p : Option Nat) : (d.raise x y p).turns = d.turns := rfl
@[simp] theorem Plane.raise_keys (d : Plane) (x y : Nat) (p : Option Nat) : (d.raise x y p).keys = d.keys := rfl
@[simp] theorem Plane.raise_cip (d : Plane) (x y : Nat) (p : Option Nat) : (d.raise x y p).cip = d.cip := rfl
@[simp] theorem Plane.raise_obs (d : Plane) (x y : Nat) (p : Option Nat) : (d.raise x y p).obs = d.obs := rfl
@[simp] theorem Plane.raise_wire (d : Plane) (x y : Nat) (p : Option Nat) : (d.raise x y p).wire = d.wire := rfl
@[simp] theorem Plane.raise_msix (d : Plane) (x y : Nat) (p : Option Nat) : (d.raise x y p).msix = d.msix := rfl
@[simp] theorem Plane.raise_obsOut (d : Plane) (x y : Nat) (p : Option Nat) : (d.raise x y p).obsOut = d.obsOut := rfl
@[simp] theorem Plane.raise_reg (d : Plane) (x y : Nat) (p : Option Nat) (m : Nat) : (d.raise x y p).reg m = d.reg m := rfl
@[simp] theorem Plane.raise_port (d : Plane) (x y : Nat) (p : Option Nat) (m : Nat) : (d.raise x y p).port m = d.port m := rfl
@[simp] theorem Plane.raise_flow (d : Plane) (x y : Nat) (p : Option Nat) (m : Nat) : (d.raise x y p).flow m = d.flow m := rfl
@[simp] theorem Plane.raise_wheel (d : Plane) (x y : Nat) (p : Option Nat) (m : Nat) : (d.raise x y p).wheel m = d.wheel m := rfl
@[simp] theorem Plane.raise_part (d : Plane) (x y : Nat) (p : Option Nat) (m : Nat) : (d.raise x y p).part m = d.part m := rfl
@[simp] theorem Plane.raise_vf (d : Plane) (x y : Nat) (p : Option Nat) (m : Nat) : (d.raise x y p).vf m = d.vf m := rfl
@[simp] theorem Plane.raise_slot (d : Plane) (x y : Nat) (p : Option Nat) (m : Nat) : (d.raise x y p).slot m = d.slot m := rfl
@[simp] theorem Plane.raise_win (d : Plane) (x y : Nat) (p : Option Nat) (m : Nat) : (d.raise x y p).win m = d.win m := rfl
@[simp] theorem Plane.raise_ring (d : Plane) (x y : Nat) (p : Option Nat) (m : Nat) : (d.raise x y p).ring m = d.ring m := rfl
@[simp] theorem Plane.raise_cq (d : Plane) (x y : Nat) (p : Option Nat) (m : Nat) : (d.raise x y p).cq m = d.cq m := rfl
@[simp] theorem Plane.raise_event (d : Plane) (x y : Nat) (p : Option Nat) (m : Nat) : (d.raise x y p).event m = d.event m := rfl
@[simp] theorem Plane.raise_qp (d : Plane) (x y : Nat) (p : Option Nat) (m : Nat) : (d.raise x y p).qp m = d.qp m := rfl
@[simp] theorem Plane.raise_queue (d : Plane) (x y : Nat) (p : Option Nat) (m : Nat) : (d.raise x y p).queue m = d.queue m := rfl
@[simp] theorem Plane.raise_vein (d : Plane) (x y : Nat) (p : Option Nat) (m : Nat) : (d.raise x y p).vein m = d.vein m := rfl
@[simp] theorem Plane.raise_key (d : Plane) (x y : Nat) (p : Option Nat) (m : Nat) : (d.raise x y p).key m = d.key m := rfl
@[simp] theorem Plane.raise_effects (d : Plane) (x y : Nat) (p : Option Nat) :
    (d.raise x y p).effects = d.effects ++ [Effect.fault x y p] := rfl

/-! ### Updates by a function -/

@[simp] theorem Plane.onPort_eq (d : Plane) (n : Nat) (f : Port → Port) : d.onPort n f = d.setPort n (f (d.port n)) := rfl
@[simp] theorem Plane.onRing_eq (d : Plane) (n : Nat) (f : Ring → Ring) : d.onRing n f = d.setRing n (f (d.ring n)) := rfl
@[simp] theorem Plane.onCq_eq (d : Plane) (n : Nat) (f : Cq → Cq) : d.onCq n f = d.setCq n (f (d.cq n)) := rfl
@[simp] theorem Plane.onQp_eq (d : Plane) (n : Nat) (f : Qp → Qp) : d.onQp n f = d.setQp n (f (d.qp n)) := rfl
@[simp] theorem Plane.onVein_eq (d : Plane) (n : Nat) (f : Vein → Vein) : d.onVein n f = d.setVein n (f (d.vein n)) := rfl
@[simp] theorem Plane.stick_eq (d : Plane) (a : Nat) (b : Word) : d.stick a b = d.setReg a (d.reg a ||| b) := rfl
@[simp] theorem Plane.draw_value (d : Plane) : d.draw.1 = Config.freeValue d.seq := rfl
@[simp] theorem Plane.draw_plane (d : Plane) : d.draw.2 = { d with seq := d.seq + 1 } := rfl

end Sys2Proof.Machine
end

