-- ==== Sys2Proof/Laws/Settle.lean ====
section
/-! SUPPORT. The end of every command: with no effect raised the state stands, with one fault raised the collector records
it, and in every case no effect is left. -/
namespace Sys2Proof.Machine

theorem settleFrom_quiet (n : Nat) (s : State) (h : s.pl.effects = []) : settleFrom n s = s := by
  obtain ⟨q, c, d⟩ := s
  cases n with
  | zero =>
    obtain ⟨⟩ := d
    simp_all [settleFrom]
  | succ n => simp_all [settleFrom]

/-- A command that raises no effect ends as it stands. -/
@[simp] theorem settle_quiet (s : State) (h : s.pl.effects = []) : settle s = s := settleFrom_quiet _ s h

theorem settleFrom_effects (n : Nat) (s : State) : (settleFrom n s).pl.effects = [] := by
  induction n generalizing s with
  | zero => rfl
  | succ n ih =>
    unfold settleFrom
    split
    · assumption
    · exact ih _

/-- No effect is left at the end of a command. -/
@[simp] theorem settle_effects (s : State) : (settle s).pl.effects = [] := settleFrom_effects _ s

theorem effectRoom_succ : effectRoom = 65535 + 1 := rfl

/-- The first effect is done, and what it leaves is settled with one effect less of room. -/
theorem settle_first (s : State) (e : Effect) (rest : List Effect) (h : s.pl.effects = e :: rest) :
    settle s = settleFrom 65535 (applyEffect { s with pl := { s.pl with effects := rest } } e) := by
  show settleFrom (65535 + 1) s = _
  rw [settleFrom, h]

/-- A command that raises one effect, which raises no other, ends with that effect done. -/
theorem settle_one (s : State) (e : Effect) (h : s.pl.effects = [e])
    (q : (applyEffect { s with pl := { s.pl with effects := [] } } e).pl.effects = []) :
    settle s = applyEffect { s with pl := { s.pl with effects := [] } } e := by
  rw [settle_first s e [] h, settleFrom_quiet _ _ q]

/-- A command of the data side that raises no effect changes the data side as its meaning says, and nothing else. -/
theorem dataStep_quiet (f : Ctl → Plane → Plane) (s : State) (h : (f s.ctl s.pl).effects = []) :
    dataStep f s = { s with pl := f s.ctl s.pl } := settle_quiet _ h

/-- A command of the control side that raises no effect changes the state as its meaning says. -/
theorem ctlStep_quiet (f : State → State) (s : State) (h : (f s).pl.effects = []) : ctlStep f s = f s := settle_quiet _ h

theorem dataStep_effects (f : Ctl → Plane → Plane) (s : State) : (dataStep f s).pl.effects = [] := settle_effects _

theorem ctlStep_effects (f : State → State) (s : State) : (ctlStep f s).pl.effects = [] := settle_effects _

end Sys2Proof.Machine
end

