-- ==== Sys2Proof/Laws/Control.lean ====
section
/-! SUPPORT. What the shared operations of the control side do: who may write, what the collector records, what the time block's
choice of a parent can change, and the step of the queue. -/
namespace Sys2Proof.Machine

/-! ### The queue -/

/-- A step takes the command at the front of the queue. -/
theorem step_cons (s : State) (c : Instr) (rest : List Instr) (h : s.pending = c :: rest) : step s = exec c { s with pending := rest } := by
  simp [step, h]

/-! ### Ownership (R96, R121) -/

/-- A write that is accepted takes effect. -/
theorem owned_accepted (a : Agent) (addr : Nat) (f : State → State) (s : State) (h : Accepted s a addr) : owned a addr f s = f s := by
  obtain ⟨h1, h2, h3⟩ := h
  simp [owned, h1, h2, h3]

/-- Everything a write can do: take effect when it is accepted, set the reject bit of an agent that does not own the device, or
nothing. -/
theorem owned_cases (a : Agent) (addr : Nat) (f : State → State) (s : State) :
    (Accepted s a addr ∧ owned a addr f s = f s)
    ∨ (s.ctl.arrives a = true ∧ s.ctl.own.owner.toNat ≠ agentId a ∧ owned a addr f s = dropWrite s a)
    ∨ (¬ Accepted s a addr ∧ owned a addr f s = s) := by
  unfold owned
  split
  · rename_i h
    exact .inr (.inr ⟨fun k => by simp_all, rfl⟩)
  · split
    · rename_i h k
      exact .inr (.inl ⟨by simpa using h, k, rfl⟩)
    · split
      · rename_i h k b
        exact .inl ⟨⟨by simpa using h, by simpa using k, b⟩, rfl⟩
      · rename_i h k b
        exact .inr (.inr ⟨fun x => b x.2.2, rfl⟩)

/-- A write that is dropped sets a bit of the reject register and changes nothing else. -/
theorem dropWrite_frame (s : State) (a : Agent) :
    dropWrite s a = { s with ctl := { s.ctl with own := { s.ctl.own with reject := (dropWrite s a).ctl.own.reject } } } := rfl

theorem viaWrite_bar (a : Agent) (addr : Nat) (f : State → State) (s : State) : viaWrite (.bar a) addr f s = owned a addr f s := rfl

theorem viaWrite_vf (v : VfId) (addr : Nat) (f : State → State) (s : State) :
    viaWrite (.vf v) addr f s = if vfWrites s.ctl s.pl v then f s else s := rfl

/-! ### The collector (R519, R520, R522) -/

/-- Recording an event touches the history, SEQ, the first event and the pending bits; nothing else. -/
theorem recordEvent_frame (s : State) (source cause cls : Nat) (x : Domain) (fo es ab : Bool) :
    recordEvent s source cause cls x fo es ab = { s with ctl := { s.ctl with flt := { s.ctl.flt with
      hist := (recordEvent s source cause cls x fo es ab).ctl.flt.hist, seq := s.ctl.flt.seq + 1
      first := (recordEvent s source cause cls x fo es ab).ctl.flt.first
      pend := (recordEvent s source cause cls x fo es ab).ctl.flt.pend } } } := rfl

/-- The history holds at most 32 events. -/
theorem recordEvent_hist (s : State) (source cause cls : Nat) (x : Domain) (fo es ab : Bool) :
    (recordEvent s source cause cls x fo es ab).ctl.flt.hist.length ≤ 32 := by
  simp only [recordEvent, onFlt, List.length_take]
  omega

/-- The first recorded event of class 1 to 3 stays. -/
theorem recordEvent_first (s : State) (source cause cls : Nat) (x : Domain) (fo es ab : Bool) (e : FltEvent) (h : s.ctl.flt.first = some e) :
    (recordEvent s source cause cls x fo es ab).ctl.flt.first = some e := by
  simp only [recordEvent, onFlt, h]
  split <;> rfl

/-- An event of class 0 leaves every pending bit; one of class 1 to 3 sets the bit of its source and leaves the others. -/
theorem recordEvent_pend (s : State) (source cause cls : Nat) (x : Domain) (fo es ab : Bool) (j : Nat) :
    SMap.find 0 (recordEvent s source cause cls x fo es ab).ctl.flt.pend j =
      if cls ≠ 0 ∧ j = source / 32 then SMap.find 0 s.ctl.flt.pend j ||| bitIf true (source % 32) else SMap.find 0 s.ctl.flt.pend j := by
  simp only [recordEvent, onFlt]
  by_cases h : cls = 0
  · simp [h]
  · by_cases hj : j = source / 32 <;> simp [h, hj]

/-! ### The parent (R377, R379) -/

/-- What the time block may change when it looks at its advertisements: LOD's own state, and LOD_STICKY. -/
def TimeOnly (s t : State) : Prop := ∃ l r, t = { s with ctl := { s.ctl with lod := l }, pl := { s.pl with regs := r } }
    ∧ (∀ a, a ≠ Reg.lodSticky → SMap.find (regReset a) r a = s.pl.reg a) ∧ l.tick = s.ctl.lod.tick

theorem TimeOnly.refl (s : State) : TimeOnly s s := ⟨_, _, rfl, fun _ _ => rfl, rfl⟩

theorem TimeOnly.trans {s t u : State} (h : TimeOnly s t) (k : TimeOnly t u) : TimeOnly s u := by
  obtain ⟨l, r, rfl, hr, hl⟩ := h
  obtain ⟨l2, r2, rfl, hr2, hl2⟩ := k
  exact ⟨l2, r2, rfl, fun a ha => (hr2 a ha).trans (hr a ha), hl2.trans hl⟩

theorem onLod_timeOnly (f : Lod → Lod) (s : State) (h : (f s.ctl.lod).tick = s.ctl.lod.tick) : TimeOnly s (onLod f s) :=
  ⟨_, _, rfl, fun _ _ => rfl, h⟩

theorem lodStick_timeOnly (s : State) (b : LodBit) : TimeOnly s { s with pl := s.pl.lodStick b } := by
  refine ⟨_, _, rfl, fun a ha => ?_, rfl⟩
  exact SMap.find_put_other _ _ _ _ _ _ ha

theorem setLode_timeOnly (s : State) (node priority : Nat) (serial : DWord) : TimeOnly s (setLode s node priority serial) := by
  unfold setLode
  dsimp only
  split
  · exact onLod_timeOnly _ s rfl
  · exact (onLod_timeOnly _ s rfl).trans (lodStick_timeOnly _ _)

theorem setParent_timeOnly (s : State) (n : Nat) (a : Advert) (changed : Bool) : TimeOnly s (setParent s n a changed) := by
  unfold setParent
  dsimp only
  refine TimeOnly.trans ?_ (setLode_timeOnly _ _ _ _)
  have h : TimeOnly s (onLod (fun l =>
      let l := { l with parent := some n, distance := min 15 (a.distance + 1) }
      if s.ctl.lod.parent != some n then { l with samples := 0, good := 0, lastAt := s.ctl.ns } else l) s) := by
    refine onLod_timeOnly _ s ?_
    dsimp only
    split <;> rfl
  split
  · exact h.trans (lodStick_timeOnly _ _)
  · exact h

theorem enterTime_timeOnly (s : State) (t : TimeState) : TimeOnly s (enterTime s t) := onLod_timeOnly _ s rfl

theorem toHoldover_timeOnly (s : State) (note : Bool) : TimeOnly s (toHoldover s note) := by
  unfold toHoldover
  dsimp only
  have h : TimeOnly s (enterTime (onLod (fun l => { l with parent := none, distance := 15, freq := holdFreq l, holdAt := s.ctl.ns }) s) .holdover) :=
    (onLod_timeOnly _ s rfl).trans (enterTime_timeOnly _ _)
  split
  · exact h.trans (lodStick_timeOnly _ _)
  · exact h

theorem quietTimes_timeOnly (s : State) : TimeOnly s (quietTimes s) := by
  unfold quietTimes
  exact (onLod_timeOnly _ s rfl).trans (onLod_timeOnly _ _ rfl)

/-- The choice of a parent changes LOD's state and LOD_STICKY only, and never the counter. -/
theorem elect_timeOnly (s : State) : TimeOnly s (elect s) := by
  unfold elect
  split
  · exact TimeOnly.refl s
  · dsimp only
    have q := quietTimes_timeOnly s
    split
    · split
      · exact q.trans (toHoldover_timeOnly _ _)
      · split
        · exact q.trans (onLod_timeOnly _ _ rfl)
        · exact q
    · split
      · exact q.trans (setParent_timeOnly _ _ _ _)
      · exact q.trans (setParent_timeOnly _ _ _ _)
      · exact q.trans ((setParent_timeOnly _ _ _ _).trans (enterTime_timeOnly _ _))
      · exact q.trans ((setParent_timeOnly _ _ _ _).trans (enterTime_timeOnly _ _))
      · exact q

/-- A FREE counter, or a device that does not speak, chooses no parent. -/
theorem elect_silent (s : State) (h : s.ctl.lod.state = .free ∨ s.ctl.maySpeak = false) : elect s = s := by
  unfold elect
  rcases h with h | h <;> simp [h]

theorem elect_effects (s : State) : (elect s).pl.effects = s.pl.effects := by
  obtain ⟨l, r, h, _, _⟩ := elect_timeOnly s
  rw [h]

/-! ### Registers (R12) -/

/-- What a register reads as after one was set. -/
theorem reg_setReg (d : Plane) (a b : Nat) (v : Word) : (d.setReg a v).reg b = if b = a then v else d.reg b := by
  by_cases h : b = a
  · subst h
    simp [Plane.setReg, Plane.reg]
  · simp [Plane.setReg, Plane.reg, h, SMap.find_put_other _ _ _ _ _ _ h]

/-- Everything a register write does: RW takes it through its writable bits, W1C clears the bits written 1, RC and SNAP registers and
addresses without a register take nothing. -/
theorem writeReg_cases (d : Plane) (a : Nat) (v : Word) :
    d.writeReg a v = match regRow a with
      | none => d
      | some r => match r.acc with
        | .rw => d.setReg a (r.written v)
        | .w1c => d.setReg a (d.reg a &&& ~~~v)
        | .rc | .snap => d := rfl

end Sys2Proof.Machine
end

