-- ==== Sys2Proof/Laws/Memory.lean ====
section
/-! SUPPORT. Reads and writes of the local space and of host memory: what each can do, and that the canonical form of both
memories is kept by every one of them. -/
namespace Sys2Proof.Machine

/-- Both memories of the data side are in canonical form. -/
def Plane.memOk (d : Plane) : Bool := Memory.wf d.mem && Memory.wf d.host

/-- Everything a write to host memory can do: the bytes at the bus address, or nothing. -/
theorem writeBus_cases (c : Ctl) (d : Plane) (fn a : Nat) (bs : List Byte) :
    writeBus c d fn a bs = d ∨ writeBus c d fn a bs = { d with host := Mem.writeN d.host a bs } := by
  unfold writeBus
  split
  · exact .inr rfl
  · exact .inl rfl

/-- Everything a write to the local space can do: stacked memory or near store at the address, host memory at the bus
address of the aperture, or nothing. -/
theorem writeLocal_cases (c : Ctl) (d : Plane) (fn a : Nat) (bs : List Byte) :
    writeLocal c d fn a bs = d
    ∨ (∃ p, writeLocal c d fn a bs = { d with mem := Mem.writeN d.mem a bs, poison := p })
    ∨ writeLocal c d fn a bs = { d with host := Mem.writeN d.host (busAddr d a) bs } := by
  unfold writeLocal
  split
  · rcases writeBus_cases c d fn (busAddr d a) bs with h | h
    · exact .inl h
    · exact .inr (.inr h)
  · exact .inr (.inl ⟨_, rfl⟩)
  · split
    · exact .inr (.inl ⟨d.poison, rfl⟩)
    · exact .inl rfl
  · exact .inl rfl
  · exact .inl rfl

/-- A write to host memory keeps the canonical form of both memories. -/
theorem writeBus_memOk (c : Ctl) (d : Plane) (fn a : Nat) (bs : List Byte) (w : d.memOk = true) :
    (writeBus c d fn a bs).memOk = true := by
  simp only [Plane.memOk, Bool.and_eq_true] at w ⊢
  rcases writeBus_cases c d fn a bs with h | h <;> rw [h]
  · exact w
  · exact ⟨w.1, Mem.writeN_wf _ _ _ w.2⟩

/-- A write to the local space keeps the canonical form of both memories. -/
theorem writeLocal_memOk (c : Ctl) (d : Plane) (fn a : Nat) (bs : List Byte) (w : d.memOk = true) :
    (writeLocal c d fn a bs).memOk = true := by
  simp only [Plane.memOk, Bool.and_eq_true] at w ⊢
  rcases writeLocal_cases c d fn a bs with h | ⟨p, h⟩ | h <;> rw [h]
  · exact w
  · exact ⟨Mem.writeN_wf _ _ _ w.1, w.2⟩
  · exact ⟨w.1, Mem.writeN_wf _ _ _ w.2⟩

/-- A write at a base with its LOC bit keeps the canonical form of both memories. -/
theorem writeLoc_memOk (c : Ctl) (d : Plane) (fn : Nat) (loc : Bool) (a : Nat) (bs : List Byte) (w : d.memOk = true) :
    (writeLoc c d fn loc a bs).memOk = true := by
  unfold writeLoc
  split
  · exact writeLocal_memOk c d fn a bs w
  · exact writeBus_memOk c d fn a bs w

/-- Everything a read of the local space can do to the data side: nothing, or count and report an uncorrectable line. -/
theorem readLocal_plane (c : Ctl) (d : Plane) (fn a n : Nat) :
    (readLocal c d fn a n).2 = d ∨ ∃ l, (readLocal c d fn a n).2 = d.memUe (l * 64) := by
  unfold readLocal
  split
  · exact .inl rfl
  · split
    · exact .inr ⟨_, rfl⟩
    · exact .inl rfl
  · split <;> exact .inl rfl
  · exact .inl rfl
  · exact .inl rfl

/-- A read of the local space leaves both memories as they are. -/
theorem readLocal_mem (c : Ctl) (d : Plane) (fn a n : Nat) :
    (readLocal c d fn a n).2.mem = d.mem ∧ (readLocal c d fn a n).2.host = d.host := by
  rcases readLocal_plane c d fn a n with h | ⟨l, h⟩ <;> rw [h]
  · exact ⟨rfl, rfl⟩
  · unfold Plane.memUe Plane.countUp
    split <;> exact ⟨rfl, rfl⟩

/-- What a byte of stacked memory reads as after a write to it. -/
theorem writeLocal_read (c : Ctl) (d : Plane) (fn a x : Nat) (bs : List Byte) (h : regionOf a = .stacked) :
    Mem.read (writeLocal c d fn a bs).mem x = if a ≤ x ∧ x < a + bs.length then bs[x - a]?.getD 0 else Mem.read d.mem x := by
  unfold writeLocal
  rw [h]
  exact Mem.read_writeN bs d.mem a x

end Sys2Proof.Machine
end

