-- ==== Sys2Proof/Laws/Data.lean ====
section
/-! SUPPORT. What the shared operations of the data side can change: each law names the parts of the data side that the operation
may touch; every other part is as it was. -/
namespace Sys2Proof.Machine

/-! ### Memory, interrupts, events and completions -/

/-- A write to the local space touches the two memories and the poison of lines written whole. -/
theorem writeLocal_frame (c : Ctl) (d : Plane) (fn a : Nat) (bs : List Byte) :
    ∃ m h p, writeLocal c d fn a bs = { d with mem := m, host := h, poison := p } := by
  rcases writeLocal_cases c d fn a bs with h | ⟨p, h⟩ | h <;> rw [h] <;> exact ⟨_, _, _, rfl⟩

theorem writeLoc_frame (c : Ctl) (d : Plane) (fn : Nat) (loc : Bool) (a : Nat) (bs : List Byte) :
    ∃ m h p, writeLoc c d fn loc a bs = { d with mem := m, host := h, poison := p } := by
  unfold writeLoc
  split
  · exact writeLocal_frame c d fn a bs
  · rcases writeBus_cases c d fn a bs with h | h <;> rw [h] <;> exact ⟨_, _, _, rfl⟩

/-- An interrupt disarms its ring and may send a message; nothing else. -/
theorem irqOnWrite_frame (c : Ctl) (d : Plane) (x : Nat) (b : Bool) : ∃ q i, irqOnWrite c d x b = { d with cqs := q, msix := i } := by
  unfold irqOnWrite sendIrq
  split
  · dsimp only
    split <;> exact ⟨_, _, rfl⟩
  · exact ⟨_, _, rfl⟩

/-- An interrupt changes ARMED of its own ring only. -/
theorem irqOnWrite_cq (c : Ctl) (d : Plane) (x j : Nat) (b : Bool) :
    (irqOnWrite c d x b).cq j = { d.cq j with armed := ((irqOnWrite c d x b).cq j).armed } := by
  unfold irqOnWrite sendIrq
  split
  · dsimp only
    split <;> by_cases h : j = x <;> simp [Plane.onCq, Plane.setCq, Plane.cq, h]
  · rfl

theorem countUp_frame (d : Plane) (a : Nat) : ∃ r, d.countUp a = { d with regs := r } := by
  unfold Plane.countUp
  split <;> exact ⟨_, rfl⟩

/-- A completion touches memory, the completion rings, the interrupt messages and the counters; nothing else. -/
theorem writeComp_frame (c : Ctl) (d : Plane) (x : Nat) (e : Comp) :
    ∃ m h p q i r, writeComp c d x e = { d with mem := m, host := h, poison := p, cqs := q, msix := i, regs := r } := by
  unfold writeComp
  dsimp only
  obtain ⟨m, h, p, hw⟩ := writeLoc_frame c d (d.holder x) (d.ringLoc (Reg.cmp x 0)) (d.ringBase (Reg.cmp x 0) + ((d.cq x).write.toNat % d.cmpSize x) * 32)
    (e.image (lapOf (d.cq x).write (d.cmpSize x)))
  split
  · exact ⟨_, _, _, _, _, _, rfl⟩
  split
  · exact ⟨_, _, _, _, _, _, rfl⟩
  · split
    · obtain ⟨q, i, hi⟩ := irqOnWrite_frame c ((writeLoc c d (d.holder x) (d.ringLoc (Reg.cmp x 0)) (d.ringBase (Reg.cmp x 0)
        + ((d.cq x).write.toNat % d.cmpSize x) * 32) (e.image (lapOf (d.cq x).write (d.cmpSize x)))).onCq x fun q => { q with
          write := q.write + 1, pending := q.pending - 1
          solicited := if e.solicited then q.solicited ++ [q.write] else q.solicited }) x e.solicited
      rw [hi, hw]
      exact ⟨_, _, _, _, _, _, rfl⟩
    · rename_i hs
      generalize hd : ((writeLoc c d (d.holder x) (d.ringLoc (Reg.cmp x 0)) (d.ringBase (Reg.cmp x 0)
        + ((d.cq x).write.toNat % d.cmpSize x) * 32) (e.image (lapOf (d.cq x).write (d.cmpSize x)))).onCq x fun q => { q with
          write := q.write + 1, pending := q.pending - 1
          solicited := if e.solicited then q.solicited ++ [q.write] else q.solicited }) = d'
      obtain ⟨r, hr⟩ := countUp_frame d' (Reg.pcCqErr (d'.cmpPart x))
      obtain ⟨q, i, hi⟩ := irqOnWrite_frame c (d'.countUp (Reg.pcCqErr (d'.cmpPart x))) x e.solicited
      rw [hi, hr, ← hd, hw]
      exact ⟨_, _, _, _, _, _, rfl⟩

/-- A disabled completion ring takes nothing. -/
theorem writeComp_disabled (c : Ctl) (d : Plane) (x : Nat) (e : Comp) (h : (d.cq x).enabled = false) : writeComp c d x e = d := by
  simp [writeComp, h]

/-- An event touches memory, the completion rings and the interrupt messages; nothing else. -/
theorem putEvent_frame (c : Ctl) (d : Plane) (x : Nat) (bs : List Byte) :
    ∃ m h p q i, putEvent c d x bs = { d with mem := m, host := h, poison := p, cqs := q, msix := i } := by
  unfold putEvent
  dsimp only
  generalize bs.take 3 ++ [BitVec.ofNat 8 (lapOf (d.cq x).write (d.cmpSize x))] ++ bs.drop 4 = b
  obtain ⟨m, h, p, hw⟩ := writeLoc_frame c d (d.holder x) (d.ringLoc (Reg.cmp x 0)) (d.ringBase (Reg.cmp x 0) + ((d.cq x).write.toNat % d.cmpSize x) * 32) b
  obtain ⟨q, i, hi⟩ := irqOnWrite_frame c ((writeLoc c d (d.holder x) (d.ringLoc (Reg.cmp x 0)) (d.ringBase (Reg.cmp x 0)
    + ((d.cq x).write.toNat % d.cmpSize x) * 32) b).onCq x fun q => { q with write := q.write + 1 }) x false
  rw [hi, hw]
  exact ⟨_, _, _, _, _, rfl⟩

theorem pushEvent_frame (c : Ctl) (d : Plane) (p code : Nat) (body : List Byte) :
    ∃ m h o q i v, pushEvent c d p code body = { d with mem := m, host := h, poison := o, cqs := q, msix := i, events := v } := by
  unfold pushEvent
  split
  · exact ⟨_, _, _, _, _, _, rfl⟩
  · rename_i x _
    dsimp only
    split
    · exact ⟨_, _, _, _, _, _, rfl⟩
    split
    · obtain ⟨m, h, o, q, i, hp⟩ := putEvent_frame c (d.setEvent p { d.event p with seq := (d.event p).seq + 1 }) x
        (leBytes 2 code ++ [0, 0] ++ leBytes 4 (d.event p).seq.toNat ++ fitTo 24 body)
      rw [hp]
      exact ⟨_, _, _, _, _, _, rfl⟩
    · split <;> exact ⟨_, _, _, _, _, _, rfl⟩

/-- A partition without an event ring discards its events (R254). -/
theorem pushEvent_none (c : Ctl) (d : Plane) (p code : Nat) (body : List Byte) (h : d.eventRing p = none) : pushEvent c d p code body = d := by
  simp [pushEvent, h]

/-- The SEQ number of a partition with an event ring advances by one with each event, and no other partition's does (R257). -/
theorem pushEvent_seq (c : Ctl) (d : Plane) (p j code : Nat) (body : List Byte) :
    ((pushEvent c d p code body).event j).seq = if j = p ∧ (d.eventRing p).isSome then (d.event j).seq + 1 else (d.event j).seq := by
  unfold pushEvent
  split
  · rename_i h
    simp [h]
  · rename_i x h
    dsimp only
    split
    · by_cases hj : j = p <;> simp [Plane.event, Plane.setEvent, hj, h]
    split
    · obtain ⟨m, g, o, q, i, hp⟩ := putEvent_frame c (d.setEvent p { d.event p with seq := (d.event p).seq + 1 }) x
        (leBytes 2 code ++ [0, 0] ++ leBytes 4 (d.event p).seq.toNat ++ fitTo 24 body)
      rw [hp]
      by_cases hj : j = p <;> simp [Plane.event, Plane.setEvent, hj, h]
    · split <;> by_cases hj : j = p <;> simp [Plane.event, Plane.setEvent, Plane.onCq, Plane.setCq, hj, h]

/-! ### Translation and accesses by virtual address -/

/-- Remembering a leaf touches the caches and draws a free value; nothing else. -/
theorem remember_frame (d : Plane) (u p : Nat) (l : Leaf) (path : List CacheEnt) :
    ∃ k q, d.remember u p l path = { d with cache := k, pointers := q, seq := d.seq + 1 } := ⟨_, _, rfl⟩

/-- A translation touches the caches and draws free values; nothing else. -/
theorem lookup_frame (c : Ctl) (d : Plane) (u p va : Nat) (w : Bool) :
    ∃ k q n, (lookup c d u p va w).2 = { d with cache := k, pointers := q, seq := n } := by
  unfold lookup Plane.draw
  dsimp only
  split
  all_goals split <;> exact ⟨_, _, _, rfl⟩

theorem translate_frame (c : Ctl) (d : Plane) (u p va : Nat) (w : Bool) :
    ∃ k q n, (translate c d u p va w).2 = { d with cache := k, pointers := q, seq := n } := by
  have h := lookup_frame c d u p va w
  unfold translate
  dsimp only
  split
  · exact h
  · split <;> exact h

theorem translateAll_frame (c : Ctl) (u p : Nat) (w : Bool) (l : List (Nat × Nat)) : ∀ d : Plane,
    ∃ k q n, (translateAll c u p w l d).2 = { d with cache := k, pointers := q, seq := n } := by
  induction l with
  | nil => intro d; exact ⟨_, _, _, rfl⟩
  | cons x l ih =>
    intro d
    obtain ⟨va, n⟩ := x
    obtain ⟨k, q, m, h⟩ := translate_frame c d u p va w
    obtain ⟨k2, q2, m2, h2⟩ := ih (translate c d u p va w).2
    have h3 : ∃ k q n, (translateAll c u p w l (translate c d u p va w).2).2 = { d with cache := k, pointers := q, seq := n } :=
      ⟨k2, q2, m2, by rw [h2, h]⟩
    unfold translateAll
    dsimp only
    split
    · exact ⟨_, _, _, h⟩
    · split <;> exact h3

/-- Translating a range touches the caches and draws free values; nothing else. -/
theorem translateRange_frame (c : Ctl) (d : Plane) (u p va n : Nat) (w : Bool) :
    ∃ k q m, (translateRange c d u p va n w).2 = { d with cache := k, pointers := q, seq := m } := by
  unfold translateRange
  split
  · exact ⟨_, _, _, rfl⟩
  · exact translateAll_frame c u p w _ d

theorem readLocal_frame (c : Ctl) (d : Plane) (fn a n : Nat) : ∃ r e, (readLocal c d fn a n).2 = { d with regs := r, effects := e } := by
  rcases readLocal_plane c d fn a n with h | ⟨l, h⟩ <;> rw [h]
  · exact ⟨_, _, rfl⟩
  · obtain ⟨r, hr⟩ := countUp_frame d (Reg.hbmUe (stackOf (l * 64)))
    unfold Plane.memUe
    rw [hr]
    exact ⟨_, _, rfl⟩

theorem readPieces_frame (c : Ctl) (fn : Nat) (l : List (Nat × Nat)) : ∀ d : Plane,
    ∃ r e, (readPieces c fn l d).2 = { d with regs := r, effects := e } := by
  induction l with
  | nil => intro d; exact ⟨_, _, rfl⟩
  | cons x l ih =>
    intro d
    obtain ⟨a, n⟩ := x
    obtain ⟨r, e, h⟩ := readLocal_frame c d fn a n
    obtain ⟨r2, e2, h2⟩ := ih (readLocal c d fn a n).2
    unfold readPieces
    dsimp only
    split
    · exact ⟨_, _, h⟩
    · exact ⟨r2, e2, by rw [h2, h]⟩

/-- Writing pieces touches the two memories and the poison of lines written whole; nothing else. -/
theorem writePieces_frame (c : Ctl) (fn : Nat) (l : List (Nat × Nat)) : ∀ (bs : List Byte) (d : Plane),
    ∃ m h p, writePieces c fn l bs d = { d with mem := m, host := h, poison := p } := by
  induction l with
  | nil => intro bs d; exact ⟨_, _, _, rfl⟩
  | cons x l ih =>
    intro bs d
    obtain ⟨a, n⟩ := x
    obtain ⟨m, h, p, hw⟩ := writeLocal_frame c d fn a (bs.take n)
    obtain ⟨m2, h2, p2, hw2⟩ := ih (bs.drop n) (writeLocal c d fn a (bs.take n))
    exact ⟨m2, h2, p2, by rw [writePieces, hw2, hw]⟩

/-- A read by virtual address touches the caches, the free values, the error counters and the faults raised; nothing else. -/
theorem readVa_frame (c : Ctl) (d : Plane) (u p va n : Nat) :
    ∃ k q m r e, (readVa c d u p va n).2 = { d with cache := k, pointers := q, seq := m, regs := r, effects := e } := by
  obtain ⟨k, q, m, h⟩ := translateRange_frame c d u p va n false
  unfold readVa
  dsimp only
  split
  · exact ⟨k, q, m, _, _, h⟩
  · rename_i ps _
    obtain ⟨r, e, h2⟩ := readPieces_frame c (ownerFn (translateRange c d u p va n false).2 p) ps (translateRange c d u p va n false).2
    split <;> exact ⟨k, q, m, r, e, by rw [h2, h]⟩

/-- A write by virtual address touches the caches, the free values and the two memories; nothing else. -/
theorem writeVa_frame (c : Ctl) (d : Plane) (u p va : Nat) (bs : List Byte) :
    ∃ k q n m h o, (writeVa c d u p va bs).2 = { d with cache := k, pointers := q, seq := n, mem := m, host := h, poison := o } := by
  obtain ⟨k, q, n, h⟩ := translateRange_frame c d u p va bs.length true
  unfold writeVa
  dsimp only
  split
  · exact ⟨k, q, n, _, _, _, h⟩
  · rename_i ps _
    obtain ⟨m, g, o, h2⟩ := writePieces_frame c (ownerFn (translateRange c d u p va bs.length true).2 p) ps bs
      (translateRange c d u p va bs.length true).2
    exact ⟨k, q, n, m, g, o, by rw [h2, h]⟩

/-! ### The canonical form of both memories -/

theorem irqOnWrite_memOk (c : Ctl) (d : Plane) (x : Nat) (b : Bool) : (irqOnWrite c d x b).memOk = d.memOk := by
  obtain ⟨q, i, h⟩ := irqOnWrite_frame c d x b
  rw [h]
  rfl

theorem countUp_memOk (d : Plane) (a : Nat) : (d.countUp a).memOk = d.memOk := by
  obtain ⟨r, h⟩ := countUp_frame d a
  rw [h]
  rfl

/-- Every write by virtual address keeps the canonical form of both memories. -/
theorem writePieces_memOk (c : Ctl) (fn : Nat) (l : List (Nat × Nat)) : ∀ (bs : List Byte) (d : Plane), d.memOk = true → (writePieces c fn l bs d).memOk = true := by
  induction l with
  | nil => intro bs d w; exact w
  | cons x l ih => intro bs d w; exact ih _ _ (writeLocal_memOk c d _ _ _ w)

/-- A completion keeps the canonical form of both memories. -/
theorem writeComp_memOk (c : Ctl) (d : Plane) (x : Nat) (e : Comp) (w : d.memOk = true) : (writeComp c d x e).memOk = true := by
  have hw := writeLoc_memOk c d (d.holder x) (d.ringLoc (Reg.cmp x 0)) (d.ringBase (Reg.cmp x 0) + ((d.cq x).write.toNat % d.cmpSize x) * 32)
    (e.image (lapOf (d.cq x).write (d.cmpSize x))) w
  unfold writeComp
  dsimp only
  split
  · exact w
  split
  · exact w
  · rw [irqOnWrite_memOk]
    split
    · exact hw
    · rw [countUp_memOk]
      exact hw

/-! ### What a walk depends on -/

/-- Two states of the data side that agree on what a walk of the page tables reads. -/
structure Plane.SameTables (d e : Plane) : Prop where
  regs : e.regs = d.regs
  mem : e.mem = d.mem
  host : e.host = d.host
  hostBad : e.hostBad = d.hostBad
  poison : e.poison = d.poison
  qps : e.qps = d.qps
  parts : e.parts = d.parts
  vfs : e.vfs = d.vfs

theorem readLocal_congr (c : Ctl) {d e : Plane} (h : d.SameTables e) (fn a n : Nat) :
    (readLocal c e fn a n).1 = (readLocal c d fn a n).1 := by
  obtain ⟨⟩ := d
  obtain ⟨⟩ := e
  obtain ⟨rfl, rfl, rfl, rfl, rfl, rfl, rfl, rfl⟩ := h
  unfold readLocal
  split
  · rfl
  · dsimp only
    split <;> rfl
  · split <;> rfl
  · rfl
  · rfl

theorem walkFrom_congr (c : Ctl) {d e : Plane} (h : d.SameTables e) (p va : Nat) (l : List Level) : ∀ table,
    walkFrom c e p va l table = walkFrom c d p va l table := by
  have hl : leafCause c e p = leafCause c d p := by
    funext x n
    obtain ⟨⟩ := d
    obtain ⟨⟩ := e
    obtain ⟨rfl, rfl, rfl, rfl, rfl, rfl, rfl, rfl⟩ := h
    rfl
  induction l with
  | nil => intro table; rfl
  | cons v vs ih =>
    intro table
    have ho : ownerFn e p = ownerFn d p := by unfold ownerFn; rw [h.vfs]
    unfold walkFrom
    simp only [ho, readLocal_congr c h, hl, ih]

/-- A walk reads the tables in memory, the root and host registers, and the queue pairs of remote leaves; nothing else. -/
theorem walk_congr (c : Ctl) {d e : Plane} (h : d.SameTables e) (p va : Nat) : walk c e p va = walk c d p va := by
  have hr : ∀ a, e.reg a = d.reg a := fun a => congrArg (fun m => SMap.find (regReset a) m a) h.regs
  unfold walk
  rw [hr, hr]
  have ht : rootTable e p = rootTable d p := by unfold rootTable; rw [hr, hr]
  rw [ht]
  dsimp only
  rw [walkFrom_congr c h]

end Sys2Proof.Machine
end

