-- ==== Sys2Proof/Tests/States.lean ====
section
/-! SUPPORT. Small states of which the witnesses and tests are made: the device in service with an owner, and updates of it. -/
namespace Sys2Proof.Tests
open Sys2Proof Sys2Proof.Machine

/-- Every PLL is locked. -/
def allLocks : Locks := { core := true, xpt := true, hif := true, lod := true, obs := true, stackPlls := 0xFFFFF }

/-- A group of two nodes: this one is node 1, its neighbour node 5; port 0 leads there. -/
def group2 : GroupRec := { groupId := 9, selfNode := 1, priority := 10, extent := [2], members := [⟨1, [0]⟩, ⟨5, [1]⟩] }

/-- The image that runs: the group, partition 3 with one tile group and four units of stacked memory, the route to node 5 and the
communicator 2 of both members. -/
def image : Image :=
  { groupId := 9
    static := { group := group2, parts := [{ part := 3, hbmFirst := 8, hbmUnits := 4, tileGroups := 1 }] }
    job := { routes := [{ dest := 5, ports := [0], adaptive := false, fabric := false }]
             comms := [{ comm := 2, mask := 1, vein := 0xFF, part := 3, origin := [0], extent := [2], stride := [1] }] } }

/-- A group-link port to node 5 that is UP with a peer in SERVICE, and a fabric port that is UP. -/
def gport : Port :=
  { link := .up, mode := 2, peerNode := 5, txPll := true, rxLock := 0x1FF, parityOk := true, peerOk := true, dataOk := true, heard := true
    hbAt := 9999999500, hbInc := 7, hbState := 6, since := 5000000000 }
def fport : Port := { link := .up, mode := 1, txPll := true, rxLock := 0xFF, since := 5000000000 }

/-- The device in SERVICE, owned by the physical function over PCIe, time locked, 10 s after power-on. -/
def svc : State :=
  { ctl := { ns := 10000000000
             dev := { state := .service, inReset := false, pcieUp := true, lit := true, locks := allLocks }
             own := { owner := 1, leaseEnd := 11000000000 }
             image := some image
             lod := { state := .locked, tick := 40000000000, served := true } }
    pl := { ports := [(0, gport), (1, fport)] } }

def withPort (n : Nat) (f : Port → Port) (s : State) : State := { s with pl := s.pl.setPort n (f (s.pl.port n)) }

/-- Hop fields of the next data frame of port 0, with their check byte. -/
def hop0 (hops : BitVec 4) : Hop := let h : Hop := { hopsLeft := hops, flags := 1 }; { h with pchk := hopCheck h }

/-- A packet as it arrives on port 0. -/
def gframe (hops : BitVec 4) (p : Pkt) : RxFrame := { port := 0, frame := { gxtFrame svc.ctl 0 7 0 p.bytes with hop := hop0 hops } }

def atState (x : DevState) (s : State) : State := onDev (fun d => { d with state := x }) s
def withPl (f : Plane → Plane) (s : State) : State := { s with pl := f s.pl }

/-- The next state that a command answers; the state itself where it stops. -/
def after (c : Instr) (s : State) : State := match exec c s with | .next t => t | _ => s

/-- No register from the completion rings on has bit 0 set after reset. -/
theorem regReset_bit0 (a : Nat) (h : 0x2080000 ≤ a) : flag (regReset a) 0 = false := by
  have low : ∀ r ∈ regRows, flag r.reset 0 = true → r.base + r.n * r.stride + r.m * r.step ≤ 0x2080000 := by decide +kernel
  have pos : ∀ r ∈ regRows, 0 < r.step := by decide +kernel
  unfold regReset
  cases e : regRow a with
  | none => rfl
  | some r =>
    have m : r ∈ regRows := List.mem_of_find?_eq_some e
    have c : r.covers a = true := List.find?_some (p := fun r : RegRow => r.covers a) e
    by_cases b : flag r.reset 0 = true
    · exfalso
      have l := low r m b
      simp only [RegRow.covers, Bool.and_eq_true, decide_eq_true_eq] at c
      obtain ⟨c1, ⟨c2, c3⟩, c4⟩ := c
      have c5 := (Nat.div_lt_iff_lt_mul (pos r m)).1 c4
      by_cases one : r.n = 1
      · rw [if_pos one] at c5
        omega
      · rw [if_neg one] at c2 c5
        have := Nat.mul_le_mul_right r.stride (Nat.le_of_lt c2)
        omega
    · simpa using b

theorem hostRings_of (s : State) (h : ∀ x ∈ s.pl.regs, x.1 < 0x2080000 ∨ flag x.2 0 = false) : HostRings s := by
  intro x
  unfold Plane.ringLoc Plane.reg
  have k : 0x2080000 ≤ Reg.cmp x 0 := by unfold Reg.cmp; omega
  generalize Reg.cmp x 0 = a at k
  have := regReset_bit0 a k
  generalize s.pl.regs = m at h
  induction m with
  | nil => simpa [SMap.find] using this
  | cons y m ih =>
    obtain ⟨b, v⟩ := y
    simp only [SMap.find]
    by_cases e : a = b
    · rw [if_pos e]
      rcases h (b, v) List.mem_cons_self with hb | hb
      · have hb : b < 0x2080000 := hb
        omega
      · exact hb
    · rw [if_neg e]
      exact ih fun z hz => h z (List.mem_cons_of_mem _ hz)
end Sys2Proof.Tests
end

