-- ==== Sys2Proof/WellFormed.lean ====
section
/-! DEFINITION. Well-formed commands: the operands that a real access, frame, message or measurement can carry. A meaning is
given to every command; the ill-formed ones stand for nothing that reaches the device. -/
namespace Sys2Proof

/-- A measurement fits the fields of PWR_TEMP, PWR_VIN, PWR_IIN and PWR_INPUT_W (R141). -/
def Readings.wf (r : Readings) : Bool :=
  decide (r.tile < 256) && decide (r.stack < 256) && decide (r.laser < 256) && decide (r.coolant < 256) && decide (r.vin < 2 ^ 32)
    && decide (r.iin < 2 ^ 32) && decide (r.watts < 2 ^ 32)

/-- A frame has at most two tags, the most that a MAC looks at (R149), and no more bytes than a 16-bit length counts. -/
def RxFrame.wf (f : RxFrame) : Bool := decide (f.frame.tags.length ≤ 2) && decide (f.frame.body.length < 2 ^ 16)

/-- A measured counter set: its number, its reason byte, a 32-bit count and eight stall buckets (R547 to R549). -/
def SetCount.wf (x : SetCount) : Bool :=
  decide (x.set ≤ 352) && decide (x.reason < 256) && decide (x.busy < 2 ^ 32) && decide (x.stall.length ≤ 8)
    && x.stall.all fun n => decide (n < 2 ^ 32)

/-- An address lies in the BAR0 of the function: 64 MiB of the physical one (R42), 1 MiB of a virtual one (R508). -/
def inBar : Via → Nat → Bool
  | .bar _, a => decide (a < 2 ^ 26)
  | .vf _, a => decide (a < 2 ^ 20)

/-- The size of an access in bytes (R8, R9). -/
def readSize (n : Nat) : Bool := [1, 2, 4, 8].contains n

/-- The registers of a port's block that are held until the next switch (R178). -/
def heldWord (o : Nat) : Bool :=
  [0xC, 0x10, 0x1C, 0x20, 0x24].contains o || (decide (0x100 ≤ o) && decide (o < 0x300) && o % 4 == 0)

/-- The source numbers that are assigned (R513). -/
def assigned (n : Nat) : Bool :=
  [(0, 272), (0x140, 0x154), (0x180, 0x1B0), (0x1C0, 0x1CC), (0x1D0, 0x1D6), (0x200, 0x26C), (0x280, 0x285), (0x290, 0x295)].any fun r =>
    decide (r.1 ≤ n) && decide (n < r.2)

/-- The causes that exist (R514). -/
def causeOk (n : Nat) : Bool := decide (1 ≤ n) && decide (n ≤ 16)

/-- A command is well-formed. -/
def Instr.wf : Instr → Bool
  | .deviceResetComplete r => r.wf
  | .dutyStep r => r.wf
  | .thermalTrip _ celsius => decide (celsius < 256)
  | .i3cTransfer sent readLen => decide (sent.data.length ≤ 255) && decide (readLen ≤ 255)
  | .registerWrite a addr size _ => inBar a addr && [1, 2, 4, 8].contains size
  | .loSnapshotRead a addr => inBar a.path addr && addr % 4 == 0 && readSize a.size
  | .hiRead a addr => inBar a.path addr && addr % 4 == 0 && readSize a.size
  | .xptQpcDropRead a _ => readSize a.size
  | .lodLateCountRead a => readSize a.size
  | .lodMissCountRead a => readSize a.size
  | .venErrcntRead a _ => readSize a.size
  | .hbmUeRead a _ => readSize a.size
  | .obsTraceLostRead a => readSize a.size
  | .pcCqErrRead a _ => readSize a.size
  | .loWriteHold a addr _ => inBar a addr && addr % 4 == 0
  | .hiWriteApply a addr _ => inBar a addr && addr % 4 == 0
  | .bar4Access offset _ data => decide (0 < data.length) && decide (offset + data.length ≤ 2 ^ 40)
  | .mqReadyRx f => f.wf
  | .mqAbortRx f => f.wf
  | .heartbeatRx f => f.wf
  | .prtHeldWrite _ _ offset _ => heldWord offset
  | .rxFrameDiscard f => f.wf
  | .hostSteeredFrame f => f.wf
  | .frameForward f => f.wf
  | .workDoorbell _ _ size _ => [1, 2, 4, 8].contains size
  | .cqDoorbell _ _ size _ => [1, 2, 4, 8].contains size
  | .writeRx f => f.wf
  | .writeNotifyRx f => f.wf
  | .readReqRx f => f.wf
  | .readRespRx f => f.wf
  | .sendRx f => f.wf
  | .atomicReqRx f => f.wf
  | .atomicRespRx f => f.wf
  | .ackRx f => f.wf
  | .nakGapRx f => f.wf
  | .busyRx f => f.wf
  | .accessRx f => f.wf
  | .fencedAckRx f => f.wf
  | .noQpRx f => f.wf
  | .connectReqRx f => f.wf
  | .connectAcceptRx f => f.wf
  | .connectRejectRx f => f.wf
  | .disconnectRx f => f.wf
  | .mgmtReqRx f => f.wf
  | .mgmtRespRx f => f.wf
  | .fenceRx f => f.wf
  | .timeReqRx f => f.wf
  | .timeRespRx f => f.wf
  | .syncRx f => f.wf
  | .followUpRx f => f.wf
  | .delayRespRx f => f.wf
  | .ptpDiscard f => f.wf
  | .mqLateRx f => f.wf
  | .addendChunkRx f => f.wf
  | .resultChunkRx f => f.wf
  | .dataChunkRx f => f.wf
  | .collAckRx f => f.wf
  | .collNotStartedRx f => f.wf
  | .collNoCreditRx f => f.wf
  | .collResendRx f => f.wf
  | .chunkResendTimeout comm _ _ dest => decide (comm < 1024) && decide (dest < 2 ^ 20)
  | .collComputeFault comm _ _ => decide (comm < 1024)
  | .mqCloseRx f => f.wf
  | .mqDataRx f => f.wf
  | .mqResendTimeout comm _ => decide (comm < 1024)
  | .cipherRequestDone core _ => decide (core < 108)
  | .faultReport source cause _ => assigned source.toNat && causeOk cause.toNat
  | .wireFault source => assigned source.toNat
  | .hbmCeCheck _ _ errors => decide (errors < 2 ^ 32)
  | .pcCopyDone _ bad => bad.all fun l => decide (l < 900 * 2 ^ 24)
  | .sampleInterval _ counts => counts.all SetCount.wf
  | .pwrEventCondition r => r.wf
  | .vinOutOfRange | .vinInRange _ | .pwrEnRise | .mainRailsGood | .pwrEnFall | .resetNLow | .pllLocked _
  | .pllLockLoss _ | .refclkLoss | .pcieRefclkLoss | .bootEntry | .pcieLinkUp | .pcieLinkDown | .functionResetPf
  | .functionResetVf _ | .functionResetDrained _ | .laserBankBiased | .trainingComplete | .timeAcquisitionTimeout
  | .alertToggle | .apply _ | .writeSlot _ _ | .setActive _ _ | .stage _ | .arm _ | .disarm _ | .loadWeights _
  | .discard _ | .firstPassDone _ | .secondPassDone _ | .slotCommit | .weightLoadDone | .quiescePoint | .readyCutoff
  | .abortCutoff | .switchTick | .ownClaim _ _ | .renew _ | .release _ | .leaseExpiry | .handoverName _ _
  | .handoverAccept _ _ | .handoverTimeout | .inbandPeerWrite _ _ | .deviceReset _ | .rejoin _ | .trustWrite _ _
  | .trustClear _ _ | .passwordSet _ | .passwordClear _ | .obsChallenge _ | .obsRespond _ | .obsPassword _
  | .obsClose _ | .ownCmdFlashDone _ | .authLockoutExpiry | .nonceExpiry | .obsSessionExpiry | .heartbeatTx _
  | .peerOkTimeout _ | .peerDeadDeclare _ | .linkAligned _ | .portTrainTimeout _ | .linkSignalLoss _ _ _
  | .linkSignalRestored _ | .pauseTimeout _ | .retrain _ _ | .laneFault _ _ _ | .nakRepeat _ | .ackHeartbeat _
  | .hopReplayTimeout _ | .portFrameStart _ | .translationWalkDone _ _ | .faultEventTimer _ | .faultRetry _ _
  | .faultFail _ _ | .faultSlotTimeout _ | .faultTimeoutWrite _ _ | .workEntryFetch _ _ | .descriptorFetch _ _
  | .nop _ | .write _ _ | .writeNotify _ _ | .read _ _ | .send _ _ | .atomicAdd _ _ | .atomicCas _ _ | .windowOpen _ _
  | .windowRevoke _ _ | .windowClosed _ | .invalidateRange _ _ | .invalidatePartition _ _ | .invalidateDrained _ _
  | .prefetch _ _ | .evict _ _ | .warm _ _ | .pageMoveDone _ _ | .allReduce _ _ | .reduceScatter _ _ | .allGather _ _
  | .broadcast _ _ | .allToAll _ _ | .dispatch _ _ | .combine _ _ | .barrier _ _ | .veinRun _ _ | .fence _ _
  | .wrgEnable _ _ | .wrgShutdown _ _ | .cmpEnable _ _ | .cmpDisable _ _ | .mgmtReqExecute | .packetPlaced _ _
  | .ackDelayExpiry _ | .reorderTimeout _ | .rtoExpiry _ | .busyResend _ _ | .busyLimitExpiry _ _ | .hostAtomicCompletion _ _ _ _
  | .connRetryTimeout _ | .create _ _ | .modify _ _ | .query _ _ | .connect _ _ | .qpReset _ _ | .destroy _ _
  | .qpEvict _ _ | .qpFetch _ _ | .qpcFetchDone _ _ | .qpcWritebackDone _ | .qpcRegionWrite _ _ _ _ | .xptFenceRead _ _
  | .wheelSlotTick _ | .ecnQuietPeriod _ | .paceEpoch _ | .schQpRead _ _ | .quantumWrite _ _ _ _
  | .shaperWrite _ _ _ _ _ | .timeReqTx _ | .advertExpiry _ | .parentTimeout | .candidateTimeout | .lodestoneClaim
  | .holdoverLimit | .ptpLost | .timedLaunchPoint _ _ | .timedStart _ _ | .deadlineExpiry _ _
  | .collectiveStart _ | .veinUnitReady _ _ | .unseal _ _ | .seal _ _ | .dequantize _ _
  | .quantize _ _ | .convert _ _ | .reduce _ _ | .matmul _ _ | .attention _ _ | .scatter _ _ | .gather _ _
  | .pack _ _ | .unpack _ _ | .steeredPacketResume _ _ | .load _ _ | .keyRecordReadDone _
  | .clear _ _ _ | .activate _ _ _ | .cipSlotRead _ _ | .parEnable _ _ | .resize _ _ | .partitionReset _ _
  | .parDisable _ _ | .bind _ _ _ | .unbind _ _ _ | .partitionResetDone _ | .recoveryDone _ _ | .pendingClear _ _ _
  | .forceFault _ _ _ | .forceWire _ _ _ | .fltClearFirst _ _ | .fltHistRead _ _ | .laserBiasCheck _ _ _
  | .tileSlowdownCheck _ _ | .laserSwap _ | .traceSync | .obsFrameTx
  | .coalescingIntervalEnd _ | .winRead _ _ | .parityRebuildTimeout _ | .laneLockRestored _ _
  | .setActiveFlashDone | .inbandPeerFlashStored => true

end Sys2Proof
end

