-- ==== Sys2Proof/Tests/Slice0.lean ====
section
/-! SUPPORT. The smoke tests of well-formedness, and for every statement of the device, register, ownership and loader parts
concrete states and operands that meet its hypotheses, clause by clause. -/
namespace Sys2Proof.Tests
open Sys2Proof Sys2Proof.Machine
set_option Elab.async false

/-! ### Power, reset, boot -/

theorem witness_IdleStepPassesOneCycle : svc.pending = [] ∧ svc.ctl.dev.rails = true ∧ svc.ctl.dev.inReset = false
    ∧ svc.ctl.dev.locks.lod = true ∧ svc.ctl.lod.freq = 0 ∧ svc.ctl.lod.part = 0 ∧ svc.ctl.dev.locks.xpt = true
    ∧ State.reset.pending = [] ∧ State.reset.ctl.dev.inReset = true := by decide

def off : State := { ctl := { dev := { state := .off, inReset := false, rails := false, pins := { vinOk := false } } } }
def standby : State := onDev (fun x => { x with state := .standby, rails := true, locks := allLocks, pins := { x.pins with vinOk := true } }) off
def hot : Readings := { tile := 95, stack := 40, laser := 40, coolant := 30, vin := 24000 }

theorem witness_InputPowerSequence : Quiet svc ∧ Quiet off ∧ off.ctl.dev.state = .off ∧ svc.ctl.dev.pins.vinOk = true
    ∧ svc.ctl.dev.pins.pwrEn = true ∧ svc.ctl.dev.pwrEnFellAt + 20000000 ≤ svc.ctl.ns
    ∧ (svc.ctl.dev.tripped = true → Cool svc.ctl.dev.sensors)
    ∧ (let s := onDev (fun x => { x with pwrEnFellAt := 9980000001 }) svc
       Quiet s ∧ s.ctl.dev.pwrEnFellAt ≠ 0 ∧ s.ctl.ns < s.ctl.dev.pwrEnFellAt + 20000000)
    ∧ (let s := onDev (fun x => { x with pwrEnFellAt := 9980000000, tripped := true }) svc
       s.ctl.dev.pwrEnFellAt + 20000000 ≤ s.ctl.ns ∧ (s.ctl.dev.tripped = true → Cool s.ctl.dev.sensors))
    ∧ (let s := onDev (fun x => { x with tripped := true, sensors := hot }) svc
       s.ctl.dev.tripped = true ∧ ¬ Cool s.ctl.dev.sensors) := by decide

theorem witness_PowerEnableAndResetPinReset : Quiet svc ∧ svc.ctl.dev.state.booted = true ∧ Quiet off ∧ off.ctl.dev.state.booted = false
    ∧ Running svc ∧ Quiet State.reset ∧ State.reset.ctl.dev.inReset = true := by decide

theorem witness_BootAdvancesTheIncarnation : (let s := standby
    Quiet s ∧ s.ctl.dev.pins.vinOk = true ∧ s.ctl.dev.pins.pwrEn = true ∧ s.ctl.dev.rails = true ∧ s.ctl.dev.pins.refclk = true ∧ s.ctl.dev.locks.core = true
      ∧ s.ctl.dev.locks.xpt = true ∧ s.ctl.dev.locks.lod = true ∧ s.ctl.dev.locks.stackPlls = 0xFFFFF ∧ s.ctl.dev.state = .standby)
    ∧ (let s := onFlash (fun f => { f with incarnation := 0xFFFF }) (onDev (fun x => { x with locks := allLocks, tripped := true }) State.reset)
    Quiet s ∧ s.ctl.dev.pins.vinOk = true ∧ s.ctl.dev.pins.pwrEn = true ∧ s.ctl.dev.rails = true ∧ s.ctl.dev.pins.refclk = true ∧ s.ctl.dev.locks.core = true
      ∧ s.ctl.dev.locks.xpt = true ∧ s.ctl.dev.locks.lod = true ∧ s.ctl.dev.locks.stackPlls = 0xFFFFF ∧ s.ctl.flash.incarnation = 0xFFFF
      ∧ s.ctl.dev.state = .boot ∧ s.ctl.dev.inReset = true ∧ (s.ctl.dev.tripped = true → Cool { hot with tile := 94 })
      ∧ atTrip { hot with tile := 94 } = false ∧ s.ctl.dev.tripped = true ∧ ¬ Cool hot ∧ atTrip hot = false) := by decide

def training : State := onDev (fun x => { x with state := .training, enteredAt := 5000000000 }) svc

theorem witness_ConfiguredTrainsAndServes : (let s := atState .configured svc; Quiet s ∧ s.ctl.dev.state = .configured)
    ∧ svc.ctl.dev.state ≠ .configured ∧ svc.ctl.dev.state ≠ .training
    ∧ Quiet training ∧ training.ctl.dev.state = .training ∧ training.ctl.lod.state = .locked
    ∧ (∀ n, n < 48 → (training.pl.port n).mode = 1 ∨ (training.pl.port n).mode = 2 →
        (training.pl.port n).link = .up ∨ (training.pl.port n).link = .paused ∨ (training.pl.port n).failed = true)
    ∧ (let s := onLod (fun l => { l with state := .acquiring }) training
       Quiet s ∧ s.ctl.dev.state = .training ∧ s.ctl.dev.timeFault = false ∧ s.ctl.dev.enteredAt + 5000000000 ≤ s.ctl.ns
         ∧ s.ctl.lod.state ≠ .locked ∧ s.ctl.lod.state ≠ .lodestone ∧ s.ctl.policyOf 0x281 = none) := by decide

theorem witness_ClocksLockAndFail : Quiet svc ∧ svc.ctl.dev.rails = true ∧ (Pll.xpt = .obs → svc.ctl.own.session.isOpen = true)
    ∧ Running svc ∧ getLock svc.ctl.dev.locks .core = true ∧ getLock svc.ctl.dev.locks .xpt = true ∧ getLock svc.ctl.dev.locks .lod = true
    ∧ (onDev (fun x => { x with locks := {} }) svc).ctl.dev.locks.obs = false ∧ NoRecovery svc ∧ svc.ctl.policyOf 0x294 = none
    ∧ svc.ctl.dev.locks.obs = true ∧ svc.ctl.policyOf 0x292 = none ∧ svc.ctl.dev.locks.hif = true
    ∧ (let s := onOwn (fun o => { o with session := { o.session with isOpen := true } }) svc
       Quiet s ∧ s.ctl.dev.rails = true ∧ s.ctl.own.session.isOpen = true)
    ∧ Quiet standby ∧ standby.ctl.dev.state = .standby ∧ standby.ctl.dev.locks.core = true := by decide

theorem witness_DutyStepFollowsTheLimits : Quiet svc ∧ svc.ctl.dev.state.booted = true ∧ svc.ctl.dev.rails = true ∧ hot.tile ≥ 95 ∧ atTrip hot = false
    ∧ svc.ctl.dev.dutyAt + 1000000 ≤ svc.ctl.ns ∧ (let s := onDev (fun x => { x with dutyAt := 9999500000 }) svc
       Quiet s ∧ s.ctl.ns < s.ctl.dev.dutyAt + 1000000)
    ∧ (let r : Readings := { tile := 92, stack := 87, laser := 67, coolant := 42 }
       r.tile + 3 ≤ 95 ∧ r.stack + 3 ≤ 90 ∧ r.laser + 3 ≤ 70 ∧ r.coolant + 3 ≤ 45)
    ∧ (let r : Readings := { tile := 93 }
       Cool r ∧ ¬ (r.tile + 3 ≤ 95 ∧ r.stack + 3 ≤ 90 ∧ r.laser + 3 ≤ 70 ∧ r.coolant + 3 ≤ 45)) := by decide

theorem witness_TripsConditionsAndAlert : Quiet svc ∧ Running svc ∧ svc.ctl.dev.tripped = false ∧ tripLimit .tile ≤ tripLimit .tile
    ∧ atTrip svc.ctl.dev.sensors = false ∧ atTrip { hot with tile := 255 } = true ∧ svc.ctl.dev.rails = true
    ∧ svc.ctl.dev.dutyAt + 1000000 ≤ svc.ctl.ns
    ∧ tripLimit .laser - 1 < tripLimit .laser ∧ svc.ctl.dev.state = .service
    ∧ (let s := onDev (fun x => { x with state := .boot, alertAt := 9999500000 }) svc
       Quiet s ∧ s.ctl.dev.state ≠ .off ∧ s.ctl.dev.state ≠ .service ∧ s.ctl.dev.state ≠ .degraded ∧ s.ctl.flt.uncleared = false
         ∧ s.ctl.dev.alertAt + 500000 ≤ s.ctl.ns) := by decide

theorem witness_LinkAndFunctionResets : Quiet svc ∧ Running svc ∧ svc.ctl.dev.rails = true ∧ svc.ctl.dev.pins.pcieRefclk = true
    ∧ svc.ctl.dev.locks.hif = true ∧ NoRecovery svc ∧ svc.ctl.dev.state.booted = true ∧ svc.ctl.job.veins = [] ∧ svc.pl.col.colls = []
    ∧ (let s := onDev (fun x => { x with funcReset := [.pf, .vf 3] }) svc
       Quiet s ∧ .pf ∈ s.ctl.dev.funcReset ∧ funcBlocked s.pl .pf = false ∧ (∀ r ∈ s.pl.rings, r.2.fetched = [])
         ∧ s.pl.xpt.destroying = []) := by decide

theorem witness_LinkAndFunctionResets_queuePairs (n : Nat) :
    (svc.pl.qp n).msgs = [] ∧ (svc.pl.qp n).places = [] ∧ (svc.pl.qp n).resps = [] ∧ (svc.pl.qp n).rxMsgs = [] :=
  ⟨rfl, rfl, rfl, rfl⟩

/-! ### Registers -/

theorem witness_SixtyFourBitReadsUseASnapshot : Quiet svc ∧ svc.ctl.arrives .pcie = true ∧ Reg.latSrcLo % 4 = 0 ∧ Reg.latSrcLo + 4 < 0x4000000
    ∧ (standbyBlock Reg.latSrcLo = true ∨ svc.ctl.dev.state.booted = true ∧ svc.ctl.dev.rails = true)
    ∧ (standbyBlock (Reg.latSrcLo + 4) = true ∨ svc.ctl.dev.state.booted = true ∧ svc.ctl.dev.rails = true)
    ∧ quantityOf Reg.latSrcLo = some Reg.latSrcLo ∧ quantityOf (Reg.latSrcLo + 4) = some Reg.latSrcLo ∧ (8 : Nat) ≠ 4 := by decide

theorem witness_SixtyFourBitWritesAreHeld : (let lo := Reg.root 31
    Quiet svc ∧ Accepted svc .pcie lo ∧ Accepted svc .pcie (lo + 4) ∧ lo % 4 = 0 ∧ (lo + 4 < 0x500000 ∨ 0x600000 ≤ lo ∧ lo + 4 < 0x1000000)
      ∧ ¬ (0x400100 ≤ lo ∧ lo < 0x400180) ∧ lo ≠ Reg.faultTimeout ∧ lo + 4 ≠ Reg.faultTimeout ∧ quantityOf lo = some lo
      ∧ quantityOf (lo + 4) = some lo ∧ ((regRow lo).map (·.acc)) = some .rw ∧ ((regRow (lo + 4)).map (·.acc)) = some .rw) := by decide

theorem witness_RegisterWritesFollowTheAccessCode : (let a := Reg.relTiming
    Quiet svc ∧ Accepted svc .pcie a ∧ a % 4 = 0 ∧ ((0xC0000 ≤ a ∧ a < 0x500000) ∨ (0x600000 ≤ a ∧ a < 0x1000000))
      ∧ ¬ (0x400100 ≤ a ∧ a < 0x400180) ∧ a ≠ Reg.faultTimeout ∧ quantityOf a = none ∧ (regRow a).isSome = true)
    ∧ (regRow Reg.rxSticky).map (·.acc) = some .w1c ∧ Accepted svc .pcie 0x30014 ∧ (3 : Nat) % 4 ≠ 0
    ∧ svc.ctl.arrives .i3c = true ∧ svc.ctl.own.owner.toNat ≠ agentId .i3c := by decide

def i3cOwner : State := onOwn (fun o => { o with owner := 2 }) svc

theorem witness_I3cTransfersByLength : (let sent : List Byte := [0x1C, 0x00, 0x40, 0x00, 0x05, 0x00, 0x00, 0x00]
    sent.length = 8 ∧ leNat (sent.take 4) = Reg.connRetry ∧ Quiet i3cOwner ∧ Accepted i3cOwner .i3c Reg.connRetry ∧ Reg.connRetry % 4 = 0
      ∧ 0xC0000 ≤ Reg.connRetry ∧ Reg.connRetry < 0x500000 ∧ ¬ (0x400100 ≤ Reg.connRetry ∧ Reg.connRetry < 0x400180)
      ∧ Reg.connRetry ≠ Reg.faultTimeout ∧ quantityOf Reg.connRetry = none ∧ (regRow Reg.connRetry).map (·.acc) = some .rw)
    ∧ (let sent : List Byte := [0x00, 0x00, 0x01, 0x00]
       sent.length = 4 ∧ leNat sent = 0x10000 ∧ svc.ctl.dev.state ≠ .off ∧ standbyBlock 0x10000 = true ∧ quantityOf 0x10000 = none
         ∧ ¬ (0xC1000 ≤ 0x10000 ∧ 0x10000 < 0xC2000) ∧ regRow 0x10000 = none)
    ∧ (let sent : List Byte := [1, 2, 3, 4, 5]; ¬ (sent.length = 8 ∧ 0 = 0) ∧ ¬ (sent.length = 4 ∧ 0 = 4))
    ∧ svc.ctl.dev.i3cAddr = none ∧ (let s := onDev (fun x => { x with i3cAddr := some 9 }) svc
       Quiet s ∧ s.ctl.dev.i3cAddr ≠ none ∧ (8 : BitVec 7) ≠ s.ctl.dev.i3cAddr.getD s.ctl.dev.i3cStatic)
    ∧ svc.ctl.dev.i3cStatic + 1 ≠ svc.ctl.dev.i3cStatic := by decide

def wideBar : State := onDev (fun x => { x with bar4 := 2 ^ 40 }) svc

theorem witness_Bar4ReachesStackedMemory : Quiet wideBar ∧ wideBar.ctl.dev.pcieUp = true ∧ Running wideBar ∧ ([1, 2] : List Byte) ≠ []
    ∧ (let x := 900 * 2 ^ 30 - 2
       let a := bits (wideBar.pl.reg 0x200004) 9 0 * 2 ^ 30 + x
       x + ([1, 2] : List Byte).length ≤ wideBar.ctl.dev.bar4 ∧ a + ([1, 2] : List Byte).length ≤ 900 * 2 ^ 30
         ∧ x + 1 + ([1, 2] : List Byte).length ≤ wideBar.ctl.dev.bar4 ∧ 900 * 2 ^ 30 < a + 1 + ([1, 2] : List Byte).length
         ∧ ∀ l ∈ wideBar.pl.poison, l * 64 + 64 ≤ a ∨ a + 2 ≤ l * 64) := by decide

theorem witness_CountersClearWhenRead : Quiet svc ∧ svc.ctl.arrives .pcie = true ∧ svc.ctl.dev.state.booted = true ∧ svc.ctl.dev.rails = true
    ∧ (8 : Nat) ≠ 4 ∧ Instr.lodLateCountRead ⟨.pcie, 8⟩ ∈ [Instr.xptQpcDropRead ⟨.pcie, 8⟩ 0, .lodLateCountRead ⟨.pcie, 8⟩] := by decide

theorem witness_SnapshotRegistersFill : Quiet svc ∧ svc.ctl.arrives .pcie = true ∧ svc.ctl.own.owner.toNat = agentId .pcie ∧ Running svc := by
  decide

theorem witness_RegistersWithRules : Quiet svc ∧ svc.ctl.arrives .pcie = true ∧ svc.ctl.own.owner.toNat = agentId .pcie ∧ Running svc
    ∧ (0x24 : Nat) ∈ [0xC, 0x10, 0x1C, 0x20, 0x24] ∧ (regRow (0x1000000 + 47 * 0x10000 + 0x24)).isSome = true
    ∧ (svc.pl.qps.any fun x => x.1 / 65536 == 15 && x.2.state != .free) = false ∧ (svc.pl.slot 511).isOpen = false := by decide

theorem witness_RegistersWithRules_slots (k : Nat) (_ : k < 512) : (svc.pl.slot k).isOpen = false := rfl

/-! ### Ownership -/

def unowned : State := onOwn (fun o => { o with owner := 0 }) svc
def handing : State := onOwn (fun o => { o with successor := 3, handover := true, handoverEnd := 10000000000 }) svc

theorem witness_OwnershipIsClaimedAndLeased : Quiet unowned ∧ unowned.ctl.arrives .mgmt = true ∧ unowned.ctl.own.owner = 0 ∧ bits 3 1 0 = agentId .mgmt
    ∧ bits 2 1 0 ≠ agentId .mgmt ∧ svc.ctl.own.owner ≠ 0 ∧ Accepted svc .pcie 0x10004
    ∧ (let s := onOwn (fun o => { o with leaseEnd := 10000000000 }) svc; s.ctl.own.owner ≠ 0 ∧ s.ctl.own.leaseEnd ≤ s.ctl.ns)
    ∧ svc.ctl.ns < svc.ctl.own.leaseEnd
    ∧ (let s := onOwn (fun o => { o with owner := 3, claimedAt := some 10000000000 }) svc
       Quiet s ∧ s.ctl.arrives .pcie = true ∧ s.ctl.own.owner.toNat = agentId .mgmt ∧ s.ctl.own.claimedAt = some s.ctl.ns
         ∧ agentId .pcie < agentId .mgmt ∧ bits 1 1 0 = agentId .pcie)
    ∧ svc.ctl.own.owner ≠ 0 ∧ (svc.ctl.own.claimedAt = some svc.ctl.ns → svc.ctl.own.owner.toNat ≤ agentId .pcie) := by decide

theorem witness_HandoverRuns : Quiet svc ∧ Accepted svc .pcie 0x10008 ∧ Quiet handing ∧ handing.ctl.arrives .mgmt = true ∧ handing.ctl.own.handover = true
    ∧ handing.ctl.own.successor = 3 ∧ (3 : BitVec 2).toNat = agentId .mgmt
    ∧ svc.ctl.own.owner.toNat ≠ agentId .i3c ∧ svc.ctl.arrives .i3c = true ∧ svc.ctl.own.handover = false
    ∧ handing.ctl.own.handoverEnd ≤ handing.ctl.ns
    ∧ (let s := onOwn (fun o => { o with leaseEnd := 10000000000 }) handing
       Quiet s ∧ s.ctl.own.handover = true ∧ s.ctl.own.owner ≠ 0 ∧ s.ctl.own.leaseEnd ≤ s.ctl.ns)
    ∧ Accepted handing .pcie 0x10004 := by decide

theorem witness_InbandPeerIsStored : Quiet svc ∧ Accepted svc .pcie 0x10010 ∧ svc.ctl.own.inbandStore = false ∧ Running svc
    ∧ (after (.inbandPeerWrite .pcie 0x1FFFFF) svc).ctl.own.inbandStore = true
    ∧ (after .resetNLow svc).ctl.dev.resetCause = 1 := by decide

theorem witness_OwnerResetsTheDevice : Quiet svc ∧ Accepted svc .pcie 0x10018 ∧ svc.ctl.own.busy = false ∧ Running svc
    ∧ (let s := onDev (fun x => { x with state := .standby, pcieUp := false }) i3cOwner
       Quiet s ∧ Accepted s .i3c 0x10018 ∧ s.ctl.own.busy = false ∧ s.ctl.dev.state = .standby)
    ∧ (let s := atState .quarantine svc; Quiet s ∧ Accepted s .pcie 0x10018 ∧ s.ctl.own.busy = false ∧ s.ctl.dev.state = .quarantine ∧ s.ctl.dev.inReset = false)
    ∧ svc.ctl.dev.state ≠ .quarantine
    ∧ (let s := onDev (fun x => { x with state := .boot, inReset := true, pcieUp := false }) i3cOwner
       Quiet s ∧ Accepted s .i3c 0x10018 ∧ s.ctl.own.busy = false ∧ s.ctl.dev.state = .boot ∧ s.ctl.dev.inReset = true) := by decide

theorem witness_OwnerCommandsWriteFlash : Quiet svc ∧ Accepted svc .pcie 0x10018 ∧ svc.ctl.own.busy = false
    ∧ (let u := onOwn (fun o => { o with busy := true, lastCmd := 3, index := 3 }) svc
       Quiet u ∧ u.ctl.own.busy = true ∧ u.ctl.policyOf 0x284 = none ∧ u.ctl.own.lastCmd = 3) := by decide

/-! ### Well-formedness: one ill-formed command for each check -/

def tagged (n : Nat) : RxFrame := { port := 1, frame := { hop := hop0 0, tags := List.replicate n (0, 0), etype := 0, body := [] } }

theorem test_measurements_fit : Instr.wf (.dutyStep hot) = true ∧ Instr.wf (.dutyStep { hot with tile := 256 }) = false
    ∧ Instr.wf (.deviceResetComplete { hot with watts := 2 ^ 32 }) = false ∧ Instr.wf (.pwrEventCondition { hot with vin := 2 ^ 32 }) = false
    ∧ Instr.wf (.thermalTrip .tile 256) = false := by decide
theorem test_accesses_fit : Instr.wf (.i3cTransfer ⟨.resetDynamic, List.replicate 256 0⟩ 0) = false ∧ Instr.wf (.i3cTransfer ⟨.resetDynamic, []⟩ 256) = false
    ∧ Instr.wf (.registerWrite (.bar .pcie) 0x3FFFFFC 4 0) = true ∧ Instr.wf (.registerWrite (.bar .pcie) 0x4000000 4 0) = false
    ∧ Instr.wf (.registerWrite (.bar .pcie) 0 3 0) = false ∧ Instr.wf (.registerWrite (.vf 0) 0x100000 4 0) = false
    ∧ Instr.wf (.loSnapshotRead ⟨.bar .pcie, 4⟩ 2) = false ∧ Instr.wf (.hiRead ⟨.bar .pcie, 3⟩ 4) = false ∧ Instr.wf (.loWriteHold (.bar .pcie) 2 0) = false
    ∧ Instr.wf (.hiWriteApply (.bar .pcie) 2 0) = false ∧ Instr.wf (.bar4Access 0 true []) = false ∧ Instr.wf (.bar4Access (2 ^ 40) true [0]) = false
    ∧ Instr.wf (.prtHeldWrite .pcie 0 0x300 0) = false ∧ Instr.wf (.workDoorbell .pf ⟨0, 0⟩ 3 (some 0)) = false ∧ Instr.wf (.cqDoorbell .pf ⟨0, 8⟩ 3 none) = false := by decide +kernel
theorem test_frames_fit : Instr.wf (.rxFrameDiscard (tagged 2)) = true
    ∧ Instr.wf (.rxFrameDiscard (tagged 3)) = false ∧ Instr.wf (.syncRx (tagged 3)) = false
    ∧ Instr.wf (.followUpRx (tagged 4)) = false ∧ Instr.wf (.delayRespRx (tagged 2)) = true
    ∧ Instr.wf (.lodLateCountRead ⟨.pcie, 5⟩) = false := by decide
theorem test_names_exist : Instr.wf (.chunkResendTimeout 1024 0 0 0) = false ∧ Instr.wf (.collComputeFault 1024 0 0) = false
    ∧ Instr.wf (.mqResendTimeout 1024 0) = false ∧ Instr.wf (.cipherRequestDone 108 false) = false ∧ Instr.wf (.faultReport 0x110 4 none) = false
    ∧ Instr.wf (.faultReport 0 17 none) = false ∧ Instr.wf (.wireFault 0x295) = false ∧ Instr.wf (.hbmCeCheck 0 0 (2 ^ 32)) = false
    ∧ Instr.wf (.pcCopyDone 0 [900 * 2 ^ 24]) = false ∧ Instr.wf (.sampleInterval .global [{ set := 353 }]) = false := by decide


/-- The check value of CRC-32C for the digits 1 to 9. -/
theorem test_crc32c_check : crc32c [49, 50, 51, 52, 53, 54, 55, 56, 57] = 0xE3069283 := by decide +kernel
/-- The example of FIPS 180-4 for the message abc. -/
theorem test_sha256_abc : sha256 [97, 98, 99] = 0xba7816bf8f01cfea414140de5dae2223b00361a396177a9cb410ff61f20015ad := by decide +kernel
theorem test_sha384_abc : sha384 [97, 98, 99] =
    0xcb00753f45a35e8bb5a03d699ac65007272c32ab0eded1631a8b605a43ff5bed8086072ba1e7cc2358baeca134c825a7 := by decide +kernel
/-- Test case 13 of the GCM specification: key, nonce and text empty or 0. -/
theorem test_gcm_empty : (gcmSeal 0 (List.replicate 12 0) [] []).2 =
    [0x53, 0x0f, 0x8a, 0xfb, 0xc7, 0x45, 0x36, 0xb9, 0xa9, 0x63, 0xb4, 0xf1, 0xc4, 0xcb, 0x73, 0x8b] := by decide +kernel

end Sys2Proof.Tests
end

