-- ==== Sys2Proof/Tests/Links.lean ====
section
/-! SUPPORT. States and operands that meet the hypotheses of the statements about the observation session, the loader and the
ports, clause by clause. -/
namespace Sys2Proof.Tests
open Sys2Proof Sys2Proof.Machine
set_option Elab.async false

theorem witness_ObservationSessionsOpenAndEnd : Quiet svc ∧ Accepted svc .pcie 0x10018 ∧ svc.ctl.own.busy = false
    ∧ svc.ctl.own.session.lockedOut = false ∧ svc.ctl.own.session.retryWait = false ∧ svc.ctl.own.dataLen < 8
    ∧ (onOwn (fun o => { o with dataLen := 64 }) svc).ctl.own.dataLen ≤ 64
    ∧ (let s := onOwn (fun o => { o with session := { o.session with lockedOut := true, fails := 16 } }) svc
       Quiet s ∧ Accepted s .pcie 0x10018 ∧ s.ctl.own.session.lockedOut = true)
    ∧ (let s := onOwn (fun o => { o with session := { o.session with retryWait := true, retryAt := 10000000000 } }) svc
       s.ctl.own.session.retryWait = true ∧ s.ctl.own.session.retryAt ≤ s.ctl.ns)
    ∧ (let s := onCtl (fun c => { c with ns := 60000000000 }) (onOwn (fun o => { o with nonceLive := true }) svc)
       s.ctl.own.nonceLive = true ∧ s.ctl.own.nonceAt + 60 * 1000000000 ≤ s.ctl.ns)
    ∧ (let s := onCtl (fun c => { c with ns := 28800000000000 }) (onOwn (fun o => { o with session := { o.session with isOpen := true } }) svc)
       s.ctl.own.session.isOpen = true ∧ s.ctl.own.session.openedAt + 8 * 3600 * 1000000000 ≤ s.ctl.ns)
    ∧ svc.ctl.own.nonceLive = false ∧ svc.ctl.own.session.isOpen = false := by decide

/-! ### The loader -/

theorem witness_LoaderCommandsAreChecked : Quiet svc ∧ Accepted svc .pcie 0x20000 ∧ svc.ctl.lat.busy = false
    ∧ (let s := onLat (fun l => { l with busy := true }) svc; Quiet s ∧ Accepted s .pcie 0x20000 ∧ s.ctl.lat.busy = true) := by decide

def reading (phase : LatPhase) : State := onLat (fun l => { l with busy := true, phase := phase, reading := 1, len := 384 }) svc

theorem witness_LoaderPassesEnd : (let s := reading .firstPass
    Quiet s ∧ s.ctl.dev.pcieUp = true ∧ s.pl.hostBad = [] ∧ s.ctl.lat.reading = 1 ∧ s.ctl.lat.phase = .firstPass
      ∧ (∃ r, checkImage s.ctl (quotaFor s.pl false) false 384 (Mem.readN s.pl.host 0 384) = .error r))
    ∧ (reading .secondPass).ctl.lat.phase = .secondPass
    ∧ (onLat (fun l => { l with parsed := some image }) (reading .secondPass)).ctl.lat.parsed = some image
    ∧ (reading .commit).ctl.lat.phase = .commit ∧ (reading .flash).ctl.lat.phase = .flash ∧ svc.ctl.lat.phase = .idle :=
  ⟨⟨by decide, by decide, by decide, by decide, by decide, _, rfl⟩, by decide, by decide, by decide, by decide, by decide⟩

theorem witness_WeightsMustMatchTheirDigests : (let s := reading .weights
    Quiet s ∧ s.pl.poison = [] ∧ s.ctl.lat.phase = .weights ∧ (s.ctl.job.veins.map (·.vein)).Nodup) := by decide

def armed : State :=
  onLat (fun l => { l with armed := some 40000000000, staged := some { job := { jobId := 4 }, staticTag := 0 }, weightsOk := true }) svc
def readyBody : List Byte := beBytes 2 4 ++ List.replicate 6 0 ++ beBytes 8 40000000001 ++ List.replicate 16 0
def abortBody : List Byte := readyBody ++ List.replicate 8 0
def mqPkt (ptype : Nat) (body : List Byte) : Pkt :=
  { ptype := ptype, dst := 1, src := 5, msgLen := body.length, ext := mqExt 0xFFFF 0 0 1 0 0 0 body, payload := body }
def ready (m : Nat) : ReadyNote := { member := m, jobId := 4, tick := 40000000000, staticTag := 0, commTag := 0 }
/-- Armed for the next tick: a READY or ABORT that comes now still counts. -/
def soon : State := onLat (fun l => { l with armed := some 40000000001 }) armed

theorem witness_JobSwitchRuns : Quiet armed ∧ armed.ctl.lat.armed = some 40000000000 ∧ armed.ctl.lat.staged = some { job := { jobId := 4 }, staticTag := 0 }
    ∧ armed.ctl.lat.quiescing = false ∧ (40000000000 : DWord).toNat ≤ armed.ctl.lod.tick.toNat + armed.ctl.group.leadUs * 4000
    ∧ armed.ctl.lat.cutReady = false ∧ armed.ctl.lat.cutAbort = false ∧ armed.ctl.lat.readySent = false
    ∧ (40000000000 : DWord).toNat ≤ armed.ctl.lod.tick.toNat ∧ armed.ctl.lat.aborted = false ∧ isReady armed = true
    ∧ armed.ctl.policyOf 0x282 = none
    ∧ (let s := onLat (fun l => { l with readySent := true, readies := [ready 0, ready 1] }) armed
       Quiet s ∧ s.ctl.lat.readySent = true ∧ isReady s = true
         ∧ (∀ i, i < 2 → (∃ r ∈ s.ctl.lat.readies, r.member = i)) ∧ ∀ r ∈ s.ctl.lat.readies, r = ready r.member)
    ∧ (onLat (fun l => { l with aborted := true }) armed).ctl.lat.aborted = true
    ∧ Quiet soon ∧ soon.ctl.lod.tick.toNat < (40000000001 : DWord).toNat
    ∧ svc.ctl.lod.tick.toNat + 800000 < (40000800001 : DWord).toNat
    ∧ svc.ctl.lod.tick.toNat + svc.ctl.group.leadUs * 4000 < (40004000001 : DWord).toNat := by decide

theorem witness_JobSwitchRuns_ready : (let f := gframe 3 (mqPkt 0x37 readyBody)
    let p := mqPkt 0x37 readyBody
    PacketIn soon f p.bytes false p ∧ Unfenced soon p ∧ soon.ctl.memberIndex p.src = some 1 ∧ mqPktOk p = true ∧ (mqHdr p.ext).src = 1
      ∧ getBe p.payload 8 8 = (40000000001 : DWord).toNat ∧ p.ptype = 0x37 ∧ p.payload.length = 32
      ∧ getBe p.payload 8 8 ≠ (40000000000 : DWord).toNat) := by decide +kernel

theorem witness_JobSwitchRuns_abort : (let f := gframe 3 (mqPkt 0x38 abortBody)
    let p := mqPkt 0x38 abortBody
    PacketIn soon f p.bytes false p ∧ Unfenced soon p ∧ soon.ctl.memberIndex p.src = some 1 ∧ mqPktOk p = true ∧ (mqHdr p.ext).src = 1
      ∧ getBe p.payload 8 8 = (40000000001 : DWord).toNat ∧ p.ptype = 0x38 ∧ p.payload.length = 40) := by decide +kernel

/-! ### Ports -/

theorem witness_PortsTrainPauseAndReturn : Quiet svc
    ∧ (let s := withPort 0 (fun p => { p with link := .training, since := 9500000000 }) svc
       Quiet s ∧ (s.pl.port 0).link = .training ∧ (s.pl.port 0).since + 500000000 ≤ s.ctl.ns ∧ (s.pl.port 0).inUse = true
         ∧ (s.pl.port 0).group = true)
    ∧ (let lost (lanes : BitVec 9) := (List.range 8).filter fun i => !lanes.getLsbD i
       lost 0x1FF = [] ∧ (lost 0x1FE).length = 1 ∧ (0x1FE : BitVec 9).getLsbD 8 = true ∧ 1 < (lost 0x1FC).length
         ∧ lost 0xFE ≠ [] ∧ (0xFE : BitVec 9).getLsbD 8 = false)
    ∧ (svc.pl.port 0).link ≠ .training ∧ (svc.pl.port 0).link = .up ∧ (svc.pl.port 1).group = false
    ∧ (svc.pl.port 0).group = true ∧ (svc.pl.port 0).spared = none ∧ (svc.pl.port 0).parityOk = true
    ∧ (let s := withPort 0 (fun p => { p with spared := some 3 }) svc; (s.pl.port 0).spared ≠ some 2 ∧ (s.pl.port 0).spared.isSome = true)
    ∧ (let s := withPort 1 (fun p => { p with link := .paused, since := 9999990000 }) svc
       Quiet s ∧ (s.pl.port 1).link = .paused ∧ s.ctl.ns ≤ (s.pl.port 1).since + 10000 ∧ (s.pl.port 1).since + 10000 ≤ s.ctl.ns)
    ∧ Accepted svc .pcie (0x1000000 + 0 * 0x10000) := by decide

theorem witness_LanesAreRebuiltFromParity : Quiet svc ∧ (svc.pl.port 0).group = true ∧ (svc.pl.port 0).link = .up
    ∧ (svc.pl.port 0).spared = none ∧ (svc.pl.port 0).parityOk = true
    ∧ (let s := withPort 0 (fun p => { p with spared := some 7 }) svc
       Quiet s ∧ (s.pl.port 0).group = true ∧ (s.pl.port 0).spared ≠ some 0 ∧ (s.pl.port 0).spared = some 7
         ∧ (s.pl.port 0).rebuildNoted = false ∧ (s.pl.port 0).sparedAt + 10000000000 ≤ s.ctl.ns)
    ∧ (let s := withPort 0 (fun p => { p with sparedAt := 1 }) svc; s.ctl.ns < (s.pl.port 0).sparedAt + 10000000000) := by decide

def beatFrame (group node : Nat) : RxFrame :=
  { port := 0, frame := padFrame
      { hop := let h : Hop := {}; { h with pchk := hopCheck h }, etype := svc.ctl.etypeLink 0
        body := beBytes 1 1 ++ beBytes 1 1 ++ beBytes 2 7 ++ beBytes 4 node ++ beBytes 4 group ++ [0, 6, 0, 0] } }

theorem witness_HeartbeatsKeepALink : Quiet svc ∧ (svc.pl.port 0).group = true ∧ (svc.pl.port 0).link = .up ∧ svc.ctl.dev.state = .service
    ∧ ¬ ((svc.pl.port 1).group = true)
    ∧ (let s := withPort 0 (fun p => { p with ackDue := true, ackAt := 9999999500, accepted := 32, nakOut := true, nakAt := 9999988000 }) svc
       Quiet s ∧ (s.pl.port 0).ackDue = true ∧ (s.pl.port 0).ackAt + 500 ≤ s.ctl.ns ∧ 32 ≤ (s.pl.port 0).accepted
         ∧ (s.pl.port 0).nakOut = true ∧ (s.pl.port 0).nakAt + 12000 ≤ s.ctl.ns)
    ∧ (let s := withPort 0 (fun p => { p with replay := [{ seq := 0, frame := {}, sentAt := 9999988000 }], replays := 15, hbAt := 9999991999 }) svc
       Quiet s ∧ (s.pl.port 0).replay = [{ seq := 0, frame := {}, sentAt := 9999988000 }] ∧ (s.pl.port 0).link = .up ∧ 9999988000 + 12000 ≤ s.ctl.ns ∧ (s.pl.port 0).replays < 16
         ∧ (s.pl.port 0).peerOk = true ∧ (s.pl.port 0).hbAt + 8000 < s.ctl.ns)
    ∧ (withPort 0 (fun p => { p with replays := 16 }) svc |>.pl.port 0).replays = 16
    ∧ (∀ x ∈ (svc.pl.port 0).replay.head?, svc.ctl.ns < x.sentAt + 12000)
    ∧ (let s := withPort 0 (fun p => { p with link := .paused, replay := [{ seq := 0, frame := {}, sentAt := 9999988000 }] }) svc
       Quiet s ∧ (s.pl.port 0).link ≠ .up) := by decide

theorem witness_HeartbeatsKeepALink_received : (let f := beatFrame 9 5
    f.port = 0 ∧ (macIn svc.ctl svc.pl f).1 = some f.frame ∧ f.frame.etype = svc.ctl.etypeLink 0 ∧ getByte f.frame.body 0 = 1
      ∧ getByte f.frame.body 1 = 1 ∧ getBe f.frame.body 8 4 = svc.ctl.group.groupId ∧ getBe f.frame.body 4 4 % 2 ^ 20 = (svc.pl.port 0).peerNode
      ∧ fenceOf svc.ctl svc.pl 5 = none)
    ∧ (let f := beatFrame 8 5; (macIn svc.ctl svc.pl f).1 = some f.frame ∧ getBe f.frame.body 8 4 ≠ svc.ctl.group.groupId)
    ∧ (let f := beatFrame 9 6
       (macIn svc.ctl svc.pl f).1 = some f.frame ∧ getBe f.frame.body 8 4 = svc.ctl.group.groupId
         ∧ getBe f.frame.body 4 4 % 2 ^ 20 ≠ (svc.pl.port 0).peerNode) := by decide +kernel

theorem witness_HeartbeatsKeepALink_dead : (let s := withPort 0 (fun p => { p with hbAt := 9998000000 }) svc
    Quiet s ∧ (s.pl.port 0).group = true ∧ (s.pl.port 0).heard = true ∧ (s.pl.port 0).dead = false ∧ s.ctl.memberIndex (s.pl.port 0).peerNode = some 1
      ∧ (∀ m, m < 48 → (s.pl.port m).group = true → (s.pl.port m).peerNode = (s.pl.port 0).peerNode → (s.pl.port m).heard = true →
          (s.pl.port m).hbAt + s.ctl.group.deadTimeUs * 1000 ≤ s.ctl.ns ∧ (s.pl.port m).hbInc = (s.pl.port 0).hbInc)
      ∧ s.pl.col.colls = [] ∧ s.pl.qps = [])
    ∧ (let s := withPort 0 (fun p => { p with heard := false }) svc
       (s.pl.port 0).heard = false ∧ ∀ m, m < 48 → (s.pl.port m).peerNode = (s.pl.port 0).peerNode → (s.pl.port m).heard = false) := by decide

def plain (n : PortId) (etype : BitVec 16) (len : Nat) (tags : List (BitVec 16 × BitVec 16)) (ok : Bool) : RxFrame :=
  { port := n, fcsOk := ok, frame := { hop := hop0 0, tags := tags, etype := etype, body := List.replicate len 0 } }

theorem witness_FramesAreSteeredOrDropped : Quiet svc ∧ (svc.pl.port 2).inUse = false
    ∧ (svc.pl.port 1).link = .up ∧ (svc.pl.port 1).fabric = true ∧ (plain 1 0x0800 60 [] false).fcsOk = false
    ∧ frameLen (plain 1 0x0800 45 [] true).frame < 64 ∧ 9216 < frameLen (plain 1 0x0800 9199 [] true).frame
    ∧ (let f := (plain 1 0x8808 9198 [] true).frame; 64 ≤ frameLen f ∧ frameLen f ≤ 9216 ∧ f.etype = 0x8808)
    ∧ (let f := (plain 1 0x0800 46 [(0x8100, 1), (0x8100, 2)] true).frame; 64 ≤ frameLen f ∧ f.etype ≠ 0x8808 ∧ 1 < f.tags.length)
    ∧ (svc.pl.port 0).group = true ∧ (plain 0 0x0800 46 [] false).fcsOk = false ∧ (svc.pl.port 0).nakOut = false := by decide +kernel

/-- Filters 0 to 2 of port 1: 0x88F7 goes to the shared receive queue 6, 0x9000 is dropped, 0x9001 is time. -/
def filtered : State :=
  onCtl (fun c => { c with inEffect := ((List.range 3).map fun i =>
      [(Reg.prt 1 (0x100 + 0x10 * i), (0x80000000 : Word)), (Reg.prt 1 (0x104 + 0x10 * i), [(0x188F7 : Word), 0x19000, 0x19001].getD i 0),
       (Reg.prt 1 (0x10C + 0x10 * i), [(0x1B : Word), 0, 2].getD i 0)]).flatten }) svc

/-- The same, with shared receive queue 6 served by ring 0 of partition 3, whose next buffer holds `n` bytes at address 0. -/
def buffered (n : Nat) : State :=
  withPl (fun d => { d with rings := [(0, { state := .enabled, descs := [{ index := 0, tag := 0, va := 0, len := n }] })]
                            regs := [(Reg.wrg 0 8, 0x70), (Reg.wrg 0 0xC, 6)] }) filtered

/-- An IPv4 packet with options to the UDP port of port 1. -/
def badIp : RxFrame :=
  let body : List Byte := [0x46] ++ List.replicate 8 0 ++ [17] ++ List.replicate 16 0 ++ beBytes 2 (svc.ctl.udpPort 1) ++ List.replicate 20 0
  { port := 1, frame := { da := svc.ctl.mac 1, hop := hop0 0, etype := 0x0800, body := body } }

theorem witness_FramesAreSteeredOrDropped_filters : (let s := filtered
    Quiet s ∧ (macIn s.ctl s.pl (plain 1 0x9000 46 [] true)).1 = some (plain 1 0x9000 46 [] true).frame
      ∧ (macIn s.ctl s.pl (plain 1 0x88F7 46 [] true)).1 = some (plain 1 0x88F7 46 [] true).frame
      ∧ (∀ x ∈ [((0x9000 : BitVec 16), Steer.drop), (0x9001, .time), (0x88F7, .host 6)], steer s.ctl 1 (s.pl.port 1) (plain 1 x.1 46 [] true).frame = x.2) ∧ s.pl.srqRing 6 = none
      ∧ (macIn s.ctl s.pl badIp).1 = some badIp.frame ∧ steer s.ctl 1 (s.pl.port 1) badIp.frame = .ipErr) := by decide +kernel

theorem witness_FramesAreSteeredOrDropped_buffers : (∀ n ∈ [59, 60], let s := buffered n
       s.pl.srqRing 6 = some 0 ∧ portServes s.pl 1 (s.pl.wrgPart 0) = true ∧ (frameBytes (plain 1 0x88F7 46 [] true).frame).length = 60
         ∧ (s.pl.ring 0).descs = [{ index := 0, tag := 0, va := 0, len := n }]) := by decide +kernel

theorem witness_FramesAreSteeredOrDropped_rings (n : Nat) : HostRings (buffered n) := by
  refine hostRings_of (buffered n) ?_
  show ∀ x ∈ [(Reg.wrg 0 8, (0x70 : Word)), (Reg.wrg 0 0xC, (6 : Word))], x.1 < 0x2080000 ∨ flag x.2 0 = false
  decide

theorem witness_FramesAreSteeredOrDropped_refused :
    (let s := withPl (fun d => { d with portPart := [(1, some 4)] }) (buffered 60)
     Quiet s ∧ steer s.ctl 1 (s.pl.port 1) (plain 1 0x88F7 46 [] true).frame = .host 6 ∧ s.pl.srqRing 6 = some 0
       ∧ portServes s.pl 1 (s.pl.wrgPart 0) = false)
    ∧ (let s := withPl (fun d => { d with rings := [(0, { state := .enabled })] }) (buffered 60)
     Quiet s ∧ s.pl.srqRing 6 = some 0 ∧ (s.pl.ring 0).descs = [] ∧ mayFetch s.ctl (s.pl.ring 0) = false)
    ∧ (let f : RxFrame := { gframe 3 { ptype := 0x18, dst := 1, src := 5, tc := 7, ext := List.replicate 16 0 } with room := false }
     (svc.pl.port 0).link = .up ∧ f.fcsOk = true ∧ hopCheck f.frame.hop = f.frame.hop.pchk ∧ hopAckValid f.frame.hop = false
       ∧ hopSeqValid f.frame.hop = true ∧ f.frame.hop.seq = (svc.pl.port 0).hopExpect ∧ f.room = false
       ∧ (svc.pl.port 0).nakOut = false) := by decide +kernel

theorem witness_FramesAreSteeredOrDropped_forward : (let f := gframe 0 { ptype := 0x18, dst := 9, src := 5, tc := 7, ext := List.replicate 16 0 }
       (macIn svc.ctl svc.pl f).1 = some f.frame ∧ f.frame.hop.hopsLeft = 0 ∧ svc.ctl.route 9 = none) := by decide +kernel

theorem witness_FramesAreSteeredOrDropped_steered :
    (let f := plain 1 0x1234 46 [] true; (macIn svc.ctl svc.pl f).1 = some f.frame ∧ steer svc.ctl 1 (svc.pl.port 1) f.frame = .miss)
    ∧ (let f := gframe 1 { ptype := 0x18, dst := 5, src := 5, tc := 7, ext := List.replicate 16 0 }
       (macIn svc.ctl svc.pl f).1 = some f.frame ∧ (svc.pl.port 0).group = true ∧ f.frame.hop.hopsLeft ≠ 0
         ∧ (match steer svc.ctl 0 (svc.pl.port 0) f.frame with
            | .gxt raw _ => (gxtBad raw true (leastBody f.frame true)).isNone && (parsePkt raw).dst != svc.ctl.selfNode && decide ((parsePkt raw).ptype < 0x34) && (parsePkt raw).tc == 7
            | _ => false) = true
         ∧ (∃ r, svc.ctl.route 5 = some r ∧ r.fabric = false ∧ (usableHops svc.ctl (afterMac svc f).pl r 7 false).head? = some 0)
         ∧ svc.ctl.maySend = true ∧ (svc.pl.flow (2 ^ 23 + 8 * 0 + 7)).queue = []) := by
  refine ⟨by decide +kernel, by decide +kernel, by decide +kernel, by decide +kernel, by decide +kernel, ⟨_, rfl, by decide +kernel, by decide +kernel⟩, by decide +kernel, rfl⟩

end Sys2Proof.Tests
end

