-- ==== Sys2Proof/Tests/Rings.lean ====
section
/-! SUPPORT. A state with a partition, its rings and its page tables, and what of it meets the hypotheses of the statements about
frames that start, translation, rings and work entries. -/
namespace Sys2Proof.Tests
open Sys2Proof Sys2Proof.Machine
set_option Elab.async false

/-! ### Frames that start -/

def frame0 : Frame := gxtFrame svc.ctl 0 7 0 (Pkt.bytes { ptype := 0x18, dst := 5, src := 1, tc := 7, ext := List.replicate 16 0 })
def beat0 : Frame := heartbeatFrame svc.ctl 0 gport
def head1 : Head := { flow := 2 ^ 23, cls := 1, wire := 200, finish := 4, frame := frame0 }

theorem witness_PortsStartTheNextFrame : Quiet svc ∧ (svc.pl.port 2).link ≠ .up ∧ (svc.pl.port 2).link ≠ .paused
    ∧ (let s := withPort 0 (fun p => { p with busyTill := 10000000001 }) svc; s.ctl.ns < (s.pl.port 0).busyTill)
    ∧ (let s := withPort 0 (fun p => { p with toReplay := [(3, frame0)], busyTill := 10000000000 }) svc
       (s.pl.port 0).busyTill ≤ s.ctl.ns ∧ (s.pl.port 0).link = .up ∧ (s.pl.port 0).toReplay = [(3, frame0)]
         ∧ takeFirst (may7 s.ctl 0 (s.pl.port 0)) (s.pl.port 0).queue7 = none ∧ s.ctl.maySpeak = true
         ∧ mayCarry (s.pl.port 0) frame0 = true ∧ (parsePkt frame0.body).tc = 7
         ∧ mayCarry { s.pl.port 0 with link := .paused } frame0 = false)
    ∧ (let s := withPort 0 (fun p => { p with queue7 := [frame0] }) svc
       takeFirst (may7 s.ctl 0 (s.pl.port 0)) (s.pl.port 0).queue7 = some (frame0, []) ∧ (s.pl.port 0).group = true
         ∧ frame0.etype ≠ s.ctl.etypeLink 0 ∧ 46 ≤ frame0.body.length ∧ 64 ≤ frameLen frame0 ∧ (s.pl.port 0).ackHolds = []
         ∧ takeFirst (fun h : AckHold => h.frame == frame0) [{ frame := frame0, since := 5 }] = some ({ frame := frame0, since := 5 }, [])) := by decide +kernel

theorem witness_PortsStartTheNextFrame_next : (let s := withPort 0 (fun p => { p with queue7 := [frame0, beat0], toReplay := [(3, frame0)] }) svc
    takeFirst (may7 s.ctl 0 (s.pl.port 0)) (s.pl.port 0).queue7 = some (beat0, [frame0]) ∧ beat0.etype = s.ctl.etypeLink 0
         ∧ getByte beat0.body 0 = 1)
    ∧ (let s := withPort 1 (fun p => { p with queue7 := [frame0] }) svc
       takeFirst (may7 s.ctl 1 (s.pl.port 1)) (s.pl.port 1).queue7 = some (frame0, []) ∧ (s.pl.port 1).group = false
         ∧ (s.pl.port 1).ackHolds = [])
    ∧ (let s := withPort 0 (fun p => { p with replay := List.replicate 256 { seq := 0, frame := frame0, sentAt := 0 } }) svc
       takeFirst (may7 s.ctl 0 (s.pl.port 0)) (s.pl.port 0).queue7 = none ∧ (s.pl.port 0).toReplay = []
         ∧ (s.pl.port 0).group = true ∧ 256 ≤ (s.pl.port 0).replay.length)
    ∧ (let s := withPort 0 (fun p => { p with heads := [head1], rr := 1 }) svc
       let p := s.pl.port 0
       p.link = .up ∧ s.ctl.maySpeak = true ∧ p.toReplay = [] ∧ p.queue7 = [] ∧ p.showDataOk = true ∧ p.replay.length < 256 ∧ 2 ^ 23 ≤ head1.flow
         ∧ head1.frame.etype ≠ s.ctl.etypeLink 0 ∧ (s.pl.flow head1.flow).queue = [] ∧ head1.qp = none
         ∧ (∀ c, c < 7 → c ≠ p.rr → headOf p c = none) ∧ headOf p p.rr = some head1 ∧ p.rr = head1.cls ∧ head1.cls < 7
         ∧ s.ctl.gate 0 = none ∧ shapeRate s.pl 0 1 = 0 ∧ head1.wire ≤ quantumOf s.pl 0 1) := by decide +kernel

/-! ### A partition with its tables -/

/-- One entry of a page table: its low half, from the flags of R191 and an address, for this node. -/
def pte (flags addr : Nat) : List Byte := leBytes 8 (flags + addr + 0xFFFFF * 2 ^ 44) ++ List.replicate 8 0

/-- Tables of partition 3, from the root at 8 GiB: the first GiB is stacked memory at 9 GiB, the second is read-only, the third
host memory, the fourth is absent. -/
def tables : Mem :=
  Mem.writeN (Mem.writeN (Mem.writeN [] 0x200000000 (pte 1 0x200002000)) 0x200002000 (pte 1 0x200004000)) 0x200004000
    (pte 0x13 0x240000000 ++ pte 3 0x280000000 ++ pte 0x13 0x80000000000)

def regsOf (l : List (Nat × Word)) (d : Plane) : Plane := l.foldl (fun d x => d.setReg x.1 x.2) d

/-- Partition 3 with the rings 0 to 127, the queue pairs and windows 0 to 1023; work ring 0 and completion ring 1 in host memory. -/
def ringed : State :=
  withPl (fun d => regsOf
    [(Reg.root 3, 1), (Reg.root 3 + 4, 0xFFFFF002), (Reg.wrg 0 0, 0x10000), (Reg.wrg 0 8, 0x800466), (Reg.cmp 1 0, 0x20000), (Reg.cmp 1 8, 0x200C6)]
    { d with
      parts := [(3, { state := .active, rings := ⟨0, 2⟩, qps := ⟨0, 1⟩, wins := ⟨0, 1⟩, keys := ⟨0, 1⟩ })]
      rings := [(0, { state := .enabled, producer := 2 })]
      cqs := [(1, { enabled := true })]
      mem := tables }) svc

def leafIs (w : Walk) (f : Leaf → Bool) : Bool := match w with | .leaf l => f l | .fault _ => false

theorem witness_TranslationFaultsTakeSlots : Quiet ringed ∧ (ringed.pl.part 3).state = .active ∧ SMap.wf [] ringed.pl.cache = true
    ∧ ({ engine := .dma, part := 3, va := 0x3FFFFFFF } : Access).engine ≠ .receive
    ∧ leafIs (walk ringed.ctl ringed.pl 3 0x3FFFFFFF) (fun l => decide (accessCause l.pte true = none ∧ l.va = 0)) = true
    ∧ walk ringed.ctl ringed.pl 3 0xC0010000 = .fault .notPresent
    ∧ (∀ j, j < 64 → 48 ≤ j → (ringed.pl.slot j).isOpen = false)
    ∧ (let s := withPl (fun d => { d with faults := (List.range 16).map fun j => (48 + j, { isOpen := true, part := 3, va := j * 65536 }) }) ringed
       ∀ j, j < 64 → 48 ≤ j → (s.pl.slot j).isOpen = true ∧ (s.pl.slot j).va ≠ 0xC0010000)
    ∧ (let s := withPl (fun d => { d with faults := [(48, { isOpen := true, part := 3, cause := 1, va := 0xC0010000, openedAt := 9999999750, waiters := [.other] })] }) ringed
       let x := s.pl.slot 48
       x.isOpen = true ∧ x.reported = false ∧ x.cause ≠ 6 ∧ x.openedAt + 250 ≤ s.ctl.ns ∧ Accepted s .pcie 0x20000C ∧ (∀ w ∈ x.waiters, w = .other)
         ∧ s.pl.slotless = [] ∧ bits (s.pl.reg 0x200008) 13 0 ≠ 0 ∧ s.ctl.ns - x.openedAt < bits (s.pl.reg 0x200008) 13 0 * 1000000)
    ∧ (let s := withPl (fun d => { d with faults := [(48, { isOpen := true, part := 3, va := 0 })], regs := d.regs ++ [(0x200008, 10000)] }) ringed
       0 < bits (s.pl.reg 0x200008) 13 0 ∧ bits (s.pl.reg 0x200008) 13 0 * 1000000 ≤ s.ctl.ns - (s.pl.slot 48).openedAt)
    ∧ (let s := withPl (fun d => { d with vfs := [(2, { bound := true, part := 4 })] }) ringed
       vfWrites s.ctl s.pl 2 = true ∧ (48 : Nat) / 16 ≠ (s.pl.vf 2).part) := by decide +kernel

/-- An entry of `raw` at index 0 of ring 0, beside which nothing is fetched. -/
def fetched (raw : List Byte) (phase : Phase := .fetched) : State :=
  withPl (fun d => { d with
    rings := [(0, { state := .enabled, producer := 1, consumer := 1, fetched := [{ index := 0, raw := raw, phase := phase }] })]
    cqs := [(1, { enabled := true, pending := 1 })] }) ringed
def entryOf (raw : List Byte) (phase : Phase := .fetched) : Fetched := { index := 0, raw := raw, phase := phase }

/-- A PREFETCH of the third GiB to 10 GiB: SRC, LEN, DST at bytes 16, 24, 32. -/
def moveRaw (op mode va len dst : Nat) : List Byte := [BitVec.ofNat 8 op, 1, 7, 0, 0, 0, 0, 0, BitVec.ofNat 8 mode, 0, 0, 0, 0, 0, 0, 0]
  ++ leBytes 8 va ++ leBytes 8 len ++ leBytes 8 dst ++ List.replicate 24 0

theorem witness_TranslationFaultsTakeSlots_fail : (let e := entryOf (moveRaw 0x19 0 0 65536 0) .faulted
    let s := withPl (fun d => { d with faults := [(48, { isOpen := true, part := 3, waiters := [.entry 0 0] })] }) (fetched e.raw .faulted)
    Accepted s .pcie 0x20000C ∧ (s.pl.slot 48).isOpen = true ∧ (s.pl.slot 48).waiters = [.entry 0 0] ∧ s.pl.slotless = []
      ∧ s.pl.entry 0 0 = some e ∧ e.opcode = 0x19 ∧ e.timed = false ∧ e.lost = false ∧ e.phase = .faulted ∧ CompRing s 0) := by decide +kernel

theorem witness_DoorbellsMoveTheIndices : Quiet ringed ∧ ringed.ctl.vfUp = true ∧ doorbellRing ringed.pl .pf 0 = some 0
    ∧ ringHeldUp ringed.ctl ringed.pl 0 = false ∧ (ringed.pl.ring 0).state = .enabled ∧ (64 : BitVec 16) ≠ (ringed.pl.ring 0).producer
    ∧ (64 - (ringed.pl.ring 0).consumer).toNat ≤ 2 ^ bits (ringed.pl.reg (0x2000008 + 0 * 0x40)) 3 0
    ∧ 2 ^ bits (ringed.pl.reg (0x2000008 + 0 * 0x40)) 3 0 < ((65 : BitVec 16) - (ringed.pl.ring 0).consumer).toNat
    ∧ (ringed.pl.ring 1).state = .disabled ∧ (ringed.pl.cq 0).enabled = false ∧ doorbellRing ringed.pl .pf 1 = some 1
    ∧ (ringed.pl.cq 1).enabled = true ∧ 2 ^ bits (ringed.pl.reg (0x2080008 + 1 * 0x40)) 3 0 < ((ringed.pl.cq 1).write - 0xFFBF).toNat
    ∧ ((ringed.pl.cq 1).write - 0xFFC0).toNat ≤ 2 ^ bits (ringed.pl.reg (0x2080008 + 1 * 0x40)) 3 0
    ∧ flag (ringed.pl.reg (0x2080008 + 1 * 0x40)) 5 = false ∧ bits (ringed.pl.reg (0x2080008 + 1 * 0x40)) 18 17 = 1
    ∧ (let s := withPl (fun d => { d with rings := [(0, { state := .error })], vfs := [(2, { bound := true, part := 3, first := 0, count := 64 })] }) ringed
       (s.pl.ring 0).state = .error ∧ s.ctl.vfUp = true ∧ doorbellRing s.pl (.vf 2) 0 = some 0 ∧ ringHeldUp s.ctl s.pl 0 = false) := by decide +kernel

theorem witness_RingsAreEnabledAndShutDown : Accepted ringed .pcie (0x2000010 + 0 * 0x40) ∧ ringHeldUp ringed.ctl ringed.pl 0 = false
    ∧ (ringed.pl.ring 0).state ≠ .disabled ∧ Accepted ringed .pcie (0x2000010 + 5 * 0x40) ∧ (ringed.pl.ring 5).state = .disabled
    ∧ (let s := withPl (fun d => { d with rings := [] }) ringed
       (s.pl.ring 0).state = .disabled ∧ wrgEnableOk s.ctl s.pl 0 = true ∧ wrgEnableOk s.ctl s.pl 5 = false ∧ (s.pl.cq 1).enabled = true
         ∧ ¬ (∃ r ∈ s.pl.rings, r.2.state ≠ .disabled ∧ bits (s.pl.reg (0x2000008 + r.1 * 0x40)) 22 10 = 1))
    ∧ (let s := fetched (moveRaw 0x19 0 0 65536 0)
       let r := s.pl.ring 0
       Accepted s .pcie (0x2000010 + 0 * 0x40) ∧ r.state = .enabled ∧ CompRing s 0 ∧ r.descs = [] ∧ (r.fetched.map (·.index)).Nodup
         ∧ s.pl.wrgKind 0 = false ∧ heldDescs s.pl 0 = 0
         ∧ ∀ e ∈ r.fetched, e.phase = .fetched ∧ e.timed = false ∧ e.lost = false)
    ∧ (let s := withPl (fun d => d.setReg (Reg.wrg 0 8) 0x800476) ringed
       s.pl.wrgKind 0 = true ∧ (s.pl.ring 0).state = .enabled ∧ (s.pl.ring 0).fetched = [] ∧ Accepted s .pcie (0x2000010 + 0 * 0x40)
         ∧ ringHeldUp s.ctl s.pl 0 = false)
    ∧ Accepted ringed .pcie (0x2080010 + 1 * 0x40) ∧ (ringed.pl.cq 1).enabled = true ∧ ringHeldUp ringed.ctl ringed.pl 1 = false
    ∧ (∃ r ∈ ringed.pl.rings, r.2.state ≠ .disabled ∧ bits (ringed.pl.reg (0x2000008 + r.1 * 0x40)) 22 10 = 1)
    ∧ (let s := withPl (fun d => { d with cqs := [] }) ringed; (s.pl.cq 1).enabled = false ∧ cmpEnableOk s.ctl s.pl 1 = true)
    ∧ (let s := withPl (fun d => { d with vfs := [(2, { bound := true, part := 3, first := 64, count := 64 })] }) ringed
       vfWrites s.ctl s.pl 2 = true ∧ s.pl.holder 64 = 1 + 2 ∧ ringHeldUp s.ctl s.pl 64 = false ∧ (s.pl.ring 64).state = .disabled
         ∧ (s.pl.vf 2).part < 32) := by decide +kernel

def hostRing (raw : List Byte) : State := withPl (fun d => { d with host := Mem.writeN [] 0x10000 raw }) ringed
/-- Ring 0 as a receive ring of shared receive queue 6. -/
def receiving : State := withPl (fun d => regsOf [(Reg.wrg 0 8, 0x800476), (Reg.wrg 0 0xC, 6)] d)
  (hostRing (leBytes 2 9 ++ List.replicate 6 0 ++ leBytes 8 0x1000 ++ leBytes 4 0x1000 ++ List.replicate 12 0))

theorem witness_EntriesAreFetchedAndChecked : (let s := hostRing (moveRaw 0x19 0 0 65536 0x280000000)
    let raw := Mem.readN s.pl.host 0x10000 64
    Quiet s ∧ s.ctl.serving = true ∧ s.ctl.lat.quiescing = false ∧ CompRing s 0 ∧ s.pl.hostBad = [] ∧ s.pl.ringLoc (Reg.wrg 0 0) = false
      ∧ (s.pl.ring 0).state = .enabled ∧ s.pl.wrgKind 0 = false ∧ 0 < s.pl.cqFree (s.pl.wrgCq 0)
      ∧ s.pl.ringBase (Reg.wrg 0 0) + (s.pl.ring 0).consumer.toNat % s.pl.wrgSize 0 * 32 = 0x10000 ∧ getByte raw 1 % 8 + 1 = 2
      ∧ (2 : Nat) ≤ ((s.pl.ring 0).producer - (s.pl.ring 0).consumer).toNat
      ∧ entryBad s.ctl s.pl (s.pl.wrgPart 0) raw = none ∧ getByte raw 0 ≠ 0 ∧ getByte raw 0 ≠ 0x20)
    ∧ (let s := hostRing (0x7F :: List.replicate 31 0)
       let raw := Mem.readN s.pl.host 0x10000 32
       getByte raw 1 % 8 + 1 = 1 ∧ (entryBad s.ctl s.pl (s.pl.wrgPart 0) raw).isSome = true)
    ∧ (let raw := Mem.readN (hostRing (List.replicate 32 0)).pl.host 0x10000 32
       entryBad svc.ctl svc.pl 3 raw = none ∧ getByte raw 0 = 0)
    ∧ ringed.pl.wrgKind 0 = false ∧ (ringed.pl.ring 0).consumer ≠ (ringed.pl.ring 0).producer
    ∧ (let s := receiving
       Quiet s ∧ CompRing s 0 ∧ s.pl.wrgKind 0 = true ∧ 0 < s.pl.cqFree (s.pl.wrgCq 0) ∧ (s.pl.ring 0).consumer ≠ (s.pl.ring 0).producer
         ∧ (s.pl.ring 0).descs.length < 64 ∧ descOk (Mem.readN s.pl.host 0x10000 32) = true)
    ∧ descOk (List.replicate 31 0 ++ [1]) = false
    ∧ (withPl (fun d => { d with cqs := [(1, { enabled := true, pending := 64 })] }) receiving).pl.cqFree 1 = 0 := by decide +kernel

/-! ### Work entries -/

/-- READY, resident, without a capability; its peer is node 5. -/
def qp7 : Qp := { state := .ready, resident := true, part := 3, peerNode := 5, peerQp := 9, peerInc := 7, version := 1, payload := 4096, window := 16
                  offerPayload := 4096, offerWindow := 16, cq := 1, caps := 0x1E }
def withQp (q : Qp) (s : State) : State := withPl (fun d => { d with qps := [(7, q)] }) s
/-- An entry of opcode `op` for queue pair 7: LEN, VA, HANDLE and the remote address. -/
def xferRaw (op len va : Nat) : List Byte := [BitVec.ofNat 8 op, 1, 7, 0, 0, 0, 0, 0, 7, 0, 0, 0] ++ leBytes 4 len ++ leBytes 8 va
  ++ leBytes 8 0 ++ leBytes 8 0x2000 ++ leBytes 8 5 ++ List.replicate 16 0

theorem witness_QueuePairEntriesStart : ∀ op ∈ [1, 2, 3, 4, 5, 6], (let e := entryOf (xferRaw op 0x1000 (2 ^ 57 - 0x1000))
    let s := withQp qp7 (fetched e.raw)
    let q := s.pl.qp e.qp
    Quiet s ∧ Startable s 0 0 e ∧ e.opcode = op ∧ CompRing s 0 ∧ q.state = .ready ∧ q.resident = true ∧ 0 < q.window * q.payload
      ∧ (∀ b, b < 5 → 1 ≤ b → q.caps.getLsbD b = true) ∧ getLe e.raw 16 8 + getLe e.raw 12 4 ≤ 2 ^ 57 ∧ s.ctl.boundVein 1 e.qp = none
      ∧ (let s := withQp {} (fetched e.raw); (s.pl.qp e.qp).state ≠ .ready ∧ (s.pl.qp e.qp).state ≠ .connecting)
      ∧ e.qp ∉ s.pl.xpt.destroying
      ∧ (let s := withPl (fun d => { d with xpt := { d.xpt with destroying := [7] } }) s
         Startable s 0 0 e ∧ (s.pl.qp e.qp).state = .ready ∧ e.qp ∈ s.pl.xpt.destroying)
      ∧ (let s := withQp { qp7 with state := .connecting } (fetched e.raw); Startable s 0 0 e ∧ (s.pl.qp e.qp).state = .connecting)
      ∧ (let s := withQp { qp7 with resident := false } (fetched e.raw)
         Startable s 0 0 e ∧ (s.pl.qp e.qp).resident = false ∧ (s.pl.qp e.qp).state = .ready)
      ∧ (withQp { qp7 with caps := 0 } s |>.pl.qp e.qp).caps.getLsbD 2 = false
      ∧ (let e := entryOf (xferRaw op 0x1001 (2 ^ 57 - 0x1000)); e.inline = false ∧ ¬ getLe e.raw 16 8 + getLe e.raw 12 4 ≤ 2 ^ 57)) := by
  decide +kernel

/-- WINDOW_OPEN or WINDOW_REVOKE of a handle, for `base` to `base + len`. -/
def winRaw (op handle base len : Nat) : List Byte := [BitVec.ofNat 8 op, 1, 7, 0, 0, 0, 0, 0] ++ leBytes 4 handle ++ [7, 0, 0, 0] ++ leBytes 8 base
  ++ leBytes 8 len ++ List.replicate 32 0
def withWin (w : Window) (s : State) : State := withPl (fun d => { d with wins := [(1023, w)] }) s
def win3 : Window := { state := .isOpen, part := 3, len := 0x2000, rights := 7, gen := 0xFFF }

theorem witness_WindowsOpenAndClose : (let e := entryOf (winRaw 0x10 1023 (2 ^ 57 - 0x2000) 0x2000)
    let s := fetched e.raw
    let r := (s.pl.part (s.pl.wrgPart 0)).wins
    let n := getLe e.raw 8 4 % 2 ^ 20
    Quiet s ∧ Startable s 0 0 e ∧ CompRing s 0 ∧ e.nocomp = false ∧ e.opcode = 0x10 ∧ r.base * 1024 ≤ n ∧ n < (r.base + r.count) * 1024
      ∧ (s.pl.win n).state = .closed ∧ getLe e.raw 16 8 + getLe e.raw 24 8 ≤ 2 ^ 57 ∧ (r.base + r.count) * 1024 ≤ 1024)
    ∧ (let e := entryOf (winRaw 0x11 (0xFFF * 2 ^ 20 + 1023) 0 0)
       let s := withWin win3 (fetched e.raw)
       Startable s 0 0 e ∧ e.opcode = 0x11 ∧ getLe e.raw 8 4 / 2 ^ 20 = win3.gen.toNat ∧ (s.pl.win (getLe e.raw 8 4 % 2 ^ 20)) = win3
         ∧ win3.state = .isOpen ∧ win3.part = s.pl.wrgPart 0 ∧ win3.inflight = 0 ∧ { win3 with inflight := 1 }.inflight ≠ 0
         ∧ getLe e.raw 8 4 / 2 ^ 20 ≠ { win3 with gen := 0 }.gen.toNat)
    ∧ (let s := withWin { win3 with state := .closing, revoke := some (0, 0) } (fetched (winRaw 0x11 0 0 0) .running)
       let e := entryOf (winRaw 0x11 0 0 0) .running
       Quiet s ∧ (s.pl.win 1023).state = .closing ∧ (s.pl.win 1023).inflight = 0 ∧ (s.pl.win 1023).revoke = some (0, 0) ∧ s.pl.entry 0 0 = some e
         ∧ e.phase = .running ∧ e.timed = false ∧ e.lost = false ∧ e.nocomp = false ∧ CompRing s 0 ∧ (s.pl.win 0).state ≠ .closing) := by decide +kernel

/-- The third GiB goes to 10 GiB. -/
def mover (op mode : Nat) (phase : Phase := .fetched) : State :=
  fetched (if op = 0x1A then moveRaw op mode 0 0x40000000 0x80000000000 else moveRaw op mode 0x80000000 0x40000000 0x280000000) phase
/-- Tables in which the first GiB is MOVING; a page so large is not copied in a test, so its leaf is all that the witness reads. -/
def moving (s : State) : State := withPl (fun d => { d with mem := Mem.writeN d.mem 0x200004000 (pte 0x53 0x240000000) }) s

theorem witness_PagesMoveAndTranslationsDrop :
    (∀ x ∈ [(0x19, 0), (0x1A, 0)], let s := mover x.1 x.2
      let e := (s.pl.ring 0).fetched.headD (entryOf [])
      Quiet s ∧ Startable s 0 0 e ∧ e.timed = false ∧ e.nocomp = false ∧ e.lost = false ∧ SMap.wf [] s.pl.cache = true ∧ SMap.wf [] s.pl.pointers = true
        ∧ e.opcode = x.1 ∧ getByte e.raw 8 = x.2 ∧ CompRing s 0 ∧ getLe e.raw 16 8 + getLe e.raw 24 8 ≤ 2 ^ 57
        ∧ leafIs (walk s.ctl s.pl 3 (getLe e.raw 16 8)) (fun l => decide (moveOk s.ctl 3 e l = true ∧ l.pte.moving = false)) = true
        ∧ (leafEntry s.ctl s.pl 3 (getLe e.raw 16 8)).isSome = true) := by decide +kernel

theorem witness_PagesMoveAndTranslationsDrop_invalidate : (∀ m ∈ [0, 1], let e := entryOf (moveRaw 0x18 m 0 65536 0)
        Startable (fetched e.raw) 0 0 e ∧ e.opcode = 0x18 ∧ getByte e.raw 8 = m ∧ getLe e.raw 16 8 + getLe e.raw 24 8 ≤ 2 ^ 57
          ∧ SMap.wf [] (fetched e.raw).pl.cache = true
          ∧ (let s := fetched e.raw .running
             s.pl.entry 0 0 = some (entryOf e.raw .running) ∧ (∀ x ∈ s.pl.qps, x.2.part = 3 → x.2.places = [] ∧ x.2.resps = [] ∧ x.2.hostAtomics = [])
               ∧ s.pl.stg = [] ∧ s.ctl.job.veins = []
               ∧ (let s := withQp { qp7 with places := [{ psn := 0, ptype := 1, first := 0, bytes := [], part := 3, va := 65535, phys := [], since := 0 }] } s
                  ∃ x ∈ s.pl.qps, x.2.part = 3 ∧ ∃ y ∈ x.2.places, y.va < 0 + 65536 ∧ 0 < y.va + max 1 y.bytes.length))) := by decide +kernel

theorem witness_PagesMoveAndTranslationsDrop_pages : (let e := entryOf (moveRaw 0x1A 1 0x3FFF0000 65536 0)
       let s := fetched e.raw
       Startable s 0 0 e ∧ e.opcode = 0x1A ∧ getByte e.raw 8 = 1 ∧ 65536 ≤ getLe e.raw 24 8 ∧ getLe e.raw 16 8 + getLe e.raw 24 8 ≤ 2 ^ 57 ∧ e.progress < getLe e.raw 24 8
         ∧ leafIs (walk s.ctl s.pl 3 (getLe e.raw 16 8)) (fun l => decide (getLe e.raw 24 8 ≤ e.progress + (l.va + l.size - getLe e.raw 16 8))) = true)
    ∧ (let s := moving (mover 0x1A 0 .running)
       let e := (s.pl.ring 0).fetched.headD (entryOf [])
       s.pl.entry 0 0 = some e ∧ e.phase = .running ∧ s.pl.faults = [] ∧ s.pl.slotless = [] ∧ CompRing s 0
         ∧ leafIs (walk s.ctl s.pl 3 (getLe e.raw 16 8)) (fun l => decide (l.pte.moving = true ∧ inFlight s.ctl s.pl 3 l.va l.size = false ∧ regionOf l.pte.off = .stacked ∧ s.pl.poison = []
                ∧ getLe e.raw 24 8 ≤ e.progress + l.size)) = true
         ∧ (leafEntry s.ctl s.pl 3 (getLe e.raw 16 8)).isSome = true)
    ∧ (let e := entryOf (moveRaw 0x19 0 0 65536 0)
       let s := fetched e.raw
       leafIs (walk s.ctl s.pl 3 0) (fun l => decide (moveOk s.ctl 3 e l = false)) = true)
    ∧ (∀ op ∈ [0x18, 0x19, 0x1A], let e := entryOf (moveRaw op 0 (2 ^ 57 - 65535) 65536 0)
       Startable (fetched e.raw) 0 0 e ∧ CompRing (fetched e.raw) 0 ∧ e.opcode = op ∧ getByte e.raw 8 = 0
         ∧ 2 ^ 57 < getLe e.raw 16 8 + getLe e.raw 24 8) := by decide +kernel

/-- The first GiB, cached as slice 0 has it, is dropped by an INVALIDATE of its last byte, and so is no other partition's. -/
theorem test_invalidate_drops_the_overlap :
    let c (p : Nat) : CacheEnt := { part := p, va := 0, size := 0x40000000, lo := 0, hi := 0 }
    let s := withPl (fun d => { d with cache := [(0, [c 3, c 4])] }) (fetched (moveRaw 0x18 0 0x3FFFFFFF 1 0))
    (after (.invalidateRange 0 0) s).pl.leaves 0 = [c 4] := by decide +kernel

/-- A collective of kind `k` on communicator `comm`. -/
def collRaw (comm kind : Nat) : List Byte := [0x20, 2, 7, 0, 0, 0, 0, 0] ++ leBytes 2 comm ++ [BitVec.ofNat 8 kind, 1, 0, 0, 0, 0] ++ List.replicate 80 0
def veinRaw : List Byte := [0x28, 1, 7, 0, 0, 0, 0, 0, 4, 0, 0, 0, 0, 0, 0, 0] ++ leBytes 8 0 ++ leBytes 8 256 ++ leBytes 8 0x1000 ++ leBytes 8 4096
  ++ List.replicate 16 0
/-- A timed FENCE for the given ticks. -/
def timedRaw (op launch deadline : Nat) : List Byte := [BitVec.ofNat 8 op, 9, 7, 0, 0, 0, 0, 0] ++ List.replicate 40 0 ++ leBytes 8 launch ++ leBytes 8 deadline
def vein4 : VeinRec := { vein := 4, part := 3, binding := 0, bindArg := 0, stages := [] }
def veined (s : State) : State :=
  withPl (fun d => { d with veins := [(4, { state := .ready, runs := [{ ring := 0, index := 9, src := 0, srcLen := 64, dst := 0, dstLen := 64, fed := 64, arg := 0, tag := 0, part := 3 }] })] })
    (onCtl (fun c => { c with image := some { image with job := { image.job with veins := [vein4] } } }) s)

theorem witness_CollectivesVeinsAndTimedEntriesStart :
    (∀ kind ∈ [1, 2, 3, 4, 5, 6, 7, 8], let e := entryOf (collRaw 2 kind)
      let s := fetched e.raw
      Quiet s ∧ Startable s 0 0 e ∧ e.opcode = 0x20 ∧ getByte e.raw 10 = kind ∧ (commOf s.ctl (getLe e.raw 8 2) 3).isSome = true ∧ CompRing s 0
        ∧ commOf s.ctl (getLe (collRaw 3 kind) 8 2) 3 = none)
    ∧ (let e := entryOf veinRaw
       let s := veined (fetched e.raw)
       Startable s 0 0 e ∧ e.opcode = 0x28 ∧ getByte e.raw 8 = 4 ∧ s.ctl.veinRec 4 = some vein4 ∧ (s.pl.vein 4).state = .ready
         ∧ (∀ y ∈ (s.pl.vein 4).runs, y.srcLen ≤ y.fed) ∧ (fetched e.raw).ctl.veinRec 4 = none) := by decide +kernel

theorem witness_CollectivesVeinsAndTimedEntriesStart_timed : (let e := entryOf ([0x30, 0, 7, 0] ++ List.replicate 28 0); Startable (fetched e.raw) 0 0 e ∧ e.opcode = 0x30 ∧ e.nocomp = false)
    ∧ (let e := entryOf ([0x30, 0x80, 7, 0] ++ List.replicate 28 0); Startable (fetched e.raw) 0 0 e ∧ e.nocomp = true)
    ∧ (let e := entryOf (timedRaw 0x30 40000008000 (2 ^ 64 - 1))
       let s := fetched e.raw
       s.pl.entry 0 0 = some e ∧ e.timed = true ∧ e.lost = false ∧ e.phase = .fetched ∧ canStart (s.pl.ring 0) e = true ∧ behindQp (s.pl.ring 0) e = false
         ∧ 8000 ≤ (e.launch : Int) - s.ctl.lod.tick.toNat ∧ (e.launch : Int) - s.ctl.lod.tick.toNat ≤ bits (s.pl.reg Reg.lodCfg) 31 16 * 4000000)
    ∧ (let e := entryOf (timedRaw 0x30 40000007999 40000000001)
       let s := fetched e.raw
       (e.launch : Int) - s.ctl.lod.tick.toNat < 8000 ∧ s.ctl.lod.tick.toNat < e.deadline ∧ CompRing s 0 ∧ e.opcode ≠ 0x20)
    ∧ (let e := entryOf (collRaw 2 1 |>.set 1 0xA) .timed
       let s := fetched e.raw .timed
       s.pl.entry 0 0 = some e ∧ e.phase = .timed ∧ e.launch ≤ s.ctl.lod.tick.toNat ∧ behindQp (s.pl.ring 0) e = false ∧ e.opcode = 0x20
         ∧ (commOf s.ctl (getLe e.raw 8 2) 3).isSome = true)
    ∧ (let e := entryOf (timedRaw 0x30 0 40000000000)
       e.timed = true ∧ e.deadline ≠ 2 ^ 64 - 1 ∧ e.missed = false ∧ e.deadline ≤ svc.ctl.lod.tick.toNat) := by decide +kernel

end Sys2Proof.Tests
end

