-- ==== Sys2Proof/Tests/Packets.lean ====
section
/-! SUPPORT. Packets of a peer and queue pairs that meet the hypotheses of the statements about the transport, connections, fences
and queue-pair commands. -/
namespace Sys2Proof.Tests
open Sys2Proof Sys2Proof.Machine
set_option Elab.async false

/-- A packet of node 5's queue pair 9 for queue pair 7. -/
def wpkt (ptype : Nat) (psn : BitVec 32) (ext payload : List Byte) : Pkt :=
  { ptype := ptype, dst := 1, src := 5, dstQp := 7, srcQp := 9, inc := 7, psn := psn, msgLen := payload.length, ext := ext, payload := payload }
def winExt (handle off : Nat) : List Byte := beBytes 4 handle ++ [0, 0, 0, 0] ++ beBytes 8 off
def handle3 : Nat := 0xFFF * 2 ^ 20 + 1023
def bytes64 : List Byte := List.replicate 64 0xA5

/-- Queue pair 7 is READY, window 1023 open, completion ring 1 empty. -/
def paired : State := withWin win3 (withQp qp7 ringed)
def wrote (ptype : Nat) (psn : BitVec 32) : Pkt := wpkt ptype psn (winExt handle3 0x1FC0) bytes64
def srq6 (len : Nat) (s : State) : State :=
  withPl (fun d => regsOf [(Reg.wrg 0 8, 0x800476), (Reg.wrg 0 0xC, 6)] { d with
    rings := [(0, { state := .enabled, descs := [{ index := 0, tag := 9, va := 0x1000, len := len }] })] }) s

theorem witness_DataPacketsArePlaced : (∀ ptype ∈ [1, 2], let s := paired
    let p := wrote ptype 0
    let q := s.pl.qp 7
    Quiet s ∧ PeerPacket s (gframe 3 p) (gframe 3 p).frame.body false p ∧ s.ctl.boundVein 0 7 = none ∧ NewPsn q p.psn ∧ s.ctl.dev.pcieUp = true
      ∧ winCause s.pl (BitVec.ofNat 32 (getBe p.ext 0 4)) 7 q.part q.peerNode .write (getBe p.ext 8 8 + p.offset) p.payload.length = none
      ∧ (s.pl.cq q.cq).enabled = true ∧ 0 < s.pl.cqFree q.cq
      ∧ (translateRange s.ctl s.pl q.home q.part ((s.pl.win (getBe p.ext 0 4 % 2 ^ 20)).base + (getBe p.ext 8 8 + p.offset)) p.payload.length true).1.isOk = true
      ∧ q.rxMsgs = []) := by decide +kernel

theorem witness_DataPacketsArePlaced_refused : (∀ ptype ∈ [1, 2, 5], let p := wpkt ptype 16 (if ptype = 5 then List.replicate 8 0 else winExt handle3 0x1FC0) bytes64
      PeerPacket paired (gframe 3 p) (gframe 3 p).frame.body false p ∧ qp7.window ≤ psnDist p.psn qp7.recvPsn ∧ psnDist p.psn qp7.recvPsn < 2 ^ 31)
    ∧ (let p := wrote 1 (2 ^ 32 - 1); PeerPacket paired (gframe 3 p) (gframe 3 p).frame.body false p ∧ 2 ^ 31 ≤ psnDist p.psn qp7.recvPsn)
    ∧ (let s := withQp { qp7 with got := [(15, 0)] } paired
       let p := wrote 1 15
       PeerPacket s (gframe 3 p) (gframe 3 p).frame.body false p ∧ psnDist p.psn (s.pl.qp 7).recvPsn < (s.pl.qp 7).window ∧ ∃ g ∈ (s.pl.qp 7).got, g.1 = p.psn)
    ∧ (winCause paired.pl (BitVec.ofNat 32 handle3) 7 3 5 .write 0x1FC1 64).isSome = true 
    ∧ (withPl (fun d => { d with cqs := [(1, { enabled := true, pending := 64 })] }) paired).pl.cqFree 1 = 0
    ∧ ((withPl (fun d => { d with cqs := [] }) paired).pl.cq 1).enabled = false := by decide +kernel

theorem witness_DataPacketsArePlaced_rings : HostRings paired ∧ ∀ len, HostRings (srq6 len (withQp { qp7 with srq := 6 } paired)) := by
  refine ⟨hostRings_of _ ?_, fun len => hostRings_of _ ?_⟩
  · show ∀ x ∈ ringed.pl.regs, x.1 < 0x2080000 ∨ flag x.2 0 = false
    decide +kernel
  · show ∀ x ∈ (regsOf [(Reg.wrg 0 8, 0x800476), (Reg.wrg 0 0xC, 6)] ringed.pl).regs, x.1 < 0x2080000 ∨ flag x.2 0 = false
    decide +kernel

theorem witness_DataPacketsArePlaced_send : (∀ len ∈ [63, 64], let s := srq6 len (withQp { qp7 with srq := 6 } paired)
    let p := wpkt 5 0 (List.replicate 8 0) bytes64
    let q := s.pl.qp 7
    PeerPacket s (gframe 3 p) (gframe 3 p).frame.body false p ∧ NewPsn q p.psn ∧ p.psn = q.recvPsn ∧ p.offset = 0 ∧ q.rxMsgs = [] ∧ q.srq ≠ 0xFFFF
      ∧ (let s := withPl (fun d => { d with rings := [(0, { state := .error })] }) s
         s.pl.srqRing q.srq = some 0 ∧ (s.pl.ring 0).descs = [] ∧ mayFetch s.ctl (s.pl.ring 0) = false)
      ∧ s.ctl.dev.pcieUp = true ∧ s.pl.srqRing q.srq = some 0 ∧ (s.pl.ring 0).descs = [{ index := 0, tag := 9, va := 0x1000, len := len }] ∧ p.msgLen = 64
      ∧ (translateRange s.ctl s.pl q.home q.part 0x1000 p.payload.length true).1.isOk = true) := by decide +kernel

def place0 : Placement := { psn := 0, ptype := 2, first := 0, bytes := bytes64, part := 3, va := 0x1000, phys := [(0x240001000, 64)], win := some 1023, since := 0 }
theorem witness_DataPacketsArePlaced_placed : (let s := withQp { qp7 with
      places := [place0], rxMsgs := [{ first := 0, count := 1, len := 64, ptype := 2, ring := 1, bytes := 64 }] } paired
    let q := s.pl.qp 7
    Quiet s ∧ s.ctl.dev.pcieUp = true ∧ s.pl.hostBad = [] ∧ q.places.find? (·.psn == 0) = some place0 ∧ q.got = [] ∧ (0 : BitVec 32) = q.recvPsn ∧ place0.first = 0 ∧ q.isSealed = false
      ∧ (∀ m ∈ q.rxMsgs, m.first = 0 ∧ m.count = 1 ∧ m.placed = 0 ∧ m.len = place0.bytes.length ∧ m.desc = none ∧ (s.pl.cq m.ring).enabled = true
          ∧ s.pl.ringLoc (Reg.cmp m.ring 0) = false) ∧ q.rxMsgs.length = 1 ∧ (∀ y ∈ q.places, y.psn ≠ 1)) := by decide +kernel

def readReq (len : Nat) : Pkt := { wpkt 3 0 (winExt handle3 0) [] with msgLen := len }
def atomicReq (wide cas : Byte) (psn : BitVec 32) : Pkt :=
  wpkt 6 psn (beBytes 4 handle3 |>.append ([cas, wide, 0, 0] ++ beBytes 8 8 ++ beBytes 8 5 ++ beBytes 8 6)) []

theorem witness_ReadsAndAtomicsAreAnswered : (let s := paired
    let p := readReq 0x2000
    let q := s.pl.qp 7
    PeerPacket s (gframe 3 p) (gframe 3 p).frame.body false p ∧ NextPsn q p.psn ∧ p.offset = 0 ∧ s.ctl.boundVein 0 7 = none ∧ 0 < q.payload
      ∧ max 1 (ceilDiv p.msgLen q.payload) ≤ 2048 ∧ s.ctl.dev.pcieUp = true
      ∧ winCause s.pl (BitVec.ofNat 32 (getBe p.ext 0 4)) 7 q.part q.peerNode .read (getBe p.ext 8 8) p.msgLen = none
      ∧ (translateRange s.ctl s.pl q.home q.part ((s.pl.win 1023).base + getBe p.ext 8 8) p.msgLen false).1.isOk = true)
    ∧ (let m : Msg := { ring := 0, index := 0, ptype := 3, first := 0, count := 1, len := 64, va := 0x1000 }
       let s := withQp { qp7 with msgs := [m], sendPsn := 1, tailPsn := 1, psns := [(0, { sent := 1 })] } paired
       let p := wpkt 4 0 [] bytes64
       let q := s.pl.qp 7
       PeerPacket s (gframe 3 p) (gframe 3 p).frame.body false p ∧ p.ptype = 4 ∧ 7 ∉ s.pl.xpt.destroying ∧ s.ctl.dev.pcieUp = true
         ∧ msgOf q p.psn = some m ∧ m.ptype = 3 ∧ m.ring < 8192 ∧ q.sentPsn p.psn = true ∧ q.donePsn p.psn = false
         ∧ (translateRange s.ctl s.pl q.home q.part (m.va + psnDist p.psn m.first * q.payload) 64 true).1.isOk = true) := by decide +kernel

def lands (r : Region → Bool) (s : State) (va n : Nat) : Bool :=
  match (translateRange s.ctl s.pl 0 3 va n true).1 with
  | .ok [(a, k)] => r (regionOf a) && ((readLocal s.ctl s.pl (ownerFn s.pl 3) a k).1.isSome || r .host)
  | _ => false

theorem witness_ReadsAndAtomicsAreAnswered_atomics : (let s := paired
    let p := atomicReq 1 0 0
    let q := s.pl.qp 7
    PeerPacket s (gframe 3 p) (gframe 3 p).frame.body false p ∧ NextPsn q p.psn ∧ p.offset = 0 ∧ getByte p.ext 5 = 1 ∧ getByte p.ext 4 = 0
      ∧ winCause s.pl (BitVec.ofNat 32 (getBe p.ext 0 4)) 7 q.part q.peerNode .atomic (getBe p.ext 8 8) 8 = none
      ∧ lands (· == .stacked) s ((s.pl.win 1023).base + getBe p.ext 8 8) 8 = true) := by decide +kernel

theorem witness_ReadsAndAtomicsAreAnswered_hostAtomics : (let s := withWin { win3 with base := 0x80000000 } paired
       let p := atomicReq 0 1 0
       PeerPacket s (gframe 3 p) (gframe 3 p).frame.body false p
         ∧ lands (· == .host) s ((s.pl.win 1023).base + getBe p.ext 8 8) 4 = true)
    ∧ (let p := atomicReq 1 0 0xFFFFFFFF; PeerPacket paired (gframe 3 p) (gframe 3 p).frame.body false p ∧ 2 ^ 31 ≤ psnDist p.psn qp7.recvPsn) := by decide +kernel

def sentOne (ptype : Nat) : Qp :=
  { qp7 with msgs := [{ ring := 0, index := 0, ptype := ptype, first := 0, count := 1, len := 64 }], sendPsn := 1, tailPsn := 1, psns := [(0, { sent := 1 })] }
def running (op : Nat) (q : Qp) : State := withQp q (fetched (xferRaw op 64 0x1000) .running)

theorem witness_ReadsAndAtomicsAreAnswered_done : (let s := running 5 (sentOne 6)
    let p := wpkt 7 0 (beBytes 8 0x1234) []
    let q := s.pl.qp 7
    let e := entryOf (xferRaw 5 64 0x1000) .running
    PeerPacket s (gframe 3 p) (gframe 3 p).frame.body false p ∧ q.msgs = (sentOne 6).msgs ∧ q.msgs.length = 1 ∧ q.unaPsn = p.psn ∧ q.sendPsn = p.psn + 1
      ∧ (q.psnState p.psn).done = false ∧ 7 ∉ s.pl.xpt.destroying ∧ s.pl.entry 0 0 = some e ∧ e.phase = .running ∧ e.timed = false ∧ e.lost = false ∧ e.nocomp = false ∧ CompRing s 0)
    ∧ (let x : HostAtomic := { psn := 0, addr := 0x3000, wide := false, cas := true, opA := 5, opB := 6, win := 1023 }
       let s := withQp { qp7 with hostAtomics := [x] } paired
       let q := s.pl.qp 7
       Quiet s ∧ q.hostAtomics.find? (·.psn == 0) = some x ∧ q.got = [] ∧ q.rxMsgs = [] ∧ (0 : BitVec 32) = q.recvPsn ∧ q.isSealed = false
         ∧ ∀ x ∈ q.hostAtomics, x.psn ≠ 1) := by decide +kernel

def ackExt (code hint : Nat) (cum trigger : Nat) (map : Nat) : List Byte :=
  [BitVec.ofNat 8 code, 1] ++ beBytes 2 hint ++ beBytes 4 cum ++ beBytes 4 trigger ++ [0, 0, 0, 0] ++ beBytes 32 map
def sentFour : Qp := { qp7 with msgs := [{ ring := 0, index := 0, ptype := 1, first := 0, count := 4, len := 0x4000 }], sendPsn := 4, tailPsn := 4
                                psns := [(0, { sent := 1 }), (1, { sent := 1 }), (2, { sent := 1 }), (3, { sent := 1, busy := 1, busyAt := 9 })] }

theorem witness_AcknowledgementsRetirePackets : (∀ code ∈ [0, 1], let s := running 1 sentFour
    let p := wpkt 8 0 (ackExt code 0 1 0 2) []
    let q := s.pl.qp 7
    PeerPacket s (gframe 3 p) (gframe 3 p).frame.body false p ∧ p.ptype = 8 ∧ 7 ∉ s.pl.xpt.destroying ∧ getByte p.ext 0 = code ∧ q.sentPsn 0 = true ∧ 0 < (q.psnState 0).sent
      ∧ (0 < psnDist 1 0 ∧ psnDist 1 0 < 2 ^ 31) ∧ psnDist 3 1 = 1 + 1 ∧ (beNat (slice p.ext 16 32)).testBit 1 = true
      ∧ (0 < (q.psnState 2).sent ∧ (q.psnState 2).done = false ∧ (q.psnState 2).resentAt = 0 ∧ (q.psnState 2).busyWait = false ∧ q.donePsn 2 = false
          ∧ psnDist 2 1 < 256 ∧ psnDist 2 1 ≤ 1 ∧ (1 : Nat) < 256 ∧ (beNat (slice p.ext 16 32)).testBit (psnDist 2 1 - 1) = false)
      ∧ ∀ x ∈ [0, 2, 3], (msgOf q (BitVec.ofNat 32 x)).map (·.ptype) = some 1)
    := by decide +kernel

theorem witness_AcknowledgementsRetirePackets_entry : (let s := running 1 (sentOne 1)
       let p := wpkt 8 0 (ackExt 0 0 1 0 0) []
       let q := s.pl.qp 7
       PeerPacket s (gframe 3 p) (gframe 3 p).frame.body false p ∧ q.msgs = (sentOne 1).msgs ∧ q.unaPsn = 0 ∧ q.sendPsn = q.unaPsn + 1
         ∧ q.psns = [(q.unaPsn.toNat, { sent := 1 })] ∧ (let e := entryOf (xferRaw 1 64 0x1000) .running; s.pl.entry 0 0 = some e ∧ e.timed = false ∧ e.lost = false ∧ e.nocomp = false) ∧ CompRing s 0) := by decide +kernel

theorem witness_AcknowledgementsRetirePackets_codes : (let s := running 1 sentFour
    let q := s.pl.qp 7
    (∀ code ∈ [2, 3, 5], let p := wpkt 8 0 (ackExt code 1024 0 3 0) []; PeerPacket s (gframe 3 p) (gframe 3 p).frame.body false p ∧ getByte p.ext 0 = code)
      ∧ q.sentPsn 3 = true ∧ (q.psnState 3).done = false ∧ (msgOf q 3).isSome = true ∧ q.sentPsn 4 = false) := by decide +kernel

/-! ### Timers, connections, fences -/

theorem witness_TransportTimersFire : (let s := withQp { qp7 with ackCount := 1, ackFor := 500, ackSince := 9999999500, got := [(3, 0)] } paired
    let q := s.pl.qp 7
    Quiet s ∧ q.ackCount ≠ 0 ∧ q.state = .ready ∧ q.ackSince + q.ackFor ≤ s.ctl.ns ∧ q.got = [(3, 0)] ∧ q.gapOn = false
      ∧ q.resident = true ∧ (0 : Nat) ≤ s.ctl.ns ∧ s.ctl.ns < 10000000001
      ∧ q.lastQuiet + bits (s.pl.reg Reg.paceLimits) 31 16 * 1000 ≤ s.ctl.ns ∧ q.epochAt + 16000000 ≤ s.ctl.ns)
    ∧ (∀ n ∈ [14, 15], let s := withQp { sentOne 1 with timerOn := true, timerAt := 10000000000, retries := n } paired
       let q := s.pl.qp 7
       q.timerOn = true ∧ q.timerAt ≤ s.ctl.ns ∧ (q.psnState q.unaPsn).busyWait = false ∧ q.retries = n ∧ q.state ≠ .error)
    ∧ (let q := { sentOne 3 with state := .error, timerOn := true, timerAt := 10000000000, retries := 15 }
       let s := withQp q paired
       (s.pl.qp 7).timerAt ≤ s.ctl.ns ∧ 15 ≤ (s.pl.qp 7).retries ∧ (s.pl.qp 7).state = .error ∧ (msgOf q 0).map (·.ptype) = some 3
         ∧ psnDist 0 0 < 1 ∧ 0 < (q.psnState 0).sent ∧ (q.psnState 0).done = false ∧ (q.psnState 0).busyWait = false)
    ∧ (let s := withQp { sentOne 1 with resident := false, timerOn := true, timerAt := 10000000000 } paired
       let q := s.pl.qp 7
       q.resident = false ∧ q.timerAt ≤ s.ctl.ns ∧ q.retries < 15 ∧ (s.pl.flow 7).place = .idle
         ∧ hasWork (q.setPsn 0 { q.psnState 0 with due := true }) = true)
    ∧ (let s := withQp { sentOne 1 with psns := [(0, { sent := 1, busy := 1, busyAt := 0, busyWait := true, busyUntil := 10000000000, busyFor := 10000000000 })], timerLeft := some 5 } paired
       let x := (s.pl.qp 7).psnState 0
       x.busyWait = true ∧ x.busyUntil ≤ s.ctl.ns ∧ x.busy ≠ 0 ∧ x.done = false ∧ x.busyFor ≤ s.ctl.ns - x.busyAt
         ∧ (0 : BitVec 32) = (s.pl.qp 7).unaPsn ∧ (s.pl.qp 7).timerLeft = some 5)
    ∧ (∀ n ∈ [14, 15], let s := withQp { qp7 with state := .connecting, timerAt := 10000000000, retries := n } paired
       (s.pl.qp 7).state = .connecting ∧ (s.pl.qp 7).timerAt ≤ s.ctl.ns ∧ (s.pl.qp 7).retries = n ∧ (s.pl.qp 7).resident = true)
    ∧ (let s := withQp { qp7 with state := .connecting, resident := false } paired
       (s.pl.qp 7).state = .connecting ∧ (s.pl.qp 7).timerAt ≤ s.ctl.ns ∧ (s.pl.qp 7).resident = false)
    ∧ (paired.pl.wheel 0).cursor ≠ paired.ctl.ns / 32 % 4096 ∧ ((paired.pl.wheel 0).cursor + 1) % 4096 ≠ 0 ∧ (paired.pl.wheel 0).waiting = []
    ∧ (withPl (fun d => d.setWheel 0 { d.wheel 0 with cursor := 10000000000 / 32 % 4096 }) paired |>.pl.wheel 0).cursor = paired.ctl.ns / 32 % 4096 := by
  decide +kernel

def offer (version payload window : Nat) : List Byte := beBytes 2 version ++ beBytes 2 payload ++ beBytes 2 window ++ beBytes 2 0 ++ beBytes 8 0x1F
  ++ beBytes 4 77 ++ List.replicate 12 0
def connecting : State := withQp { qp7 with state := .connecting } paired

theorem witness_ConnectionManagementAndFencePackets : (∀ x ∈ [(0x10, 256, 1), (0x11, 8192, 2048), (0x10, 255, 1), (0x11, 8192, 2049)],
    let p := wpkt x.1 0 (offer 2 x.2.1 x.2.2) []
    let o := offerOf p.ext
    PacketIn connecting (gframe 3 p) (gframe 3 p).frame.body false p ∧ Unfenced connecting p ∧ rawSealed (gframe 3 p).frame.body = false ∧ p.dstQp ∉ connecting.pl.xpt.destroying ∧ p.dstQp < 2 ^ 20 ∧ (connecting.pl.qp 7).resident = true
      ∧ (∀ y ∈ connecting.pl.parked (connecting.pl.qp 7).home, y.1 ≠ 7) ∧ (connecting.pl.qp 7).state = .connecting
      ∧ (connecting.pl.qp 7).peerNode = p.src ∧ (connecting.pl.qp 7).peerQp = p.srcQp ∧ o.version = true ∧ o.isSealed = false
      ∧ (256 ≤ o.payload ∧ o.payload ≤ 8192 ∧ o.payload % 256 = 0 ∧ 1 ≤ o.window ∧ o.window ≤ 2048 ↔ x.2 = (256, 1) ∨ x.2 = (8192, 2048))) := by decide +kernel

theorem witness_ConnectionManagementAndFencePackets_others : (∀ code ∈ [0, 1, 2], let p := wpkt 0x12 0 (BitVec.ofNat 8 code :: List.replicate 7 0) []
       PacketIn connecting (gframe 3 p) (gframe 3 p).frame.body false p ∧ Unfenced connecting p ∧ rawSealed (gframe 3 p).frame.body = false
         ∧ getByte p.ext 0 = code)
    ∧ (let p := wpkt 0x13 0 [] []; PeerPacket paired (gframe 3 p) (gframe 3 p).frame.body false p)
    ∧ (let p := wpkt 0x10 0 (offer 2 4096 16) []; PacketIn paired (gframe 3 p) (gframe 3 p).frame.body false p ∧ (paired.pl.qp 7).state ≠ .connecting) := by decide +kernel

def mgmtExt (req op count addr : Nat) : List Byte := beBytes 4 req ++ [BitVec.ofNat 8 op, BitVec.ofNat 8 count, 0, 0] ++ beBytes 8 addr
def inband : State := onOwn (fun o => { o with inbandValid := true, inbandNode := 5 }) svc
def mgmt1 (count addr : Nat) : Mgmt := { node := 5, qp := 9, reqId := 4, op := 1, count := count, address := addr }

theorem witness_ConnectionManagementAndFencePackets_mgmt : (let p := wpkt 0x14 0 (mgmtExt 4 1 1 0x4) []
    PacketIn inband (gframe 3 p) (gframe 3 p).frame.body false p ∧ Unfenced inband p ∧ rawSealed (gframe 3 p).frame.body = false ∧ inband.ctl.own.inbandValid = true ∧ inband.ctl.own.inbandNode.toNat = p.src
      ∧ inband.pl.xpt.mgmtKept = [] ∧ inband.pl.xpt.mgmtQueue.length < 16 ∧ svc.ctl.own.inbandValid = false)
    ∧ (let p := wpkt 0x15 0 (mgmtExt 4 1 1 0x4) []; PacketIn inband (gframe 3 p) (gframe 3 p).frame.body false p)
    ∧ inband.ctl.dev.state.booted = true ∧ inband.ctl.dev.inReset = false ∧ inband.pl.xpt.mgmtQueue = []
    ∧ (let s := withPl (fun d => { d with xpt := { d.xpt with mgmtQueue := [mgmt1 1 4], mgmtKept := [mgmt1 1 4] } }) inband
       Quiet s ∧ s.pl.xpt.mgmtQueue = [mgmt1 1 4] ∧ s.pl.xpt.mgmtKept.find? (·.reqId == (mgmt1 1 4).reqId) = some (mgmt1 1 4))
    ∧ (let s := withPl (fun d => { d with xpt := { d.xpt with mgmtQueue := [mgmt1 1 4] } }) inband
       let r := readBar { s with pl := { s.pl with xpt := { s.pl.xpt with mgmtQueue := [] } } } 3 4
       s.pl.xpt.mgmtKept = [] ∧ mgmtStatus (mgmt1 1 4) = 0 ∧ r.2.ctl.dev.inReset = false ∧ r.2.pl.effects = [])
    ∧ mgmtStatus (mgmt1 1 0x3FFFFFC) = 0 ∧ quantityOf 0x3FFFFFC = none ∧ mgmtStatus (mgmt1 2 0x3FFFFFC) = 2 ∧ mgmtStatus (mgmt1 65 0) = 3
    ∧ mgmtStatus (mgmt1 1 2) = 1 := by decide +kernel

def fencePkt (node inc epoch : Nat) : Pkt := { wpkt 0x18 0 (beBytes 4 node ++ beBytes 2 inc ++ [0, 0] ++ beBytes 4 epoch ++ [0, 0, 0, 0]) [] with tc := 7 }
def fenced (r : FenceRec) : State := withPl (fun d => { d with xpt := { d.xpt with fences := [(1, r)] } }) paired
def me : State := onDev (fun x => { x with incarnation := 0xFFFF }) paired

theorem witness_ConnectionManagementAndFencePackets_fences : (let p := fencePkt 5 8 2
    PacketIn paired (gframe 3 p) (gframe 3 p).frame.body false p ∧ getBe p.ext 0 4 % 2 ^ 20 ≠ paired.ctl.selfNode ∧ paired.ctl.memberIndex 5 = some 1
      ∧ (paired.pl.fenceRec 1).valid = false ∧ (paired.pl.qp 7).state ≠ .free ∧ (paired.pl.qp 7).peerNode = 5 ∧ (paired.pl.qp 7).resident = true
      ∧ 7 ∉ paired.pl.xpt.destroying)
    ∧ (let p := fencePkt 5 8 2
       (∀ inc ∈ [7, 8, 9], PacketIn (fenced { valid := true, inc := BitVec.ofNat 16 inc, epoch := 1 }) (gframe 3 p) (gframe 3 p).frame.body false p)
         ∧ newer 8 7 = true ∧ newer 8 9 = false ∧ newer 8 8 = false)
    ∧ (let p := fencePkt 1 0xFFFF 1
       PacketIn me (gframe 3 p) (gframe 3 p).frame.body false p ∧ me.ctl.selfNode = 1 ∧ (me.ctl.memberIndex 1).isSome = true ∧ me.ctl.dev.incarnation = 0xFFFF
         ∧ me.ctl.maySpeak = true)
    ∧ (let p := wpkt 8 0 (ackExt 4 0 0xFFFF 0 0) []
       PacketIn me (gframe 3 p) (gframe 3 p).frame.body false p ∧ Unfenced me p ∧ rawSealed (gframe 3 p).frame.body = false ∧ me.ctl.maySpeak = true
         ∧ getBe p.ext 4 4 % 2 ^ 16 = me.ctl.dev.incarnation.toNat ∧ getByte p.ext 0 = 4) := by decide +kernel

/-! ### Queue-pair commands -/

/-- An image for CREATE; the buffer is at 0x40000 of host memory, the backing regions in stacked memory at 10 GiB. -/
def image7 : List Byte := qpImage { qp7 with state := .init, peerInc := 0, caps := 0, version := 0 } |>.set 0 0
def commandable (bs : List Byte) : State :=
  withPl (fun d => regsOf [(Reg.qpBuf, 0x40000), (Reg.region 0, 0x80000003), (Reg.region 0 + 4, 2)] { d with host := Mem.writeN [] 0x40000 bs }) ringed

theorem witness_QueuePairCommandsAct : (let s := commandable image7
    let b := qpBufOf s.pl 0
    Quiet s ∧ Accepted s .pcie 0x400000 ∧ (s.pl.qpCmd 0).busy = false ∧ (∀ x ∈ s.pl.hostBad, x.fn ≠ some 0) ∧ qpQuota s.pl 0 7 = some 3 ∧ qpQuota s.pl 0 1023 = some 3 ∧ qpQuota s.pl 0 1024 = none
      ∧ (s.pl.qp 7).state = .free ∧ (regionOfQp s.pl 7).1 = true ∧ (regionOfQp s.pl 65536).1 = false ∧ b.1 = false ∧ readBus s.ctl s.pl 0 b.2 256 = some image7) := by decide +kernel

theorem witness_QueuePairCommandsAct_create : (let s := commandable image7
    let b := qpBufOf s.pl 0
    qpFieldBad s.ctl s.pl 3 false image7 = none ∧ (qpFromImage image7).pin = false ∧ pinned s.pl 0 < 2048
      ∧ qpFieldBad s.ctl s.pl 3 false (image7.set 255 1) = some 106 ∧ qpFieldBad s.ctl s.pl 3 false (image7.set 2 7) = some 2 ∧ s.ctl.dev.pcieUp = true
      ∧ (let s := onDev (fun x => { x with pcieUp := false }) s; s.ctl.dev.pcieUp = false ∧ readBus s.ctl s.pl 0 b.2 256 = none)
      ∧ (withPl (fun d => d.setQpCmd 0 { busy := true }) s |>.pl.qpCmd 0).busy = true) := by decide +kernel

theorem witness_QueuePairCommandsAct_states : (let s := withQp qp7 (commandable image7)
    (s.pl.qp 7).state ≠ .free ∧ (s.pl.qp 7).resident = true ∧ (s.pl.qp 7).state ≠ .init ∧ (s.pl.qp 7).state ≠ .error
      ∧ evictable s.pl 7 (s.pl.qp 7) = true ∧ 7 ∉ s.pl.xpt.cancelled ∧ evictable s.pl 7 { qp7 with pin := true } = false
      ∧ (withQp { qp7 with resident := false } s |>.pl.qp 7).resident = false ∧ qpSoft true (qpFromImage image7) ≠ qpSoft true { qp7 with home := 1 }
      ∧ qpSoft true (qpFromImage image7) = qpSoft true { qp7 with localIp := List.replicate 16 0, peerIp := List.replicate 16 0 } ∧ qpFieldBad s.ctl s.pl 3 true image7 = none
      ∧ 7 ∉ s.pl.xpt.destroying ∧ (s.pl.qp 7).msgs = [])
    ∧ (let s := withQp sentFour (commandable image7)
       let m := (s.pl.qp 7).msgs.headD { ring := 0, index := 0, ptype := 1, first := 0, count := 0, len := 0 }
       (s.pl.qp 7).msgs = [m] ∧ m.first = (s.pl.qp 7).unaPsn ∧ (s.pl.qp 7).sendPsn = m.first + BitVec.ofNat 32 m.count
         ∧ doneOf (s.pl.qp 7) m < m.count ∧ m.count < 2 ^ 31 ∧ m.ring < 8192)
    ∧ (let s := withQp { qp7 with state := .init, offerCaps := 0 } (commandable image7)
       (s.pl.qp 7).state = .init ∧ (hopTo s.ctl s.pl (s.pl.qp 7) (s.pl.qp 7).peerNode 7 9).isSome = true)
    ∧ (withQp { qp7 with state := .error } (commandable image7) |>.pl.qp 7).state = .error := by decide +kernel

theorem witness_QueuePairCommandsAct_residency : (let s := withPl (fun d => { d with xpt := { d.xpt with fetching := [7] } }) (withQp { qp7 with resident := false } (commandable image7))
       Quiet s ∧ 7 ∈ s.pl.xpt.fetching ∧ fetchRuns s.pl 7 = true ∧ s.pl.xpt.cmds = []
         ∧ (readLoc s.ctl s.pl 0 (regionOfQp s.pl 7).2.1 (contextAddr s.pl 7) 1024).1.isSome = true ∧ (s.pl.qp 7).fenceDue = none
         ∧ s.pl.parked (s.pl.qp 7).home = [] ∧ entriesOf s.pl 7 = []
         ∧ (s.pl.qp 7).ackCount = 0 ∧ (s.pl.qp 7).got = [] ∧ (s.pl.qp 7).state ≠ .connecting)
    ∧ (let s := withPl (fun d => { d with xpt := { d.xpt with writeback := [7] } }) (withQp qp7 (commandable image7)); 7 ∈ s.pl.xpt.writeback)
    ∧ (let s := withPl (fun d => { d with xpt := { d.xpt with cancelled := [7] } }) (withQp qp7 (commandable image7))
       7 ∉ s.pl.xpt.writeback ∧ 7 ∈ s.pl.xpt.cancelled) := by decide +kernel

end Sys2Proof.Tests
end

