-- ==== Sys2Proof/Tests/Blocks.lean ====
section
/-! SUPPORT. States and operands that meet the hypotheses of the statements about time, collectives, veins, the cipher,
partitions, faults, wear and observation. -/
namespace Sys2Proof.Tests
open Sys2Proof Sys2Proof.Machine
set_option Elab.async false

/-! ### Time -/

def ad (serial : Nat) : Advert := { state := 4, priority := 0, serial := BitVec.ofNat 64 serial, node := 5, sender := 5, distance := 0, since := 9999600000 }
def timed (st : TimeState) (f : Lod → Lod) : State := onLod (fun l => f { l with state := st }) svc
def follower : State := timed .locked fun l => { l with parent := some 0, lastAt := 9999500000, recent := [8] }

theorem witness_TimeStatesMove : Quiet svc ∧ svc.ctl.maySpeak = true ∧ (svc.pl.port 0).group = true ∧ (svc.pl.port 0).peerOk = true ∧ (svc.pl.port 0).reqAt ≤ svc.ctl.ns
    ∧ (svc.pl.port 1).group = false
    ∧ (let s := withPort 0 (fun p => { p with advert := some { ad 1 with since := 9999499999 } }) follower
       (s.pl.port 0).advert = some { ad 1 with since := 9999499999 } ∧ 9999499999 + 500000 < s.ctl.ns ∧ s.ctl.lod.state = .locked
         ∧ s.ctl.lod.parent = some 0 ∧ s.ctl.lod.lastAt + 500000 ≤ s.ctl.ns ∧ parentAd s.ctl s.pl (some 0) = none)
    ∧ (let s := withPort 0 (fun p => { p with advert := some (ad 1) }) (timed .locked fun l => { l with parent := some 0, lastAt := 9999900000 })
       (s.pl.port 0).peerOk = true ∧ s.ctl.ns < s.ctl.lod.lastAt + 500000 ∧ usableAd s.ctl s.pl 0 ≠ none ∧ (parentAd s.ctl s.pl none).isSome = true)
    ∧ (let s := withPort 2 (fun p => { p with mode := 2, link := .up, peerNode := 5, peerOk := true, advert := some (ad 1) }) follower
       (parentAd s.ctl s.pl (some 0)).isSome = true ∧ (parentAd s.ctl s.pl none).isSome = true)
    ∧ (let s := withPort 0 (fun p => { p with advert := some (ad 1) }) (timed .holdover id)
       s.ctl.lod.state = .holdover ∧ (parentAd s.ctl s.pl none).isSome = true ∧ s.ctl.lod.served = true)
    ∧ (let s := timed .acquiring fun l => { l with claimAt := 9999000000, served := false }
       s.ctl.lod.state = .acquiring ∧ bestAd s.ctl s.pl none = none ∧ s.ctl.lod.claimAt ≠ 0 ∧ (onLod (fun l => { l with claimAt := 9999999999 }) s).ctl.ns < 9999999999 + 1000000
         ∧ (bestAd s.ctl (withPort 0 (fun p => { p with advert := some (ad 1) }) s).pl none).isSome = true ∧ s.ctl.lod.claimAt + 1000000 ≤ s.ctl.ns)
    ∧ (let s := timed .acquiring fun l => { l with quietAt := 9999500000, candidate := true }
       s.ctl.candidate = true ∧ bestAd s.ctl s.pl none = none ∧ (∀ k ∈ none :: (List.range 18).map some, parentAd s.ctl s.pl k = none) ∧ s.ctl.lod.quietAt ≠ 0 ∧ s.ctl.lod.quietAt + 500000 ≤ s.ctl.ns)
    ∧ (let s := timed .holdover fun l => { l with holdAt := 9000000000 }
       s.ctl.lod.uncertain = false ∧ s.ctl.lod.holdAt + bits (s.pl.reg 0x40020) 15 0 * 1000000 ≤ s.ctl.ns) := by decide +kernel

/-- A TIME frame on port 0: ROLE, SEQ, the stamps t2 and t3, PREV_SEQ and the advertisement. -/
def timeFrame (role seq prev : Nat) (t2 t3 : Nat) : RxFrame :=
  { port := 0, frame := padFrame { hop := let h : Hop := {}; { h with pchk := hopCheck h }, etype := svc.ctl.etypeLink 0
                                   body := [2, 1, 0, 0] ++ beBytes 4 5 ++ beBytes 4 9 ++ [0, BitVec.ofNat 8 role] ++ beBytes 2 seq ++ beBytes 8 t2 ++ beBytes 8 t3
                                     ++ beBytes 2 prev ++ [4, 0] ++ beBytes 8 1 ++ beBytes 4 5 ++ [0, 0, 0, 0] } }
/-- The parent exchange of SEQ 3, sent and answered 40 ns later at both ends. -/
def exchanged : State :=
  withPort 0 (fun p => { p with exch := [{ seq := 3, t1 := 40000000000, t2 := some 40000000200, t4 := some 40000000200 }] }) follower

theorem witness_CountersAreDisciplined : (∀ role ∈ [0, 1], let f := timeFrame role 4 3 40000000200 40000000200
    Quiet exchanged ∧ (macIn exchanged.ctl exchanged.pl f).1 = some f.frame ∧ (exchanged.pl.port 0).group = true
      ∧ ((afterMac exchanged f).pl.port 0).peerOk = true ∧ exchanged.ctl.maySpeak = true ∧ (exchanged.pl.port 0).peerNode = 5 ∧ f.frame.etype = exchanged.ctl.etypeLink 0 ∧ getByte f.frame.body 0 = 2
      ∧ getByte f.frame.body 1 = 1 ∧ getBe f.frame.body 8 4 = exchanged.ctl.group.groupId ∧ getBe f.frame.body 4 4 % 2 ^ 20 = 5
      ∧ getByte f.frame.body 13 = role ∧ fenceOf exchanged.ctl exchanged.pl 5 = none ∧ getBe f.frame.body 32 2 = 3 ∧ getBe f.frame.body 14 2 = 4)
    ∧ (exchanged.pl.port 0).peerOk = true ∧ exchanged.ctl.lod.parent = some 0 ∧ exchanged.ctl.lod.samples < 8
    ∧ (∀ role ∈ [0, 1], ((((afterMac exchanged (timeFrame role 4 3 40000000200 40000000200)).pl.port 0).exch.find? (·.seq == 3)).bind fun x => x.t2.bind fun _ => x.t4).isSome = true) ∧ filterFar 8 0 1000 = true ∧ (svc.pl.port 0).exch = []
    ∧ (onLod (fun l => { l with state := .acquiring, parent := none }) exchanged).ctl.lod.parent ≠ some 0 := by decide +kernel

/-- The PTP message of R383 as port 1 has it in a frame: type, domain, flags, correction, source, port, SEQ and the body. -/
def ptpFrame (kind seq : Nat) (rest : List Byte) : RxFrame :=
  plainOf 1 0x88F7 ([BitVec.ofNat 8 kind, 2, 0, 0, 0, 0] ++ [2, 0] ++ List.replicate 8 0 ++ List.replicate 4 0 ++ leBytes 8 5 ++ beBytes 2 1 ++ beBytes 2 seq
    ++ [0, 0] ++ beBytes 10 (10 * 2 ^ 32) ++ rest)
where plainOf (n : PortId) (etype : BitVec 16) (body : List Byte) : RxFrame :=
  { port := n, frame := padFrame { da := svc.ctl.mac n.val, hop := hop0 0, etype := etype, body := body } }

/-- PTP is on at port 1, whose filter 0 steers its frames to the time unit. -/
def ptpOn : State :=
  onCtl (fun c => { c with inEffect := [(Reg.prt 1 0x100, 0x80000000), (Reg.prt 1 0x104, 0x188F7), (Reg.prt 1 0x10C, 2)] })
    (withPl (regsOf [(0x40100, 0x00000003), (0x40104, 5), (0x40108, 0), (0x4010C, 1)])
      (timed .lodestone fun l => { l with ptpEff := [3, 5, 0, 1, 0, 0], ptpSeq := some 2, ptpReq := some 4, ptpT1 := some 40000000000, ptpT3 := some 40000000400
                                          ptpAt := 7000000000 }))
def delayResp : List Byte := leBytes 8 (ptpClock svc.ctl 1).toNat ++ beBytes 2 1

theorem witness_CountersAreDisciplined_ptp : (∀ kind ∈ [0, 8, 9, 3], let f := ptpFrame kind (if kind = 9 then 4 else 2) delayResp
      let m := ptpOf f.port f.frame
      Quiet ptpOn ∧ (macIn ptpOn.ctl ptpOn.pl f).1 = some f.frame ∧ steer ptpOn.ctl 1 (ptpOn.pl.port 1) f.frame = .time
        ∧ m.kind = kind ∧ m.version = 2 ∧ m.twoStep = true ∧ m.source = 5 ∧ m.sourcePort = 1 ∧ m.domain = bits (ptpWord (ptpRegs ptpOn.pl) 0) 23 16
        ∧ (kind = 9 → m.reqClock = ptpClock ptpOn.ctl 1 ∧ m.reqPort = 1 ∧ ptpOn.ctl.lod.ptpReq = some m.seqId)
        ∧ (kind = 8 → ptpOn.ctl.lod.ptpSeq = some m.seqId))
    ∧ ptpOn.ctl.lod.state = .lodestone ∧ flag (ptpWord (ptpRegs ptpOn.pl) 0) 0 = true ∧ (1 : Nat) = bits (ptpWord (ptpRegs ptpOn.pl) 0) 6 1
    ∧ (ptpWord (ptpRegs ptpOn.pl) 2 ++ ptpWord (ptpRegs ptpOn.pl) 1).toNat = 5 ∧ bits (ptpWord (ptpRegs ptpOn.pl) 3) 15 0 = 1
    ∧ flag (ptpWord ptpOn.ctl.lod.ptpEff 0) 0 = true ∧ (1 : Nat) = bits (ptpWord ptpOn.ctl.lod.ptpEff 0) 6 1
    ∧ (ptpWord ptpOn.ctl.lod.ptpEff 2 ++ ptpWord ptpOn.ctl.lod.ptpEff 1).toNat = 5 ∧ bits (ptpWord ptpOn.ctl.lod.ptpEff 3) 15 0 = 1
    ∧ ptpOn.ctl.lod.samples < 8 ∧ ptpOn.ctl.maySend = true ∧ (onDev (fun x => { x with state := .quarantine }) ptpOn).ctl.maySend = false
    ∧ ptpOn.ctl.lod.ptpAt + 3000000000 ≤ ptpOn.ctl.ns ∧ flag (ptpOn.pl.reg 0x40100) 0 = true
    ∧ filterFar 8 0 1000 = true := by decide +kernel

/-! ### Collectives -/

/-- A collective on communicator 2 in FP16: KIND, COUNT, SRC_VA and DST_VA. -/
def collE (kind count : Nat) : List Byte := [0x20, 2, 7, 0, 0, 0, 0, 0] ++ leBytes 2 2 ++ [BitVec.ofNat 8 kind, 8, 8, 0, 0, 0] ++ leBytes 6 count ++ [0, 0]
  ++ leBytes 8 0x1000 ++ leBytes 8 0x2000 ++ List.replicate 56 0
/-- It is active on engine 0 as rank 0 of two, posted by entry 0 of ring 0. -/
def coll (kind count : Nat) : Coll :=
  { comm := 2, ident := 0, ring := 0, index := 0, raw := collE kind count, part := 3, engine := 0, state := .active, rank := 0, nodes := [1, 5]
    sig := paramSig (collE kind count) }
def collecting (x : Coll) : State := withPl (fun d => { d with col := { d.col with colls := [x] } }) (fetched x.raw .running)
def collPkt (x : Coll) (ptype code : Nat) (bs : List Byte) : Pkt :=
  { wpkt ptype 0 (beBytes 2 2 ++ [BitVec.ofNat 8 x.op, BitVec.ofNat 8 code, 0, 1, 0, 0] ++ beBytes 8 0 ++ beBytes 8 0 ++ beBytes 4 x.sig.toNat
      ++ beBytes 4 (crc32c bs).toNat) bs with dstQp := 0, srcQp := 0 }
def reduce64 : Coll := coll 1 32
def made (z : Coll) : Coll := { z with prods := [{ chunk := 0, added := [0, 1], result := some bytes64 }] }

theorem witness_CollectiveChunksMove_start : (let s := collecting { reduce64 with state := .waiting }
    Quiet s ∧ s.ctl.halted (0x1C4 + 0) 0 = false ∧ (s.pl.col.colls.filter (·.engine == 0)).find? (·.state == .waiting) = some { reduce64 with state := .waiting }
      ∧ (s.pl.col.colls.filter (·.engine == 1)).find? (·.state == .waiting) = none) := by decide +kernel

theorem witness_CollectiveChunksMove : (let s := collecting reduce64
    (∀ y ∈ [0, 1, 2], let p := collPkt reduce64 0x30 y bytes64
      PacketIn s (gframe 3 p) (gframe 3 p).frame.body false p ∧ Unfenced s p ∧ collPktOk p = true ∧ (collHdr p.ext).code = y ∧ (collHdr p.ext).op = reduce64.op
        ∧ (collHdr p.ext).dst = reduce64.rank ∧ reduce64.node (collHdr p.ext).src = p.src ∧ (collHdr p.ext).sig = reduce64.sig
        ∧ crc32c p.payload = (collHdr p.ext).crc ∧ p.payload.length = elemBytes reduce64.inFmt (reduce64.elems 0)
        ∧ p.payload.length = elemBytes reduce64.placeFmt (reduce64.elems 0) ∧ (y = 1 → sums reduce64.op = true))
      ∧ sums reduce64.op = true ∧ reduce64.placedKey 0 1 ∉ reduce64.placed
      ∧ s.pl.coll 2 0 = some reduce64 ∧ reduce64.aborting s.pl = false ∧ (0 : Nat) ∈ reduce64.owned ∧ (1 : Nat) ∈ reduce64.addends 0 ∧ reduce64.toSend = []
      ∧ reduce64.allReleased = false ∧ reduce64.chunkOk 0 1 = true ∧ reduce64.chunkOk 1 1 = false ∧ (0 : Nat) ∈ reduce64.addends 0 ∧ reduce64.prods = []
      ∧ (stgWrite (engineQueue 0 0) (s.pl.queue (engineQueue 0 0)) { bytes := bytes64, index := 0, producer := 0 }).isSome = true
      ∧ s.pl.coll 2 1 = none ∧ (reduce64.writeChunk s.ctl s.pl 0 1 bytes64).1.isOk = true ∧ (reduce64.writeChunk s.ctl s.pl 0 1 bytes64).2.effects = []
      ∧ reduce64.expected = some 1
      ∧ (let s := withPl (fun d => { d with col := { kept := [{ comm := 2, ident := 0 }] } }) s
         s.pl.coll 2 0 = none ∧ ∃ k ∈ s.pl.col.kept, k.late = false ∧ k.comm = 2 ∧ k.ident = 0)) := by decide +kernel

def gathered : Coll := { coll 2 32 with rank := 0 }
def broadcast : Coll := coll 4 32

theorem witness_CollectiveChunksMove_acks : (let x := { made reduce64 with sending := [{ chunk := 0, dest := 1, code := 1, sends := 4, resendAt := 10000000000, limit := 5 }] }
    let s := collecting x
    (∀ y ∈ [0, 1, 2], let p := collPkt x 0x31 y []
      PacketIn s (gframe 3 p) (gframe 3 p).frame.body false p ∧ collPktOk p = true ∧ (collHdr p.ext).code = y)
      ∧ { x with sending := [] }.allReleased = true ∧ x.expected = some 1 ∧ (∀ z ∈ x.prods, z.result.isSome = true) ∧ x.toSend = []
      ∧ { x with sending := [], placed := [0] }.placed.length = 1 ∧ CompRing s 0
      ∧ (let e := entryOf x.raw .running; s.pl.entry 0 0 = some e ∧ e.phase ≠ .aborting ∧ e.lost = false ∧ e.nocomp = false ∧ e.timed = false)
      ∧ (let y := { coll 1 32 with sending := [{ chunk := 0, dest := 1, code := 1, sends := 5, limit := 5 }] }
         (collecting y).pl.coll 2 0 = some y ∧ y.state = .active ∧ y.sending.map (fun z => decide (z.limit ≤ z.sends ∧ z.resendAt ≤ s.ctl.ns)) = [true])
      ∧ x.sending.find? (fun y => y.chunk == 0 && y.dest == 1) = some { chunk := 0, dest := 1, code := 1, sends := 4, resendAt := 10000000000, limit := 5 }
      ∧ x.state = .active ∧ x.aborting s.pl = false ∧ (10000000000 : Nat) ≤ s.ctl.ns
      ∧ (x.prods.find? (·.chunk == 0)).bind (·.result) = some bytes64)
    ∧ (let p := collPkt reduce64 0x32 0 []
       PacketIn (collecting reduce64) (gframe 3 p) (gframe 3 p).frame.body false p ∧ collPktOk p = true ∧ reduce64.op = 1
         ∧ reduce64.producer 0 reduce64.rank = reduce64.rank ∧ sums gathered.op = true)
    ∧ (let p := collPkt broadcast 0x30 2 bytes64
       PacketIn (collecting broadcast) (gframe 3 p) (gframe 3 p).frame.body false p ∧ collPktOk p = true ∧ broadcast.chunkOk 0 1 = true
         ∧ sums broadcast.op = false ∧ (0 : Nat) ∉ broadcast.placed ∧ (broadcast.writeChunk (collecting broadcast).ctl (collecting broadcast).pl 0 1 bytes64).1.isOk = true) := by decide +kernel

def coll2 : Coll := coll 2 16
theorem witness_CollectiveChunksMove_resend : (let p := collPkt coll2 0x32 0 []
    let s := collecting coll2
    PacketIn s (gframe 3 p) (gframe 3 p).frame.body false p ∧ sums coll2.op = true ∧ coll2.producer 1 coll2.rank ≠ coll2.rank ∧ coll2.toSend = []
      ∧ coll2.allReleased = false ∧ coll2.unreleased 1 < 8 ∧ (1, 1) ∈ coll2.outgoing ∧ (5, 1) ∉ coll2.outgoing ∧ coll2.sending = []
      ∧ (let y := { coll2 with sending := [{ chunk := 1, dest := 1, code := 0, sends := 2 }] }
         (∃ z ∈ y.sending, z.chunk = 1 ∧ z.dest = 1) ∧ (Coll.readChunk s.ctl (collecting y).pl y 1 1).1.isOk = true
           ∧ (Coll.readChunk s.ctl (collecting y).pl y 1 1).2.effects = [])
      ∧ (s.pl.entry 0 0).map (·.phase) = some .running ∧ (Coll.readChunk s.ctl s.pl coll2 1 1).1.isOk = true
      ∧ (Coll.readChunk s.ctl s.pl coll2 1 1).2.effects = []) := by decide +kernel

/-! ### The Melquin path -/

def barrier : Coll := { coll 8 0 with rank := 1, haveRank := [1] }
def mqOf (x : Coll) (ptype phase src : Nat) (bs : List Byte) : Pkt :=
  { wpkt ptype 0 (mqExt 2 x.op phase src 0 0 x.sig bs) bs with dstQp := 0, srcQp := 0 }
/-- This node as the second member, or as the leader. -/
def member (x : Coll) : State := collecting x
def leader : Coll := { coll 8 0 with haveRank := [0] }

set_option maxRecDepth 4096 in
theorem witness_MelquinPacketsAreTaken : (∀ y ∈ [(0x34, 2, []), (0x35, 0, beBytes 4 5), (0x36, 0, noteBytes {})], let p := mqOf barrier y.1 y.2.1 0 y.2.2
      let s := collecting barrier
      PacketIn s (gframe 3 p) (gframe 3 p).frame.body false p ∧ Unfenced s p ∧ mqPktOk p = true ∧ (mqHdr p.ext).phase = y.2.1 ∧ (mqHdr p.ext).op = barrier.op
        ∧ (mqHdr p.ext).sig = barrier.sig ∧ s.pl.coll 2 0 = some barrier ∧ barrier.melquin s.ctl = true ∧ barrier.rank % 8 ≠ 0
        ∧ (mqHdr p.ext).src < barrier.size ∧ (y.1 = 0x34 → mqFits barrier (mqHdr p.ext) p.payload.length = true) ∧ barrier.mqResult = none
        ∧ mqPktOk { p with msgLen := 1 } = false ∧ s.pl.entry 0 0 = some (entryOf barrier.raw .running) ∧ CompRing s 0) := by decide +kernel

theorem witness_MelquinPacketsAreTaken_held : (let s := withPl (fun d => { d with col := {} }) (collecting barrier)
       s.pl.coll 2 0 = none ∧ collEntry s.pl 2 0 = some (0, 0) ∧ ((s.pl.entry 0 0).map fun e => paramSig e.raw) = some barrier.sig ∧ collEntry s.pl 2 1 = none ∧ s.pl.col.kept = []
         ∧ (s.ctl.job.comms.find? (·.comm == 2)).isSome = true ∧ s.ctl.job.comms.find? (·.comm == 3) = none ∧ mqInUse s.pl 0 < 256)
    ∧ (let s := collecting leader
       leader.rank % 8 = 0 ∧ 1 ∉ leader.haveRank ∧ mqInUse s.pl 0 < 256 ∧ leader.melquin s.ctl = true ∧ leader.op = 8
         ∧ (∀ r, r < leader.size → r = 1 ∨ r ∈ leader.haveRank))
    ∧ (let x := { coll 1 8 with haveRank := [] }
       x.melquin svc.ctl = true ∧ x.contributes 0 = true ∧ 0 ∉ x.haveRank
         ∧ mqFits x (mqHdr (mqOf x 0x34 0 1 (List.replicate 16 0)).ext) 16 = true
         ∧ mqFits x (mqHdr (mqOf x 0x34 0 1 (List.replicate 16 0)).ext) 15 = false
         ∧ (let z := { x with haveRank := [1], mqResult := some [] }; 1 ∈ z.haveRank ∧ z.mqResult.isSome = true ∧ z.node 1 = 5) ∧ (coll 1 1024).melquin svc.ctl = false) := by decide +kernel

/-- A member that closes with CAUSE 2, and the same note from its peer. -/
def closing : Coll := { leader with state := .closing, noteSent := true, note := { cause := 2, bitmap := List.replicate 128 0 } }
def closePkt : Pkt := mqOf closing 0x36 0 1 (noteBytes closing.note)

set_option maxRecDepth 4096 in
theorem witness_MelquinPacketsAreTaken_close : PacketIn (collecting closing) (gframe 3 closePkt) (gframe 3 closePkt).frame.body false closePkt := by decide +kernel

set_option maxRecDepth 4096 in
theorem witness_MelquinPacketsAreTaken_note : mqPktOk closePkt = true ∧ (let n := noteOf closePkt.payload
    (closing.note.merge n).agrees closing.note = true ∧ closing.report = 0
      ∧ (∀ r ∈ closing.others (collecting closing).ctl (collecting closing).pl,
          (SMap.find none (SMap.put none closing.notes 1 (some n)) r).any (fun y => y.agrees closing.note) = true)
      ∧ closing.state = .closing ∧ closing.noteSent = true) := by decide +kernel

theorem witness_MelquinPacketsAreTaken_result : (let x := { coll 1 8 with rank := 1 }
    let s := collecting x
    x.rank % 8 ≠ 0 ∧ x.op ≠ 8 ∧ (writeVa s.ctl s.pl x.engine 3 x.dst (List.replicate 16 0)).1.isOk = true)
    ∧ (let s := collecting { barrier with mqAt := 9999980000 }
       9999980000 ≤ s.ctl.ns ∧ barrier.rank ∈ barrier.haveRank ∧ barrier.melquin s.ctl = true ∧ s.ctl.maySpeak = true
         ∧ (s.ctl.route (barrier.node barrier.leader)).isSome = false ∧ (s.ctl.route (barrier.node 1)).isSome = true) := by decide +kernel

/-! ### Veins -/

/-- A vein of two stages of one kind on logical tiles 0 and 1, with `param` for the first. -/
def vein2 (kind binding : Nat) (param : List Byte) : VeinRec :=
  { vein := 4, part := 3, binding := binding, bindArg := 7
    stages := [{ kind := kind, tile := 0, param := param, weightLen := 0, weightAddr := 0, digest := 0, digestAt := 0 },
               { kind := 11, tile := 1, param := leBytes 4 0 ++ leBytes 4 64 ++ leBytes 4 0, weightLen := 0, weightAddr := 0, digest := 0, digestAt := 0 }] }
def stageOf (kind : Nat) (param : List Byte) (unit : List Byte) (binding : Nat := 3) : State :=
  withPl (fun d => { d with
    veins := [(4, { state := .ready, runs := [{ ring := 0, index := 0, src := 0, srcLen := unit.length, dst := 0, dstLen := 64, fed := unit.length, arg := 0, tag := 7, part := 3 }] })]
    stg := [(veinQueue 4 0, { wr := BitVec.ofNat 16 (cellsOf (veinQueue 4 0) unit.length)
                              items := [{ bytes := unit, cells := cellsOf (veinQueue 4 0) unit.length }] })] })
    (onCtl (fun c => { c with image := some { image with job := { image.job with veins := [vein2 kind binding param] } } }) (fetched veinRaw .running))

/-- What a turn of a run asks of the state, for a unit of `n` bytes out. -/
def turn (s : State) (n : Nat) : Bool :=
  match s.ctl.veinRec 4 with
  | some r => match r.stages[0]? with
    | some sg => stageUp s.ctl sg && (s.pl.vein 4).state == .ready && !stageWaits s.pl 4 0 && (stgRead (s.pl.queue (veinQueue 4 0))).isSome
        && decide (cellsOf (veinQueue 4 1) (unitOut sg) ≤ creditOf (veinQueue 4 1) (s.pl.queue (veinQueue 4 1)) 0)
        && decide (cellsOf (veinQueue 4 1) n ≤ creditOf (veinQueue 4 1) (s.pl.queue (veinQueue 4 1)) 0)
        && stageReady s.ctl s.pl r 0 sg
        && decide (∀ x ∈ s.ctl.job.veins, ∀ j, j < x.stages.length → ∀ y ∈ x.stages[j]?, y.tile = sg.tile → stageReady s.ctl s.pl x j y = true →
            (12 * 4 + 0 + 768 - SMap.find 0 s.pl.turns sg.tile) % 768 ≤ (12 * x.vein + j + 768 - SMap.find 0 s.pl.turns sg.tile) % 768)
        && (heldUnits s.pl 4 (outKey 0)).isEmpty && ((s.pl.vein 4).runs.all fun y => decide (y.srcLen ≤ y.fed))
    | none => false
  | none => false

theorem witness_StagesProcessTheirUnits : turn (stageOf 3 (leBytes 2 0x0806 ++ [0, 0] ++ leBytes 4 32) (List.replicate 32 1)) 64 = true
    ∧ turn (stageOf 5 ([8, 9, 0, 0] ++ leBytes 4 0x3F800000 ++ leBytes 4 32) (List.replicate 64 1)) 128 = true
    ∧ turn (stageOf 6 ([8, 8, 0, 0] ++ leBytes 4 32 ++ leBytes 4 2) bytes64) 64 = true
    ∧ turn (stageOf 7 ([6, 6, 8, 0] ++ leBytes 4 32 ++ leBytes 4 2) (List.replicate 32 1)) 4 = true
    ∧ turn (stageOf 11 (leBytes 4 64 ++ leBytes 4 32 ++ leBytes 4 0) bytes64) 32 = true
    ∧ turn (stageOf 2 (leBytes 4 0 ++ leBytes 4 64) bytes64) 96 = true ∧ slotUsable (stageOf 2 (leBytes 4 0 ++ leBytes 4 64) bytes64).pl 3 0 = false
    ∧ turn (stageOf 10 (leBytes 8 0x1000 ++ leBytes 4 64 ++ leBytes 4 2) (leBytes 4 1)) 64 = true
    ∧ turn (stageOf 11 (leBytes 4 64 ++ leBytes 4 32 ++ leBytes 4 0) bytes64 0) 32 = true
    ∧ svc.ctl.veinRec 4 = none := by decide +kernel

/-- Two ready stages of one tile: the one after the last served goes first, whatever its number. -/
def shared (served : Nat) : State :=
  let s := stageOf 3 (leBytes 2 0x0806 ++ [0, 0] ++ leBytes 4 32) (List.replicate 32 1)
  let v := vein2 3 3 (leBytes 2 0x0806 ++ [0, 0] ++ leBytes 4 32)
  withPl (fun d => { d with veins := d.veins ++ [(5, d.vein 4)], stg := d.stg ++ [(veinQueue 5 0, d.queue (veinQueue 4 0))], turns := [(0, served)] })
    (onCtl (fun c => { c with image := some { image with job := { image.job with veins := [v, { v with vein := 5 }] } } }) s)

theorem test_turns_rotate : (after (.dequantize 4 0) (shared 49)).pl.turns = [(0, 49)] ∧ (after (.dequantize 5 0) (shared 49)).pl.turns = [(0, 61)]
    ∧ (after (.dequantize 5 0) (shared 61)).pl.turns = [(0, 61)] ∧ (after (.dequantize 4 0) (shared 61)).pl.turns = [(0, 49)] := by decide +kernel

def sealable : State :=
  withPl (fun d => { d with keys := [(0, { use := 1, active := some false, p0 := { loaded := true } })] }) (stageOf 2 (leBytes 4 0 ++ leBytes 4 64) bytes64)
def openable : State :=
  withPl (fun d => { d with keys := [(0, { use := 2, p0 := { loaded := true } })] })
    (stageOf 1 (leBytes 4 0 ++ leBytes 4 64) (leBytes 8 0 ++ leBytes 4 64 ++ List.replicate 84 0))

theorem witness_StagesProcessTheirUnits_keys : (let s := sealable
    slotUsable s.pl 3 0 = true ∧ (drawSeal s.ctl s.pl 0).1.isSome = true ∧ (drawSeal s.ctl s.pl 0).2.effects = [])
    ∧ (let s := openable
       turn s 64 = true ∧ slotUsable s.pl 3 0 = true ∧ (s.pl.key 0).use = 2)
    ∧ (let s := stageOf 10 (leBytes 8 0x1000 ++ leBytes 4 64 ++ leBytes 4 2) (leBytes 4 1)
       (dmaRead s.ctl s.pl 4 0 3 (0x1000 + 1 * 64) 64).2.effects = [])
    ∧ (let s := withPl (fun d => { d with xpt := { d.xpt with miss := [(0, [(7, { port := 0, raw := [], payload := [] })])] } }) paired
       (s.pl.qp 7).home = 0 ∧ (s.pl.qp 7).resident = true ∧ (s.pl.qp 7).state ≠ .free
         ∧ (takeFirst (fun x => x.1 == 7) (s.pl.parked (s.pl.qp 7).home)).isSome = true) := by decide +kernel

/-! ### The cipher and the partitions -/

/-- A plain key record for SEAL in phase 0: TYPE, USE, PHASE, FLAGS, SALT, KEY. -/
def keyRecord : List Byte :=
  let r : List Byte := [1, 1, 0, 1] ++ List.replicate 4 3 ++ List.replicate 32 7 ++ List.replicate 20 0
  r ++ leBytes 4 (crc32c r).toNat
def keyed (bs : List Byte) : State :=
  withPl (fun d => (regsOf [(Reg.keyBuf, 0x50000)] { d with host := Mem.writeN [] 0x50000 bs }).setCipCmd 0 { busy := true, last := 1, target := 9 }) paired

theorem witness_CipherCommandsAct : Quiet paired ∧ Accepted paired .pcie 0x600000 ∧ (paired.pl.cipCmd 0).busy = false ∧ (keyed keyRecord).pl.cipCmd 0 = { busy := true, last := 1, target := 9 }
    ∧ (let s := keyed keyRecord
       loadWaiting s.pl = some 0 ∧ (readLoc s.ctl s.pl 0 (flag (s.pl.reg (keyBufOf 0)) 0) 0x50000 64).1 = some keyRecord
         ∧ (readLoc s.ctl s.pl 0 false 0x50000 64).2.effects = [] ∧ loadResult (s.pl.key 9) keyRecord = 0 ∧ loadResult (s.pl.key 9) (keyRecord.set 0 3) = 2
         ∧ loadWaiting paired.pl = none)
    ∧ (let s := withPl (fun d => d.setKey 9 { use := 1, p1 := { loaded := true } }) paired
       (s.pl.key 9).use = 1 ∧ ((s.pl.key 9).phase true).loaded = true ∧ ((s.pl.key 9).phase false).loaded = false)
    ∧ (let r : CipReq := { core := 5, work := 64, group := 0, opening := some { port := 0, raw := [], payload := [] } }
       let s := withPl (fun d => { d with cip := { d.cip with reqs := [r] } }) paired
       s.pl.cip.reqs = [r] ∧ r.finished = false ∧ r.sealing = none)
    ∧ (let r : CipReq := { core := 5, work := 64, group := 0, sealing := some { head1 with flow := 7 } }
       let s := withPl (fun d => { d with cip := { d.cip with reqs := [r] } }) paired
       s.pl.cip.reqs.find? (fun r => r.core == 5 && !r.finished) = some r ∧ head1.cls ≠ 7 ∧ (s.pl.qp 7).state = .ready
         ∧ ({ head1 with cls := 7, since := some 5 } : Head).since = some 5 ∧ head1.since = none)
    ∧ (let r : CipReq := { core := 5, work := 64, group := 0 }
       let q : CipReq := { core := 6, work := 64, group := 0 }
       (nextResult [r, { q with finished := true }] []).isSome = false ∧ (nextResult [{ r with finished := true }, q] []).isSome = true) := by decide +kernel

def parRegs (rings : Word) : State := withPl (regsOf [(Reg.par 4 0, rings), (Reg.par 4 4, 0x401), (Reg.par 4 8, 0x401), (Reg.par 4 0xC, 0x101)])
  (withPl (fun d => { d with parts := d.parts ++ [(4, { state := .idle })] }) ringed)

theorem witness_PartitionCommandsAct : (let s := parRegs 0x102
    Quiet s ∧ Accepted s .pcie 0x100000 ∧ s.pl.par.busy = false ∧ (s.pl.part 4).state = .idle ∧ rangesFit (regRanges s.pl 4) = true
      ∧ (regRanges s.pl 4).weight ≠ 0 ∧ rangesClash s.pl 4 (regRanges s.pl 4) = false)
    ∧ (let s := parRegs 0x101; rangesFit (regRanges s.pl 4) = true ∧ rangesClash s.pl 4 (regRanges s.pl 4) = true)
    ∧ rangesFit (regRanges (parRegs 0x17F).pl 4) = true ∧ rangesFit (regRanges (parRegs 0x27F).pl 4) = false := by decide +kernel

theorem witness_PartitionCommandsAct_active : (ringed.pl.part 3).state = .active ∧ boundTo ringed.pl 3 = [] ∧ (ringed.pl.vf 2).bound = false
    ∧ (let s := withPl (regsOf [(Reg.vfCfg 2, 0x400000), (Reg.vfRings 2, 64)]) ringed
       ∀ j, j < bits (s.pl.reg (Reg.vfRings 2)) 10 0 → s.pl.ringInPart 3 (bits (s.pl.reg (Reg.vfCfg 2)) 28 16 + j) = true)
    ∧ (let s := withPl (fun d => { d with vfs := [(2, { bound := true, part := 3, first := 64, count := 64 })] }) ringed
       (s.pl.vf 2).bound = true ∧ (s.pl.vf 2).part = 3 ∧ boundTo s.pl 3 ≠ []
         ∧ ∀ j, j < 64 → (s.pl.ring (64 + j)).state = .disabled ∧ (s.pl.cq (64 + j)).enabled = false)
    ∧ (let s := withPl (fun d => { d with parts := [(3, { d.part 3 with state := .resetting })], par := { busy := true, last := 3, target := 3 } }) ringed
       (s.pl.part 3).contained = false ∧ (s.pl.part 3).state = .resetting ∧ s.pl.par.busy = true ∧ s.pl.par.target = 3) := by decide +kernel

end Sys2Proof.Tests
end

