-- ==== Sys2Proof/Tests/Faults.lean ====
section
/-! SUPPORT. States and operands that meet the hypotheses of the statements about faults, wear, observation, invariants and
encodings. -/
namespace Sys2Proof.Tests
open Sys2Proof Sys2Proof.Machine
set_option Elab.async false

/-! ### Faults -/

/-- Recoveries that run, and faults that wait. -/
def recovering (slots queue : List Domain) : State :=
  onFlt (fun f => { f with slots := slots.zipIdx.map fun x => (x.2, some x.1), queue := queue }) svc
def dom (level unit source : Nat) : Domain := { level := level, unit := unit, source := source }

theorem witness_FaultsReachTheCollector : Quiet svc ∧ Accepted svc .pcie 0x80008 ∧ svc.ctl.flt.forceTill ≤ svc.ctl.ns ∧ svc.ctl.forceOk 0 = true
    ∧ (sourceOf 0).isSome = true ∧ classOf 2 = some 0 ∧ classOf 3 = some 1 ∧ classOf 4 = some 2 ∧ classOf 6 = some 3 ∧ (sourceOf 0x292).isSome = true
    ∧ (sourceOf 0x180).isSome = true := by decide +kernel

theorem witness_FaultsReachTheCollector_plain : Plain 0x280 3 ∧ Plain 0 4 ∧ Plain 0x1D0 2 := by decide

theorem witness_FaultsReachTheCollector_levels : svc.ctl.effLevel 0x281 none = none ∧ svc.ctl.effLevel 0 none = some 0 ∧ svc.ctl.effLevel 0x280 (some 3) = some 1 ∧ svc.ctl.effLevel 0x140 none = some 2
    ∧ svc.ctl.effLevel 0x290 none = some 3 ∧ Running svc ∧ NoRecovery svc ∧ State.reset.ctl.dev.inReset = true
    ∧ (standby.ctl.dev.inReset = false ∧ standby.ctl.dev.state.booted = false) := by decide +kernel

theorem witness_FaultsReachTheCollector_domains : (let s := recovering [dom 2 0 0x140] [dom 0 68 68]
    let x := s.ctl.domainAt 0 0 none
    x = dom 0 0 0 ∧ s.ctl.inside x (dom 2 0 0x140) = true ∧ s.ctl.inside x (dom 0 68 68) = false ∧ s.ctl.inside (dom 0 0 0) (s.ctl.domainAt 2 0x140 none) = true)
    ∧ (let s := recovering [dom 0 68 68, dom 0 69 69, dom 0 70 70, dom 0 71 71] (List.replicate 31 (dom 0 72 72))
       let x := s.ctl.domainAt 0 0 none
       (∀ i, i < 4 → (s.ctl.flt.slot i).isSome = true) ∧ (∀ y ∈ s.ctl.flt.queue, s.ctl.inside y x = false ∧ s.ctl.inside x y = false ∧ y.unit ≠ x.unit)
         ∧ s.ctl.flt.queue.length < 32)
    ∧ (recovering [] (List.replicate 32 (dom 0 72 72))).ctl.flt.queue.length = 32
    ∧ (let s := recovering [dom 0 0 0] []
       s.ctl.flt.slot 0 = some (dom 0 0 0) ∧ (s.ctl.escalated (dom 0 0 0) 0).level < 3 ∧ s.ctl.flt.slot 1 = none ∧ s.ctl.flt.queue = [])
    ∧ (let s := recovering [dom 2 0 0x140] []; (s.ctl.escalated (dom 2 0 0x140) 0x140).level = 3) := by decide +kernel

theorem witness_FaultsReachTheCollector_wires : SMap.find false svc.ctl.flt.wireLatch 0 = false ∧ Running svc ∧ NoRecovery svc
    ∧ (svc.ctl.domainAt 0 0 none).level < 3 ∧ (onFlt (fun f => { f with wireLatch := [(0, true)] }) svc).ctl.flt.wireLatch = [(0, true)]
    ∧ (onFlt (fun f => { f with forceTill := 10000000001 }) svc).ctl.ns < 10000000001
    ∧ (let s := recovering [dom 0 0x292 0x292] []; s.ctl.dev.pins.pcieRefclk = true ∧ s.ctl.dev.locks.hif = true ∧ s.ctl.flt.slots = [(0, some (dom 0 0x292 0x292))])
    ∧ (let s := recovering [dom 0 271 271] []; s.ctl.tileState 271 = 1) ∧ (recovering [dom 0 0 0] []).ctl.tileState 0 = 0
    ∧ (let s := recovering [dom 0 0x200 0x200] []; s.ctl.coreState 0 = 0 ∧ s.ctl.coreState 96 = 1 ∧ ∀ j, j < 96 → s.ctl.coreState j ≠ 1)
    ∧ (recovering [dom 0 0x1C4 0x1C4] []).ctl.flt.slots = [(0, some { level := 0, unit := 0x1C4 + 0, source := 0x1C4 + 0 })]
    ∧ Accepted svc .pcie (0x81000 + 4 * 63)
    ∧ (let s := onFlt (fun f => { f with pend := [(63, 1)] }) svc
       s.ctl.flt.uncleared = true ∧ (after (.pendingClear .pcie 63 1) s).ctl.flt.uncleared = false
         ∧ (after (.pendingClear .pcie 63 1) s).ctl.dev.alertAt = svc.ctl.ns) := by decide +kernel

/-! ### Wear -/

theorem witness_WearMonitorsBringInSpares : Quiet svc ∧ svc.ctl.laserState 0 = 0 ∧ svc.ctl.static.laserDrift * 10 < 101 ∧ ¬ svc.ctl.static.laserDrift * 10 < 100
    ∧ SMap.find none svc.ctl.flt.swapFrom 0 = none ∧ (16 / 20 = 0 ∧ svc.ctl.laserState 16 = 1)
    ∧ (let s := onFlash (fun f => { f with laserState := [(16, 2), (17, 2), (18, 2), (19, 2)] }) svc
       (∀ r, r < 20 → s.ctl.laserState r ≠ 1) ∧ SMap.find false s.ctl.flt.noted 0 = false)
    ∧ SMap.find false svc.ctl.flt.swapLost 0 = false
    ∧ (let s := onFlt (fun f => { f with swapFrom := [(0, some 0)], swapLost := [(0, true)] }) svc; SMap.find false s.ctl.flt.swapLost 0 = true)
    ∧ (let s := onFlt (fun f => { f with swapFrom := [(0, some 0)] }) svc
       SMap.find none s.ctl.flt.swapFrom 0 = some 0 ∧ s.ctl.laserState 16 = 1 ∧ ∀ j, j < 16 → s.ctl.laserState j ≠ 1)
    ∧ svc.ctl.static.tileSlow < 21 ∧ ¬ svc.ctl.static.tileSlow < 20 ∧ svc.ctl.tileState 0 = 0 ∧ SMap.find false svc.ctl.flt.retirePending 0 = false
    ∧ (tileSupply svc.ctl 0).2 < (tileSupply svc.ctl 0).1
    ∧ (let s := onFlash (fun f => { f with tileState := [(64, 2), (65, 2), (66, 2), (67, 2)] }) svc; (tileSupply s.ctl 0).1 ≤ (tileSupply s.ctl 0).2) := by decide +kernel

theorem witness_WearMonitorsBringInSpares_stacks : svc.ctl.static.hbmCeRate < 1001 ∧ ¬ svc.ctl.static.hbmCeRate < 1000 ∧ (svc.ctl.pcMap 0).logical 29 = some 29
    ∧ (svc.ctl.pcMap 0).logical 30 = none ∧ (svc.ctl.pcMap 0).left = 2 ∧ (svc.ctl.stackHbm 0).copying = none
    ∧ (let s := onFlash (fun f => { f with pcMaps := [(0, { spare30 := some 1, spare31 := some 2 })] }) svc
       (s.ctl.pcMap 0).left = 0 ∧ (s.ctl.pcMap 0).free = none ∧ SMap.find false s.ctl.flash.hbmShort 0 = false)
    ∧ (let s := setHbm svc 0 { copying := some 3, copyFrom := 3, waiting := [4], faulty := [4] }
       (s.ctl.stackHbm 0).copying = some 3 ∧ 3 ∉ (s.ctl.stackHbm 0).faulty ∧ 4 ∈ (s.ctl.stackHbm 0).faulty ∧ (s.ctl.pcMap 0).free = some 30 ∧ (s.ctl.stackHbm 0).waiting = [4]
         ∧ PcMap.logical { s.ctl.pcMap 0 with spare30 := some 3 } 4 = some 4) := by decide +kernel

/-! ### Observation -/

def sampling : State :=
  withPl (fun d => regsOf [(0xC0020, 0x8000000A), (0xC0024, 0x60000), (0xC002C, 6), (Reg.smpSets 0, 5), (Reg.smpSets 11, 1)]
    { d with obs := { d.obs with cycle := 15000, smpSeq := 63 } }) svc

theorem witness_ObservationRecords : Quiet sampling ∧ flag (sampling.pl.reg 0xC0020) 31 = true ∧ sampling.ctl.dev.state.booted = true
    ∧ SMap.find 0 sampling.pl.obs.smpAt 0 + bits (sampling.pl.reg 0xC0020) 19 0 * 1500 ≤ sampling.pl.obs.cycle.toNat
    ∧ flag (sampling.pl.reg 0xC0024) 0 = false ∧ sampling.ctl.dev.pcieUp = true ∧ sampling.pl.hostBad = [] ∧ (enabledSets sampling.ctl sampling.pl .global) = [0, 2, 352]
    ∧ (3 : Nat) ≤ 2 ^ bits (sampling.pl.reg 0xC002C) 4 0
    ∧ (let s := withPl (regsOf [(0xC0024, 0x60001)]) sampling
       flag (s.pl.reg 0xC0024) 0 = true ∧ (s.pl.reg 0xC0028).toNat * 2 ^ 32 + bits (s.pl.reg 0xC0024) 31 6 * 64 + 64 * 2 ^ bits (s.pl.reg 0xC002C) 4 0 ≤ 900 * 2 ^ 30)
    ∧ (ringed.ctl.partRec 3).isSome = true ∧ ringed.ctl.ownsStacked 3 0x240000000 (64 * 64) = true ∧ ringed.ctl.partRec 4 = none := by decide +kernel

def tracing : State :=
  withPl (fun d => regsOf [(0xC0004, 0x80000100)] { d with obs := { d.obs with cycle := 1500000, trace := List.replicate 33 (List.replicate 4 0) } })
    (onOwn (fun o => { o with session := { o.session with isOpen := true } }) svc)

theorem witness_ObservationRecords_trace : tracing.ctl.own.session.isOpen = true ∧ flag (tracing.pl.reg 0xC0004) 31 = true ∧ flag (tracing.pl.reg 0xC0004) 8 = true
    ∧ tracing.pl.obs.syncAt + 1500000 ≤ tracing.pl.obs.cycle.toNat ∧ tracing.pl.obs.lostSince = 0 ∧ tracing.pl.obs.trace.length < 8192
    ∧ tracing.ctl.dev.locks.obs = true
    ∧ (let s := withPl (fun d => { d with
          wins := [(1023, { win3 with coalescing := true, coalesceEnd := 10000000000, counted := 2, last := [1] })], cqs := [(2, { enabled := true })]
          regs := d.regs ++ [(Reg.cmp 2 8, 0xE6)] }) ringed
       (s.pl.win 1023).coalescing = true ∧ (s.pl.win 1023).coalesceEnd ≤ s.ctl.ns ∧ (s.pl.win 1023).counted ≠ 0 ∧ partOfWin s.pl 1023 = some 3
         ∧ s.pl.eventRing 3 = some 2 ∧ (s.pl.event 3).held = [] ∧ 0 < s.pl.cqFree 2 ∧ s.ctl.dev.pcieUp = true ∧ s.pl.hostBad = [] ∧ s.pl.ringLoc (Reg.cmp 2 0) = false)
    ∧ partOfWin ringed.pl 1024 = none := by decide +kernel

/-- The counts of a set add up to its cycles, however many the operand gives; the tail goes to IDLE. -/
theorem test_shares_add_up : (∀ n ∈ [0, 1, 100, 5000], ∀ x ∈ [({ set := 0 } : SetCount), { set := 0, busy := 90, stall := [5, 7] }, { set := 0, busy := 9000, stall := List.replicate 9 3 }],
    (sharesOf n x).busy + (sharesOf n x).idle + (sharesOf n x).stall.sum = n ∧ (sharesOf n x).stall.length = 8) := by decide +kernel

/-! ### Invariants and encodings -/

theorem witness_EveryStepKeepsTheMachineLawful : Lawful svc ∧ Lawful State.reset ∧ Lawful off ∧ Lawful standby ∧ Lawful (recovering [dom 0 0 0] []) := by
  refine ⟨?_, ?_, ?_, ?_, ?_⟩ <;> decide +kernel

theorem witness_PacketsParseAsBuilt : (let p := wpkt 1 5 (winExt handle3 64) bytes64
    extLen p.ptype = some p.ext.length ∧ p.flags < 256 ∧ p.tc < 8 ∧ p.dst < 2 ^ 20 ∧ p.src < 2 ^ 20 ∧ p.dstQp < 2 ^ 24 ∧ p.srcQp < 2 ^ 24 ∧ p.msgLen < 2 ^ 32
      ∧ p.offset < 2 ^ 32 ∧ parsePkt p.bytes = p) := by decide +kernel

end Sys2Proof.Tests
end

section
/-! PROOFS. The state right after reset (O58). -/
namespace Sys2Proof.Machine

/-- After reset no register is listed, so each reads as the Reset column of its row. -/
@[simp] theorem reg_reset (a : Nat) : State.reset.pl.reg a = regReset a := rfl

/-- The Reset columns of a port's block (R177) and of its scheduling block (R365). -/
theorem regReset_portColumns : ∀ n, n < 48 → regReset (Reg.prt n 0xC) = 0x88B688B5 ∧ regReset (Reg.prt n 0x10) = 0xC57B
    ∧ regReset (Reg.prt n 0x1C) = 0xFFFFFFFF ∧ regReset (Reg.prt n 0x20) = 0xFFFF ∧ regReset (Reg.quantum n 0) = 0x24
    ∧ regReset (Reg.shapeBurst n 0) = 0x40 := by decide +kernel

/-- The Reset columns of a partition's weight, ranges, root and sampler size (R221, R365, R511, R559). -/
theorem regReset_partColumns : ∀ p, p < 32 → regReset (Reg.partWeight p) = 0x10 ∧ regReset (Reg.par p 0x10) = 0x10
    ∧ regReset (Reg.root p) = 0 ∧ regReset (Reg.pc p 0x4C) = 6 := by decide +kernel

/-- The machine's invariant holds right after reset. -/
theorem lawful_reset : Lawful State.reset := by decide

/-- Settles O58: nothing is listed after reset, so every register reads as its Reset column, and the rest is computed. -/
theorem resetLeavesTheResetColumns : Obligations.ResetLeavesTheResetColumns := by
  unfold Obligations.ResetLeavesTheResetColumns
  simp only [reg_reset]
  refine ⟨rfl, rfl, rfl, rfl, rfl, rfl, rfl, rfl, rfl, rfl, rfl, rfl, rfl, rfl, rfl, rfl, rfl, rfl, rfl, rfl, rfl, rfl, rfl,
    rfl, rfl, rfl, rfl, rfl, rfl, rfl, ?registers, regReset_portColumns, regReset_partColumns, lawful_reset⟩
  case registers => decide +kernel

end Sys2Proof.Machine
end

section
/-! PROOFS. Register access (R8, R9, R12, R96): which address names an element of an array, what an accepted write of a storage
register does, and the statement that register writes follow the access code (O13). -/
namespace Sys2Proof.Machine

/-! ### Arrays of registers -/

/-- An address below an array names no element of it. -/
theorem inArr_below {base n stride a : Nat} (h : a < base) : inArr base n stride a = none :=
  if_neg fun k => absurd k.1 (by omega)

/-- An address beyond an array names no element of it. -/
theorem inArr_beyond {base n stride a : Nat} (h : base + n * stride ≤ a) (pos : 0 < stride) : inArr base n stride a = none := by
  refine if_neg fun k => ?_
  have := (Nat.div_lt_iff_lt_mul pos).1 k.2.2
  omega

/-! ### An accepted write of a storage register -/

/-- The registers of BAR0 whose write does something of its own have no row in the table of storage registers. -/
theorem regRow_ne_command {a : Nat} {r : RegRow} (h : regRow a = some r) :
    a ∉ [0x100000, 0x20000C, 0x300000, 0x400000, 0x400054, 0x500020, 0x600000, 0x600020] := by
  have none_of : ∀ b ∈ [0x100000, 0x20000C, 0x300000, 0x400000, 0x400054, 0x500020, 0x600000, 0x600020], regRow b = none := by
    decide +kernel
  intro m
  simp [none_of a m] at h

/-- The blocks XLT, WIN, XPT, CIP, COL, VEN, PAR, OBS and PWR without the region bases and the fault time limit: a stored register there
has no rule beyond its access code and the start of a sampler's interval. -/
abbrev PlainBlock (a : Nat) : Prop :=
  (0x30000 ≤ a ∧ a < 0x40000 ∨ 0xC0000 ≤ a ∧ a < 0x500000 ∨ 0x600000 ≤ a ∧ a < 0x1000000)
    ∧ ¬ (0x400100 ≤ a ∧ a < 0x400180) ∧ a ≠ Reg.faultTimeout

/-- A stored register of a plain block is written as a register of a sampler may be. -/
theorem writeStored_plain (c : Ctl) (d : Plane) {a : Nat} (v : Word) (h : PlainBlock a) :
    writeStored c d a v = writeSampler d a v := by
  obtain ⟨block, region, timeout⟩ := h
  have noRegion : inArr (Reg.region 0) 32 4 a = none := by
    by_cases below : a < 0x400100
    · exact inArr_below below
    · exact inArr_beyond (by simp only [Reg.region]; omega) (by decide)
  unfold writeStored
  rw [if_neg timeout, if_neg (by omega), if_neg (by omega), if_neg (by omega), noRegion]

/-- A storage register of a plain block is no command. -/
theorem writeCommand_plain (c : Ctl) (d : Plane) {a : Nat} {r : RegRow} (v : Word) (h : PlainBlock a) (row : regRow a = some r) :
    writeCommand c d a v = writeSampler d a v := by
  have ⟨block, _, _⟩ := h
  have ne := regRow_ne_command row
  simp only [List.mem_cons, List.not_mem_nil, or_false, not_or] at ne
  obtain ⟨par, resolve, win, qp, fence, sch, key, slot⟩ := ne
  have noPort : inArr (Reg.prt 0 0) 48 0x10000 a = none := inArr_below (by simp only [Reg.prt]; omega)
  have noRing : inArr (Reg.wrg 0 0x10) 8192 0x40 a = none := inArr_below (by simp only [Reg.wrg]; omega)
  have noComp : inArr (Reg.cmp 0 0x10) 8192 0x40 a = none := inArr_below (by simp only [Reg.cmp]; omega)
  unfold writeCommand
  rw [if_neg par, if_neg resolve, if_neg win, if_neg qp, if_neg fence, if_neg sch, if_neg key, if_neg slot, noPort, noRing, noComp]
  exact writeStored_plain c d v h

/-- The owner's write of a plain storage register that is no half of a 64-bit quantity. -/
theorem writeOwned_plain (s : State) (agent : Nat) {a : Nat} {r : RegRow} (v : Word) (h : PlainBlock a)
    (single : quantityOf a = none) (row : regRow a = some r) :
    writeOwned s agent a v = { s with pl := writeSampler s.pl a v } := by
  have ⟨block, _, _⟩ := h
  have noPtp : (a == Reg.ptpCtrl) = false := by simp only [Reg.ptpCtrl, beq_eq_false_iff_ne]; omega
  unfold writeOwned
  rw [single]
  dsimp only
  rw [if_neg (by omega), noPtp, Bool.false_and, Bool.false_and, if_neg Bool.false_ne_true, onPlane, writeCommand_plain _ _ _ h row]

/-- A write of BAR0 outside the registers of ownership that any agent may write reaches its register when the agent owns the device. -/
theorem writeBar_owned (s : State) (g : Agent) {a : Nat} (v : Word) (aligned : a % 4 = 0) (inBar : a < 0x4000000)
    (claim : a ≠ 0x10000) (handover : a ≠ 0x10008) (reject : a ≠ 0x1000C) :
    writeBar s g a v = owned g a (fun s => writeOwned s (agentId g) a v) s := by
  unfold writeBar
  rw [if_neg (by omega), if_neg claim, if_neg (fun k => handover k.1), if_neg handover, if_neg reject]

theorem writeBar_plain (s : State) (g : Agent) {a : Nat} {r : RegRow} (v : Word) (acc : Accepted s g a) (aligned : a % 4 = 0)
    (h : PlainBlock a) (single : quantityOf a = none) (row : regRow a = some r) :
    writeBar s g a v = { s with pl := writeSampler s.pl a v } := by
  have ⟨block, _, _⟩ := h
  rw [writeBar_owned s g v aligned (by omega) (by omega) (by omega) (by omega), owned_accepted _ _ _ _ acc,
    writeOwned_plain s _ v h single row]

/-! ### What a write of a sampler's register changes -/

/-- A register write touches the registers only. -/
theorem writeReg_frame (d : Plane) (a : Nat) (v : Word) : ∃ m, d.writeReg a v = { d with regs := m } := by
  rw [writeReg_cases]
  cases regRow a with
  | none => exact ⟨_, rfl⟩
  | some r => cases hr : r.acc <;> exact ⟨_, by simp only [hr]; rfl⟩

/-- What a register that held `old` holds after a write, by the access code of its row (R12). -/
def RegRow.after (r : RegRow) (old v : Word) : Word :=
  match r.acc with
  | .rw => r.written v
  | .w1c => old &&& ~~~v
  | .rc | .snap => old

/-- What every register reads as after a register write. -/
theorem writeReg_reg (d : Plane) {a : Nat} {r : RegRow} (v : Word) (row : regRow a = some r) (b : Nat) :
    (d.writeReg a v).reg b = if b = a then r.after (d.reg a) v else d.reg b := by
  unfold RegRow.after
  rw [writeReg_cases, row]
  dsimp only
  by_cases same : b = a
  · subst same
    cases r.acc <;> simp
  · cases r.acc <;> simp [same]

/-- A write of a sampler's register is a register write that may begin an interval. -/
theorem writeSampler_eq (d : Plane) (a : Nat) (v : Word) : ∃ x y,
    writeSampler d a v = { d.writeReg a v with obs := { d.obs with smpAt := x, edges := y } } := by
  obtain ⟨m, h⟩ := writeReg_frame d a v
  unfold writeSampler
  rw [h]
  dsimp only
  split
  · split
    · exact ⟨_, _, rfl⟩
    · exact ⟨_, _, rfl⟩
  · exact ⟨_, _, rfl⟩

/-- Only the CFG registers of the samplers begin an interval. -/
theorem writeSampler_other (d : Plane) {a : Nat} (v : Word) (global : a ≠ Reg.smpCfg) (parts : ∀ p, p < 32 → a ≠ Reg.pc p 0x40) :
    writeSampler d a v = d.writeReg a v := by
  have noPart : inArr (Reg.pc 0 0x40) 32 0x100 a = none := by
    refine if_neg fun k => parts ((a - Reg.pc 0 0x40) / 0x100) k.2.2 ?_
    simp only [Reg.pc] at k ⊢
    omega
  unfold writeSampler
  rw [if_neg global, noPart]
  rfl

/-! ### The statement -/

/-- A 32-bit write is the write of its path. -/
theorem registerWrite_word (s : State) (g : Agent) (a : Nat) (v : Word) (q : (writeBar s g a v).pl.effects = []) :
    exec (.registerWrite (.bar g) a 4 v) s = .next (writeBar s g a v) :=
  congrArg _ (ctlStep_quiet (fun s => writeSized s (.bar g) a 4 v) s q)

/-- A write of another size, or of an address that is not aligned, is no write (R9). -/
theorem registerWrite_ignored (s : State) (g : Agent) {a n : Nat} (v : Word) (quiet : Quiet s) (h : n ≠ 4 ∨ a % 4 ≠ 0) :
    exec (.registerWrite (.bar g) a n v) s = .next s := by
  have same : writeSized s (.bar g) a n v = s := by
    by_cases size : n = 4
    · have odd : a % 4 ≠ 0 := h.resolve_left fun k => k size
      rw [writeSized, if_pos size]
      exact if_pos (.inl odd)
    · exact if_neg size
  calc exec (.registerWrite (.bar g) a n v) s = .next (settle (writeSized s (.bar g) a n v)) := rfl
    _ = .next s := by rw [same, settle_quiet s quiet]

/-- A write of an agent that is not the owner is dropped and noted (R96). -/
theorem writeBar_notOwner (s : State) (g : Agent) {a : Nat} (v : Word) (arrives : s.ctl.arrives g = true)
    (other : s.ctl.own.owner.toNat ≠ agentId g) (aligned : a % 4 = 0) (inBar : a < 0x4000000)
    (claim : a ≠ 0x10000) (handover : a ≠ 0x10008) (reject : a ≠ 0x1000C) : writeBar s g a v = dropWrite s g := by
  rw [writeBar_owned s g v aligned inBar claim handover reject]
  simp [owned, arrives, other]

/-- An accepted write of a plain storage register takes effect by its access code, and may begin a sampler's interval. -/
theorem registerWrite_plain (s : State) (g : Agent) {a : Nat} {r : RegRow} (v : Word) (quiet : Quiet s) (acc : Accepted s g a)
    (aligned : a % 4 = 0) (h : PlainBlock a) (single : quantityOf a = none) (row : regRow a = some r) :
    exec (.registerWrite (.bar g) a 4 v) s = .next { s with pl := writeSampler s.pl a v } := by
  have plain := writeBar_plain s g v acc aligned h single row
  obtain ⟨x, y, sampler⟩ := writeSampler_eq s.pl a v
  obtain ⟨m, frame⟩ := writeReg_frame s.pl a v
  rw [registerWrite_word s g a v (by rw [plain, sampler, frame]; exact quiet), plain]

/-- The row of the input power limit (R141). -/
def pwrLimitRow : RegRow := { base := Reg.pwrLimit, reset := 0xA8C, clamps := [(31, 0, 1000, 2700)] }

theorem regRow_pwrLimit : regRow Reg.pwrLimit = some pwrLimitRow := by decide +kernel

/-- The input power limit takes a value clamped to 1,000 to 2,700 W (R141). -/
theorem pwrLimitRow_written (v : Word) : (pwrLimitRow.written v).toNat = clampNat 1000 2700 v.toNat := by
  have whole : v &&& 0xFFFFFFFF = v := BitVec.and_allOnes
  have bound : clampNat 1000 2700 v.toNat < 2 ^ 32 := by
    unfold clampNat
    split
    · decide
    · split <;> omega
  have word (n : Nat) (h : n < 2 ^ 32) : (field n 32 0).toNat = n := by
    unfold field
    rw [BitVec.toNat_ofNat]
    omega
  have all : field v.toNat 32 0 = v := BitVec.eq_of_toNat_eq (word _ v.isLt)
  have value : bits v 31 0 = v.toNat := by
    unfold bits
    omega
  show ((v &&& 0xFFFFFFFF) - field (bits (v &&& 0xFFFFFFFF) 31 0) 32 0 + field (clampNat 1000 2700 (bits (v &&& 0xFFFFFFFF) 31 0)) 32 0).toNat = _
  rw [whole, value, all, BitVec.sub_self, BitVec.zero_add, word _ bound]

/-- Settles O13: an accepted write of a plain storage register is a register write that may begin a sampler's interval; a write that
does not count leaves the state; one of another agent is dropped. -/
theorem registerWritesFollowTheAccessCode : Obligations.RegisterWritesFollowTheAccessCode := by
  refine ⟨?storage, ?powerLimit, fun s g a n v quiet h => registerWrite_ignored s g v quiet h, ?notOwner⟩
  case storage =>
    intro s g a v r quiet acc aligned block region timeout single row
    obtain ⟨x, y, sampler⟩ := writeSampler_eq s.pl a v
    obtain ⟨m, frame⟩ := writeReg_frame s.pl a v
    have regs : ∀ b, (writeSampler s.pl a v).reg b = (s.pl.writeReg a v).reg b := fun b => by rw [sampler]; rfl
    refine ⟨_, registerWrite_plain s g v quiet acc aligned ⟨.inr block, region, timeout⟩ single row, ?_, ?_, ?_, ?_⟩
    · exact (regs a).trans ((writeReg_reg _ v row a).trans (if_pos rfl))
    · exact fun b other => (regs b).trans (by rw [writeReg_reg _ v row, if_neg other])
    · intro global parts
      dsimp only
      rw [writeSampler_other _ v global parts, frame]
    · dsimp only
      rw [sampler, frame]
  case powerLimit =>
    intro s g v quiet acc
    obtain ⟨m, frame⟩ := writeReg_frame s.pl 0x30014 v
    have sampler : writeSampler s.pl 0x30014 v = s.pl.writeReg 0x30014 v :=
      writeSampler_other _ v (by decide) (fun p _ => by simp only [Reg.pc]; omega)
    have regs := fun b => writeReg_reg s.pl v regRow_pwrLimit b
    have write := registerWrite_plain s g v quiet acc (by decide) (by decide) (by decide) regRow_pwrLimit
    rw [sampler] at write
    refine ⟨_, write, ?_, ?_, ?_⟩
    · exact (congrArg BitVec.toNat ((regs _).trans (if_pos rfl))).trans (pwrLimitRow_written v)
    · exact fun b other => (regs b).trans (if_neg other)
    · dsimp only
      rw [frame]
  case notOwner =>
    intro s g a v quiet arrives other aligned inBar claim handover reject
    have drop := writeBar_notOwner s g v arrives other aligned inBar claim handover reject
    rw [registerWrite_word s g a v (by rw [drop]; exact quiet), drop]
    rfl

end Sys2Proof.Machine
end

section
/-! PROOFS. Reads that clear (R8, R12, R478): what a read of a counter answers and leaves, and the statement that counters clear
when read (O16). -/
namespace Sys2Proof.Machine

/-! ### A read that clears -/

/-- A counter of BAR0 that a read clears: a storage register of code RC, no half of a 64-bit quantity and no counter set. -/
abbrev ClearsOnRead (a : Nat) : Prop :=
  a % 4 = 0 ∧ a < 0x4000000 ∧ quantityOf a = none ∧ inArr 0xC1000 (lastSet + 1) 4 a = none ∧ (regRow a).map (·.acc) = some .rc

/-- What reading such a counter leaves of the registers: it holds 0. -/
theorem afterRead_clears (d : Plane) {a : Nat} (h : ClearsOnRead a) : d.afterRead a = d.setReg a 0 := by
  obtain ⟨-, -, -, -, rc⟩ := h
  unfold Plane.afterRead
  cases row : regRow a with
  | none => simp [row] at rc
  | some r =>
    have acc : r.acc = .rc := by simpa [row] using rc
    exact if_pos acc

/-- A counter of no vein is cleared and nothing else. -/
theorem readSide_clears (d : Plane) {a : Nat} (w : Word) (h : ClearsOnRead a) (noVein : inArr (Reg.venErrcnt 0) 64 0x10 a = none) :
    readSide a w d = (w, d.setReg a 0) := by
  have ⟨_, _, _, noSet, _⟩ := h
  unfold readSide
  rw [noSet, noVein, ← afterRead_clears d h]

/-- A read of ERRCNT also clears and re-arms the error words of its vein (R478). -/
theorem readSide_errcnt (d : Plane) {a v : Nat} (w : Word) (h : ClearsOnRead a) (vein : inArr (Reg.venErrcnt 0) 64 0x10 a = some v) :
    readSide a w d = (w, (d.setReg a 0).setVein v { d.vein v with
      err0 := 0, err1 := 0, errArmed := true, saturated := false, nanOut := false, infOut := false }) := by
  have ⟨_, _, _, noSet, _⟩ := h
  unfold readSide
  rw [noSet, vein]
  dsimp only
  rw [afterRead_clears d h]
  rfl

/-- A 32-bit read of a register that is no half of a 64-bit quantity answers its word, with the effect of the read. -/
theorem readSized_single (s : State) (g : Agent) {a : Nat} (arrives : s.ctl.arrives g = true)
    (up : s.ctl.dev.state.booted = true ∧ s.ctl.dev.rails = true) (aligned : a % 4 = 0) (inBar : a < 0x4000000)
    (single : quantityOf a = none) :
    readSized s (.bar g) a 4 =
      answer { s with pl := (readSide a (readWord s.ctl s.pl a) s.pl).2 } (readSide a (readWord s.ctl s.pl a) s.pl).1 := by
  have bar : readBar s (agentId g) a = readReg s (agentId g) a := by
    unfold readBar
    rw [if_neg (by omega), if_neg (by omega), if_pos (by simp [up])]
  have reg : readReg s (agentId g) a =
      ((readSide a (readWord s.ctl s.pl a) s.pl).1, { s with pl := (readSide a (readWord s.ctl s.pl a) s.pl).2 }) := by
    unfold readReg
    rw [single]
  unfold readSized readVia
  rw [if_pos rfl]
  dsimp only
  rw [if_pos arrives, bar, reg]

/-- A read of another size over PCIe answers all-ones and changes nothing (R8). -/
theorem readSized_wrongSize (s : State) (a : Nat) {n : Nat} (arrives : s.ctl.arrives .pcie = true) (size : n ≠ 4) :
    readSized s (.bar .pcie) a n = { s with pl := { s.pl with bus := { data := 0xFFFFFFFF, wide := List.replicate n 0xFF } } } := by
  unfold readSized
  rw [if_neg size]
  exact if_pos arrives

/-- A register of BAR0 that is a counter and nothing else: a read answers it and clears it. -/
structure PlainCounter (a : Nat) : Prop where
  clears : ClearsOnRead a
  noVein : inArr (Reg.venErrcnt 0) 64 0x10 a = none
  word : ∀ c d, readWord c d a = d.reg a

/-! ### The words of the counters -/

/-- A word of XPT beyond the fence count and the queue counts of the slices is a stored one (R304). -/
theorem readWord_qpcDrop (c : Ctl) (d : Plane) (q : QuadId) : readWord c d (Reg.qpcDrop q.val) = d.reg (Reg.qpcDrop q.val) := by
  have address : Reg.qpcDrop q.val = 0x401008 + q.val * 0x10 := rfl
  have noParked : inArr 0x401000 4 0x10 (Reg.qpcDrop q.val) = none := if_neg (by omega)
  have noResident : inArr 0x401004 4 0x10 (Reg.qpcDrop q.val) = none := if_neg (by omega)
  have block : readWord c d (Reg.qpcDrop q.val) = readXpt c d (Reg.qpcDrop q.val) := by
    unfold readWord
    iterate 10 rw [if_neg (by omega)]
    rw [if_pos (by omega)]
  rw [block]
  unfold readXpt
  iterate 9 rw [if_neg (by omega)]
  rw [noParked, noResident]

/-- The third word of a stack's block is a stored one (R543). -/
theorem readWord_hbmUe (c : Ctl) (d : Plane) (k : StackId) : readWord c d (Reg.hbmUe k.val) = d.reg (Reg.hbmUe k.val) := by
  have address : Reg.hbmUe k.val = 0x1400008 + k.val * 0x10000 := rfl
  have stack : (Reg.hbmUe k.val - 0x1400000) / 0x10000 = k.val := by omega
  have offset : Reg.hbmUe k.val % 0x10000 = 8 := by omega
  have home : 0x1400000 + k.val * 0x10000 + 8 = Reg.hbmUe k.val := by omega
  have block : readWord c d (Reg.hbmUe k.val) = readHbm c d k.val 8 := by
    unfold readWord
    iterate 17 rw [if_neg (by omega)]
    rw [if_pos (by omega), stack, offset]
  rw [block, ← home]
  rfl

/-- The CQ_ERR word of a partition's counter block is a stored one (R559). -/
theorem readWord_pcCqErr (c : Ctl) (d : Plane) (p : PartId) : readWord c d (Reg.pcCqErr p.val) = d.reg (Reg.pcCqErr p.val) := by
  have address : Reg.pcCqErr p.val = 0xC8000 + p.val * 0x100 + 0x20 := rfl
  have first : Reg.pc 0 0 = 0xC8000 := rfl
  have beyond : Reg.pc 32 0 = 0xCA000 := rfl
  have part : (Reg.pcCqErr p.val - Reg.pc 0 0) / 0x100 = p.val := by omega
  have offset : (Reg.pcCqErr p.val - Reg.pc 0 0) % 0x100 = 0x20 := by omega
  have block : readWord c d (Reg.pcCqErr p.val) = readObs c d (Reg.pcCqErr p.val) := by
    unfold readWord
    iterate 6 rw [if_neg (by omega)]
    rw [if_pos (by omega)]
  rw [block]
  unfold readObs
  iterate 4 rw [if_neg (by omega)]
  rw [if_pos (by omega), part, offset]
  rfl

/-- The fourth word of a vein's status is a stored one (R478). -/
theorem readWord_venErrcnt (c : Ctl) (d : Plane) (v : VeinId) : readWord c d (Reg.venErrcnt v.val) = d.reg (Reg.venErrcnt v.val) := by
  have address : Reg.venErrcnt v.val = 0x80100C + v.val * 0x10 := rfl
  have element : inArr 0x801000 256 4 (Reg.venErrcnt v.val) = some (4 * v.val + 3) := by
    have index : (Reg.venErrcnt v.val - 0x801000) / 4 = 4 * v.val + 3 := by omega
    unfold inArr
    rw [if_pos (by omega), index]
  have block : readWord c d (Reg.venErrcnt v.val) = readVen c d (Reg.venErrcnt v.val) := by
    unfold readWord
    iterate 14 rw [if_neg (by omega)]
    rw [if_pos (by omega)]
  rw [block]
  unfold readVen
  rw [element]
  dsimp only
  iterate 3 rw [if_neg (by omega)]

/-! ### The counters of the K920 -/

theorem qpcDrop_counter (q : QuadId) : PlainCounter (Reg.qpcDrop q.val) where
  clears := (by decide +kernel : ∀ q : QuadId, ClearsOnRead (Reg.qpcDrop q.val)) q
  noVein := inArr_below (by simp only [Reg.qpcDrop, Reg.venErrcnt]; omega)
  word c d := readWord_qpcDrop c d q

theorem lateCount_counter : PlainCounter Reg.lateCount where
  clears := by decide +kernel
  noVein := rfl
  word _ _ := rfl

theorem missCount_counter : PlainCounter Reg.missCount where
  clears := by decide +kernel
  noVein := rfl
  word _ _ := rfl

theorem hbmUe_counter (k : StackId) : PlainCounter (Reg.hbmUe k.val) where
  clears := (by decide +kernel : ∀ k : StackId, ClearsOnRead (Reg.hbmUe k.val)) k
  noVein := inArr_beyond (by simp only [Reg.hbmUe, Reg.venErrcnt]; omega) (by decide)
  word c d := readWord_hbmUe c d k

theorem traceLost_counter : PlainCounter Reg.traceLost where
  clears := by decide +kernel
  noVein := rfl
  word _ _ := rfl

theorem pcCqErr_counter (p : PartId) : PlainCounter (Reg.pcCqErr p.val) where
  clears := (by decide +kernel : ∀ p : PartId, ClearsOnRead (Reg.pcCqErr p.val)) p
  noVein := inArr_below (by simp only [Reg.pcCqErr, Reg.pc, Reg.venErrcnt]; omega)
  word c d := readWord_pcCqErr c d p

/-- ERRCNT of a vein is a counter that clears on read, and names its vein. -/
theorem venErrcnt_clears : ∀ v : VeinId, ClearsOnRead (Reg.venErrcnt v.val)
    ∧ inArr (Reg.venErrcnt 0) 64 0x10 (Reg.venErrcnt v.val) = some v.val := by
  decide +kernel

/-! ### The commands that read them -/

/-- A command that is a read ends as the read leaves the state, when no effect is raised. -/
theorem exec_of_read {s t : State} {c : Instr} {g : Agent} {a n : Nat} (means : exec c s = .next (settle (readSized s (.bar g) a n)))
    (read : readSized s (.bar g) a n = t) (quiet : Quiet t) : exec c s = .next t := by
  rw [means, read, settle_quiet t quiet]

/-- A command that is a 32-bit read of a plain counter answers the count and clears it, and no other register. -/
theorem read_plainCounter {s : State} {c : Instr} {g : Agent} {a : Nat} (quiet : Quiet s) (arrives : s.ctl.arrives g = true)
    (up : s.ctl.dev.state.booted = true ∧ s.ctl.dev.rails = true) (h : PlainCounter a)
    (means : exec c s = .next (settle (readSized s (.bar g) a 4))) :
    ∃ t, exec c s = .next t ∧ t.pl.bus = { data := s.pl.reg a } ∧ t.pl.reg a = 0 ∧ (∀ b, b ≠ a → t.pl.reg b = s.pl.reg b)
      ∧ t = { s with pl := { s.pl with regs := t.pl.regs, bus := t.pl.bus } } := by
  have ⟨aligned, inBar, single, _, _⟩ := h.clears
  have read : readSized s (.bar g) a 4 = answer { s with pl := s.pl.setReg a 0 } (s.pl.reg a) := by
    rw [readSized_single s g arrives up aligned inBar single, h.word, readSide_clears s.pl _ h.clears h.noVein]
  have regs (b : Nat) := reg_setReg s.pl a b 0
  exact ⟨_, exec_of_read means read quiet, rfl, (regs a).trans (if_pos rfl), fun b other => (regs b).trans (if_neg other), rfl⟩

/-- A 32-bit read of ERRCNT answers the count, clears it, and clears and re-arms the error words of its vein (R478). -/
theorem read_venErrcnt {s : State} {g : Agent} (quiet : Quiet s) (arrives : s.ctl.arrives g = true)
    (up : s.ctl.dev.state.booted = true ∧ s.ctl.dev.rails = true) (v : VeinId) :
    exec (.venErrcntRead ⟨g, 4⟩ v) s =
      .next (answer { s with pl := (s.pl.setReg (Reg.venErrcnt v.val) 0).setVein v.val { s.pl.vein v.val with
        err0 := 0, err1 := 0, errArmed := true, saturated := false, nanOut := false, infOut := false } } (s.pl.reg (Reg.venErrcnt v.val))) := by
  obtain ⟨clears, vein⟩ := venErrcnt_clears v
  have ⟨aligned, inBar, single, _, _⟩ := clears
  refine exec_of_read (a := Reg.venErrcnt v.val) rfl ?_ quiet
  rw [readSized_single s g arrives up aligned inBar single, readWord_venErrcnt, readSide_errcnt s.pl _ clears vein]

/-- Settles O16: each counter is a storage register of code RC that its command reads, and ERRCNT names its vein. -/
theorem countersClearWhenRead : Obligations.CountersClearWhenRead := by
  intro s g quiet arrives booted rails cleared
  have up := And.intro booted rails
  refine ⟨fun q => read_plainCounter quiet arrives up (qpcDrop_counter q) rfl, read_plainCounter quiet arrives up lateCount_counter rfl,
    read_plainCounter quiet arrives up missCount_counter rfl, fun k => read_plainCounter quiet arrives up (hbmUe_counter k) rfl,
    read_plainCounter quiet arrives up traceLost_counter rfl, ?partition, ?vein, ?wrongSize⟩
  case partition =>
    intro p
    have address : 0xC8020 + p.val * 0x100 = Reg.pcCqErr p.val := by simp only [Reg.pcCqErr, Reg.pc]; omega
    rw [address]
    exact read_plainCounter quiet arrives up (pcCqErr_counter p) rfl
  case vein =>
    intro v
    refine ⟨_, read_venErrcnt quiet arrives up v, rfl, ?_, ?_, ?_, ?_, rfl⟩
    · exact (reg_setReg s.pl _ _ 0).trans (if_pos rfl)
    · exact (Plane.setVein_vein _ _ _ _).trans (if_pos rfl)
    · exact fun w other => (Plane.setVein_vein _ _ _ _).trans (if_neg other)
    · exact fun b other => (reg_setReg s.pl _ b 0).trans (if_neg other)
  case wrongSize =>
    rintro n c size rfl h
    simp only [List.mem_cons, List.not_mem_nil, or_false] at h
    rcases h with rfl | rfl | rfl | rfl | rfl | rfl | rfl <;>
      exact exec_of_read rfl (readSized_wrongSize s _ arrives size) quiet

end Sys2Proof.Machine
end

section
/-! PROOFS. The 64-bit quantities of the register space (R35 to R37): reads take snapshots (O11), and written low halves are
held (O12). -/
namespace Sys2Proof.Machine

/-! ### What an address names -/

/-- An address of a quantity is no address that names none. -/
theorem ne_of_quantity {a b lo : Nat} (h : quantityOf a = some lo) (none : quantityOf b = none) : a ≠ b := by
  rintro rfl
  simp [none] at h

theorem namesLo_bar (s : State) (g : Agent) {lo : Nat} (low : quantityOf lo = some lo) : namesLo s (.bar g) lo = true := by
  simp [namesLo, homeOf, low]

theorem namesHi_bar (s : State) (g : Agent) {lo : Nat} (high : quantityOf (lo + 4) = some lo) :
    namesHi s (.bar g) (lo + 4) = true := by
  simp [namesHi, namesLo, homeOf, high]

/-! ### Snapshots of reads (R35, R36) -/

/-- The keys of snapshots tell agents and quantities apart. -/
theorem snapKey_inj {a b p q : Nat} (hp : p < 2 ^ 32) (hq : q < 2 ^ 32) : snapKey a p = snapKey b q ↔ a = b ∧ p = q := by
  unfold snapKey
  omega

/-- What every snapshot is after one was set. -/
theorem setSnap_snap (s : State) (agent lo : Nat) (v : Option DWord) (inBar : lo < 2 ^ 32) (a q : Nat) (hq : q < 2 ^ 32) :
    (setSnap s agent lo v).ctl.snap a q = if a = agent ∧ q = lo then v else s.ctl.snap a q := by
  simp only [setSnap, Ctl.snap, onCtl_ctl, SMap.find_put, snapKey_inj hq inBar]
  split <;> rfl

/-- Setting a snapshot touches the snapshots only. -/
theorem setSnap_frame (s : State) (agent lo : Nat) (v : Option DWord) :
    setSnap s agent lo v = { s with ctl := { s.ctl with snaps := (setSnap s agent lo v).ctl.snaps } } := rfl

/-- A read of a register that is powered and out of reset. -/
theorem readBar_up (s : State) (agent : Nat) {a : Nat} (aligned : a % 4 = 0) (inBar : a < 0x4000000)
    (up : standbyBlock a = true ∨ s.ctl.dev.state.booted = true ∧ s.ctl.dev.rails = true) :
    readBar s agent a = readReg s agent a := by
  unfold readBar
  rw [if_neg (by omega), if_neg (by omega), if_pos (by simpa using up)]

/-- A 32-bit read answers the word that it finds. -/
theorem readSized_word (s : State) (g : Agent) (a : Nat) (arrives : s.ctl.arrives g = true) :
    readSized s (.bar g) a 4 = answer (readBar s (agentId g) a).2 (readBar s (agentId g) a).1 := by
  unfold readSized readVia
  rw [if_pos rfl]
  exact if_pos arrives

/-- A read of the low half answers it and takes a snapshot. -/
theorem readReg_lo (s : State) (agent : Nat) {lo : Nat} (low : quantityOf lo = some lo) :
    readReg s agent lo = (readWord s.ctl s.pl lo,
      setSnap s agent lo (some (readWord s.ctl s.pl (lo + 4) ++ readWord s.ctl s.pl lo))) := by
  unfold readReg
  rw [low]
  exact if_pos rfl

/-- A read of the high half answers the upper half of the agent's snapshot and uses it up. -/
theorem readReg_hi_snapshot (s : State) (agent : Nat) {lo : Nat} {v : DWord} (high : quantityOf (lo + 4) = some lo)
    (held : s.ctl.snap agent lo = some v) : readReg s agent (lo + 4) = (hiWord v, setSnap s agent lo none) := by
  unfold readReg
  rw [high]
  dsimp only
  rw [if_neg (by omega), held]

/-- Without a snapshot a read of the high half answers the live one. -/
theorem readReg_hi_live (s : State) (agent : Nat) {lo : Nat} (high : quantityOf (lo + 4) = some lo)
    (free : s.ctl.snap agent lo = none) : readReg s agent (lo + 4) = (readWord s.ctl s.pl (lo + 4), s) := by
  unfold readReg
  rw [high]
  dsimp only
  rw [if_neg (by omega), free]

theorem loSnapshotRead_bar (s : State) (g : Agent) (n : Nat) {lo : Nat} (low : quantityOf lo = some lo) :
    exec (.loSnapshotRead ⟨.bar g, n⟩ lo) s = .next (settle (readSized s (.bar g) lo n)) := by
  show Host.Outcome.next (settle (if namesLo s (.bar g) lo then readSized s (.bar g) lo n else s)) = _
  rw [if_pos (namesLo_bar s g low)]

theorem hiRead_bar (s : State) (g : Agent) (n : Nat) {lo : Nat} (high : quantityOf (lo + 4) = some lo) :
    exec (.hiRead ⟨.bar g, n⟩ (lo + 4)) s = .next (settle (readSized s (.bar g) (lo + 4) n)) := by
  show Host.Outcome.next (settle (if namesHi s (.bar g) (lo + 4) then readSized s (.bar g) (lo + 4) n else s)) = _
  rw [if_pos (namesHi_bar s g high)]

/-- Settles O11: both registers are found on the bus, and the three cases are a snapshot taken, one used up, and none there. -/
theorem sixtyFourBitReadsUseASnapshot : Obligations.SixtyFourBitReadsUseASnapshot := by
  intro s g lo quiet arrives aligned inBar upLo upHi low high
  have key : lo < 2 ^ 32 := by omega
  have readLo : readSized s (.bar g) lo 4 = answer (readReg s (agentId g) lo).2 (readReg s (agentId g) lo).1 := by
    rw [readSized_word s g lo arrives, readBar_up s _ aligned (by omega) upLo]
  have readHi : readSized s (.bar g) (lo + 4) 4 = answer (readReg s (agentId g) (lo + 4)).2 (readReg s (agentId g) (lo + 4)).1 := by
    rw [readSized_word s g (lo + 4) arrives, readBar_up s _ (by omega) inBar upHi]
  refine ⟨?lo, ?hi, ?wrongSize⟩
  case lo =>
    rw [readReg_lo s _ low] at readLo
    refine ⟨_, exec_of_read (loSnapshotRead_bar s g 4 low) readLo quiet, rfl, ?_, fun a q hq other => ?_, rfl, rfl⟩
    · exact (setSnap_snap s _ lo _ key _ lo key).trans (if_pos ⟨rfl, rfl⟩)
    · exact (setSnap_snap s _ lo _ key a q hq).trans (if_neg fun same => other (by rw [same.1, same.2]))
  case hi =>
    cases held : s.ctl.snap (agentId g) lo with
    | some v =>
      rw [readReg_hi_snapshot s _ high held] at readHi
      refine ⟨_, exec_of_read (hiRead_bar s g 4 high) readHi quiet, rfl, ?_, fun a q hq other => ?_, rfl, rfl⟩
      · exact (setSnap_snap s _ lo _ key _ lo key).trans (if_pos ⟨rfl, rfl⟩)
      · exact (setSnap_snap s _ lo _ key a q hq).trans (if_neg fun same => other (by rw [same.1, same.2]))
    | none =>
      rw [readReg_hi_live s _ high held] at readHi
      exact ⟨_, exec_of_read (hiRead_bar s g 4 high) readHi quiet, rfl, held, fun _ _ _ _ => rfl, rfl, rfl⟩
  case wrongSize =>
    rintro n size rfl
    exact ⟨exec_of_read (loSnapshotRead_bar s .pcie n low) (readSized_wrongSize s lo arrives size) quiet,
      exec_of_read (hiRead_bar s .pcie n high) (readSized_wrongSize s (lo + 4) arrives size) quiet⟩

/-! ### Held halves of writes (R37) -/

/-- No CFG register of a sampler is half of a quantity. -/
theorem quantityOf_samplerCfg : quantityOf Reg.smpCfg = none ∧ ∀ p, p < 32 → quantityOf (Reg.pc p 0x40) = none := by
  decide +kernel

/-- An address of XLT, XPT_QP_BUF and the other blocks below SCH, or of CIP to VEN, that is no region base (R305) and not the
fault time limit: a stored quantity there has no rule of its own. -/
structure PlainQuantity (a : Nat) : Prop where
  block : a < 0x500000 ∨ 0x600000 ≤ a ∧ a < 0x1000000
  region : ¬ (0x400100 ≤ a ∧ a < 0x400180)
  timeout : a ≠ Reg.faultTimeout

theorem PlainQuantity.noRegion {a : Nat} (h : PlainQuantity a) : inArr (Reg.region 0) 32 4 a = none := by
  have := h.region
  by_cases below : a < 0x400100
  · exact inArr_below below
  · exact inArr_beyond (by simp only [Reg.region]; omega) (by decide)

/-- A write of such a half is a register write. -/
theorem PlainQuantity.writeStored {a lo : Nat} (h : PlainQuantity a) (half : quantityOf a = some lo) (c : Ctl) (d : Plane)
    (v : Word) : writeStored c d a v = d.writeReg a v := by
  have block := h.block
  have ⟨global, parts⟩ := quantityOf_samplerCfg
  unfold Machine.writeStored
  rw [if_neg h.timeout, if_neg (by omega), if_neg (by omega), if_neg (by omega), h.noRegion]
  exact writeSampler_other d v (ne_of_quantity half global) fun p hp => ne_of_quantity half (parts p hp)

/-- Such a quantity takes writes at any time. -/
theorem PlainQuantity.isOpen {lo : Nat} (h : PlainQuantity lo) (d : Plane) : quantityOpen d lo = true := by
  have block := h.block
  unfold quantityOpen
  rw [if_neg (by simp only [Reg.wrg]; omega), if_neg (by simp only [Reg.cmp]; omega), h.noRegion]

theorem RegRow.after_rw {r : RegRow} (rw_ : r.acc = .rw) (old v : Word) : r.after old v = r.written v := by
  unfold RegRow.after
  rw [rw_]

/-- What every register reads as after a write of an RW register. -/
theorem writeReg_reg_rw (d : Plane) {a : Nat} {r : RegRow} (v : Word) (row : regRow a = some r) (rw_ : r.acc = .rw) (b : Nat) :
    (d.writeReg a v).reg b = if b = a then r.written v else d.reg b := by
  rw [writeReg_reg d v row b, RegRow.after_rw rw_]

theorem writable_of_row {lo : Nat} {r : RegRow} (row : regRow lo = some r) (rw_ : r.acc = .rw) : writable lo = true := by
  simp [writable, row, rw_]

/-- An accepted write of half a quantity reaches the register as the owner's. -/
theorem writeBar_half (s : State) (g : Agent) {a lo : Nat} (v : Word) (acc : Accepted s g a) (aligned : a % 4 = 0)
    (inBar : a < 0x4000000) (half : quantityOf a = some lo) : writeBar s g a v = writeOwned s (agentId g) a v := by
  rw [writeBar_owned s g v aligned inBar (ne_of_quantity half (by decide)) (ne_of_quantity half (by decide))
    (ne_of_quantity half (by decide)), owned_accepted _ _ _ _ acc]

theorem writeOwned_lo (s : State) (agent : Nat) {lo : Nat} (v : Word) (low : quantityOf lo = some lo) (rw_ : writable lo = true) :
    writeOwned s agent lo v = holdLo s agent lo v := by
  unfold writeOwned
  rw [low]
  simp [rw_]

theorem writeOwned_hi (s : State) (agent : Nat) {lo : Nat} (v : Word) (high : quantityOf (lo + 4) = some lo)
    (rw_ : writable lo = true) : writeOwned s agent (lo + 4) v = applyHi s agent lo v := by
  unfold writeOwned
  rw [high]
  simp [rw_]

/-- The half that is held for an agent. -/
def heldFor (s : State) (agent lo : Nat) : Option DWord :=
  if (SMap.find ({} : Hold) s.ctl.held lo).owner = agent then (SMap.find ({} : Hold) s.ctl.held lo).value else none

/-- With a half held for its agent, a write of the high half applies both and uses the held one up. -/
theorem applyHi_held {s : State} {agent lo : Nat} {x : DWord} (v : Word) (half : heldFor s agent lo = some x) :
    applyHi s agent lo v = { s with
      ctl := { s.ctl with held := SMap.put {} s.ctl.held lo {} }
      pl := writeStored { s.ctl with held := SMap.put {} s.ctl.held lo {} }
        (writeStored { s.ctl with held := SMap.put {} s.ctl.held lo {} } s.pl lo (x.setWidth 32)) (lo + 4) v } := by
  unfold heldFor at half
  unfold applyHi
  dsimp only
  rw [half]
  rfl

/-- Without one, it applies the high half alone. -/
theorem applyHi_alone {s : State} {agent lo : Nat} (v : Word) (half : heldFor s agent lo = none) :
    applyHi s agent lo v = { s with pl := writeStored s.ctl s.pl (lo + 4) v } := by
  unfold heldFor at half
  unfold applyHi
  dsimp only
  rw [half]
  rfl

theorem loWriteHold_bar (s : State) (g : Agent) {lo : Nat} (v : Word) (low : quantityOf lo = some lo) :
    exec (.loWriteHold (.bar g) lo v) s = .next (settle (writeBar s g lo v)) := by
  show Host.Outcome.next (settle (if namesLo s (.bar g) lo then writeVia s (.bar g) lo v else s)) = _
  rw [if_pos (namesLo_bar s g low)]
  rfl

theorem hiWriteApply_bar (s : State) (g : Agent) {lo : Nat} (v : Word) (high : quantityOf (lo + 4) = some lo) :
    exec (.hiWriteApply (.bar g) (lo + 4) v) s = .next (settle (writeBar s g (lo + 4) v)) := by
  show Host.Outcome.next (settle (if namesHi s (.bar g) (lo + 4) then writeVia s (.bar g) (lo + 4) v else s)) = _
  rw [if_pos (namesHi_bar s g high)]
  rfl

/-- A command that is a write ends as the write leaves the state, when no effect is raised. -/
theorem exec_of_write {s t : State} {c : Instr} {g : Agent} {a : Nat} {v : Word}
    (means : exec c s = .next (settle (writeBar s g a v))) (write : writeBar s g a v = t) (quiet : Quiet t) :
    exec c s = .next t := by
  rw [means, write, settle_quiet t quiet]

/-- Settles O12: the owner's low half is held, and its high half is a register write, after one of the held half if there is one. -/
theorem sixtyFourBitWritesAreHeld : Obligations.SixtyFourBitWritesAreHeld := by
  intro s g lo v r r' quiet accLo accHi aligned block region timeoutLo timeoutHi low high rowLo rowHi rwLo rwHi
  have plainLo : PlainQuantity lo := ⟨by omega, region, timeoutLo⟩
  have notRegionBase : lo + 4 ≠ 0x400100 := fun h => by
    have start : quantityOf 0x400100 = some 0x400100 := by decide
    rw [h, start, Option.some.injEq] at high
    omega
  have plainHi : PlainQuantity (lo + 4) := ⟨by omega, by omega, timeoutHi⟩
  have writable := writable_of_row rowLo rwLo
  refine ⟨?lo, ?hi⟩
  case lo =>
    have write : writeBar s g lo v =
        onCtl (fun c => { c with held := SMap.put {} c.held lo { owner := agentId g, value := some (v.setWidth 64) } }) s := by
      rw [writeBar_half s g v accLo aligned (by omega) low, writeOwned_lo s _ v low writable, holdLo, if_pos (plainLo.isOpen _)]
    refine ⟨_, exec_of_write (loWriteHold_bar s g v low) write quiet, rfl, ?_, fun q other => ?_, rfl, rfl⟩
    · exact (SMap.find_put _ _ _ _ _).trans (if_pos rfl)
    · exact (SMap.find_put _ _ _ _ _).trans (if_neg other)
  case hi =>
    have write : writeBar s g (lo + 4) v = applyHi s (agentId g) lo v := by
      rw [writeBar_half s g v accHi (by omega) (by omega) high, writeOwned_hi s _ v high writable]
    have regs (d : Plane) := writeReg_reg_rw d v rowHi rwHi
    cases half : heldFor s (agentId g) lo with
    | some x =>
      have lows := writeReg_reg_rw s.pl (x.setWidth 32) rowLo rwLo
      obtain ⟨m, frame⟩ := writeReg_frame s.pl lo (x.setWidth 32)
      obtain ⟨m', frame'⟩ := writeReg_frame (s.pl.writeReg lo (x.setWidth 32)) (lo + 4) v
      rw [applyHi_held v half, plainLo.writeStored low, plainHi.writeStored high] at write
      unfold heldFor at half
      refine ⟨_, exec_of_write (hiWriteApply_bar s g v high) write (by rw [frame', frame]; exact quiet), ?_, ?_, ?_, ?_, ?_⟩
      · exact (regs _ _).trans (if_pos rfl)
      · rw [half]
        exact (regs _ lo).trans ((if_neg (by omega)).trans ((lows lo).trans (if_pos rfl)))
      · exact fun a otherLo otherHi => (regs _ a).trans ((if_neg otherHi).trans ((lows a).trans (if_neg otherLo)))
      · exact fun _ => .inl ((SMap.find_put _ _ _ _ _).trans (if_pos rfl))
      · rw [frame', frame]
    | none =>
      obtain ⟨m, frame⟩ := writeReg_frame s.pl (lo + 4) v
      rw [applyHi_alone v half, plainHi.writeStored high] at write
      unfold heldFor at half
      refine ⟨_, exec_of_write (hiWriteApply_bar s g v high) write (by rw [frame]; exact quiet), ?_, ?_, ?_, ?_, ?_⟩
      · exact (regs _ _).trans (if_pos rfl)
      · rw [half]
        exact (regs _ lo).trans (if_neg (by omega))
      · exact fun a _ otherHi => (regs _ a).trans (if_neg otherHi)
      · exact fun own => .inr (by rwa [if_pos own] at half)
      · rw [frame]

end Sys2Proof.Machine
end

section
/-! PROOFS. The PCIe link and function resets (R42, R87, R89, R90, R108): what a lost link makes of the entries outstanding, what
an abandoned ring leaves, what a drained queue pair leaves, and the statement (O10). -/
namespace Sys2Proof.Machine

/-! ### Tables -/

/-- A key that a table does not list holds the default. -/
theorem SMap.find_unlisted {α : Type} (d : α) (m : SMap α) (k : Nat) (h : k ∉ m.map (·.1)) : SMap.find d m k = d := by
  induction m with
  | nil => rfl
  | cons x m ih =>
    simp only [List.map_cons, List.mem_cons, not_or] at h
    obtain ⟨ne, rest⟩ := h
    rw [SMap.find_cons, if_neg ne, ih rest]

/-- A key that does not hold the default is listed with what it holds. -/
theorem SMap.mem_of_find {α : Type} (d : α) (m : SMap α) (k : Nat) (h : SMap.find d m k ≠ d) : (k, SMap.find d m k) ∈ m := by
  induction m with
  | nil => exact absurd rfl h
  | cons x m ih =>
    rw [SMap.find_cons] at h ⊢
    split at h
    next same => simp [same]
    next other => simp [other, ih h]

/-- A table without the keys of a set holds the default there and what it held elsewhere. -/
theorem SMap.find_filter {α : Type} (d : α) (m : SMap α) (p : Nat → Bool) (k : Nat) :
    SMap.find d (m.filter fun x => !p x.1) k = if p k = true then d else SMap.find d m k := by
  induction m with
  | nil => simp
  | cons x m ih =>
    obtain ⟨a, v⟩ := x
    by_cases drop : p a = true <;> by_cases same : k = a <;> simp_all [SMap.find_cons]

/-! ### The link goes down (R108) -/

/-- A ring whose outstanding entries are lost and whose unused descriptors are given up. -/
def Ring.lost (r : Ring) : Ring := { r with fetched := r.fetched.map fun e => { e with lost := true }, descs := [] }

/-- What is lost stays lost. -/
theorem Ring.lost_lost (r : Ring) : r.lost.lost = r.lost := by
  simp [Ring.lost]

/-- One ring of `loseEntries`: the slots of its descriptors are released, and its entries are lost. -/
def loseRing (d : Plane) (r : Nat × Ring) : Plane :=
  (r.2.descs.foldl (fun d _ => d.releaseSlot (d.wrgCq r.1)) d).onRing r.1 Ring.lost

/-- One queue pair of `loseEntries`: the descriptors in use are lost. -/
def loseRx (d : Plane) (x : Nat × Qp) : Plane :=
  d.onQp x.1 fun q => { q with rxMsgs := q.rxMsgs.map fun m => { m with desc := m.desc.map fun x => { x with lost := true } } }

theorem loseEntries_eq (d : Plane) : loseEntries d = (d.rings.foldl loseRing d).qps.foldl loseRx (d.rings.foldl loseRing d) := rfl

/-- Releasing slots touches the completion rings. -/
theorem releaseSlots_frame {α : Type} (l : List α) (k : Nat) (d : Plane) :
    ∃ q, l.foldl (fun d _ => d.releaseSlot (d.wrgCq k)) d = { d with cqs := q } :=
  List.foldlRecOn (motive := fun t => ∃ q, t = { d with cqs := q }) l _ ⟨_, rfl⟩
    fun _ ⟨_, h⟩ _ _ => ⟨_, by rw [h]; rfl⟩

theorem loseRing_frame (d : Plane) (r : Nat × Ring) : ∃ q, loseRing d r = { d.setRing r.1 (d.ring r.1).lost with cqs := q } := by
  obtain ⟨q, h⟩ := releaseSlots_frame r.2.descs r.1 d
  unfold loseRing
  rw [h]
  exact ⟨q, rfl⟩

/-- Losing the entries of rings touches the rings and the completion rings. -/
theorem loseRings_frame (l : List (Nat × Ring)) (d : Plane) : ∃ r q, l.foldl loseRing d = { d with rings := r, cqs := q } := by
  refine List.foldlRecOn (motive := fun t => ∃ r q, t = { d with rings := r, cqs := q }) l loseRing ⟨d.rings, d.cqs, rfl⟩ ?_
  rintro _ ⟨r, q, rfl⟩ x _
  obtain ⟨q', h⟩ := loseRing_frame { d with rings := r, cqs := q } x
  exact ⟨_, _, h⟩

theorem loseRings_ring (l : List (Nat × Ring)) (k : Nat) : ∀ d : Plane,
    (l.foldl loseRing d).ring k = if k ∈ l.map (·.1) then (d.ring k).lost else d.ring k := by
  induction l with
  | nil => exact fun d => rfl
  | cons x l ih =>
    intro d
    obtain ⟨q, h⟩ := loseRing_frame d x
    have first : (loseRing d x).ring k = if k = x.1 then (d.ring k).lost else d.ring k := by
      rw [h]
      refine (Plane.setRing_ring d x.1 _ k).trans ?_
      split
      next same => rw [same]
      next => rfl
    rw [List.foldl_cons, ih, first]
    by_cases later : k ∈ l.map (·.1)
    · have listed : k ∈ (x :: l).map (·.1) := List.mem_cons_of_mem _ later
      rw [if_pos later, if_pos listed]
      split
      · exact Ring.lost_lost _
      · rfl
    · simp [later]

/-- Losing the descriptors of messages touches the queue pairs, and of each only its messages being received. -/
theorem loseRxs_frame (l : List (Nat × Qp)) (d : Plane) : ∃ p, l.foldl loseRx d = { d with qps := p }
    ∧ ∀ n, (l.foldl loseRx d).qp n = { d.qp n with rxMsgs := ((l.foldl loseRx d).qp n).rxMsgs } := by
  refine List.foldlRecOn (motive := fun t => ∃ p, t = { d with qps := p }
      ∧ ∀ n, t.qp n = { d.qp n with rxMsgs := (t.qp n).rxMsgs }) l loseRx ⟨d.qps, rfl, fun _ => rfl⟩ ?_
  rintro t ⟨p, frame, qp⟩ x _
  refine ⟨_, by rw [frame]; rfl, fun n => ?_⟩
  have here : (loseRx t x).qp n = if n = x.1 then { t.qp x.1 with rxMsgs := ((loseRx t x).qp x.1).rxMsgs } else t.qp n := by
    simp only [loseRx, Plane.onQp_eq, Plane.setQp_qp, if_true]
  by_cases same : n = x.1
  · subst same
    rw [here, if_pos rfl, qp]
  · rw [here, if_neg same]
    exact qp n

/-- The link's loss touches the rings, the completion rings and the queue pairs. -/
theorem loseEntries_frame (d : Plane) : ∃ r q p, loseEntries d = { d with rings := r, cqs := q, qps := p } := by
  obtain ⟨r, q, rings⟩ := loseRings_frame d.rings d
  obtain ⟨p, qps, -⟩ := loseRxs_frame (d.rings.foldl loseRing d).qps (d.rings.foldl loseRing d)
  exact ⟨r, q, p, by rw [loseEntries_eq, qps, rings]⟩

/-- Every ring's entries are lost when the link goes down. -/
theorem loseEntries_ring (d : Plane) (k : Nat) : (loseEntries d).ring k = (d.ring k).lost := by
  obtain ⟨p, qps, -⟩ := loseRxs_frame (d.rings.foldl loseRing d).qps (d.rings.foldl loseRing d)
  rw [loseEntries_eq, qps]
  refine (loseRings_ring d.rings k d).trans ?_
  split
  · rfl
  next unlisted =>
    have default : d.ring k = {} := SMap.find_unlisted _ _ _ unlisted
    rw [default]
    rfl

/-- Of a queue pair only the descriptors of its messages being received are lost. -/
theorem loseEntries_qp (d : Plane) (n : Nat) :
    (loseEntries d).qp n = { d.qp n with rxMsgs := ((loseEntries d).qp n).rxMsgs } := by
  obtain ⟨r, q, rings⟩ := loseRings_frame d.rings d
  obtain ⟨p, -, qp⟩ := loseRxs_frame (d.rings.foldl loseRing d).qps (d.rings.foldl loseRing d)
  have same : (d.rings.foldl loseRing d).qp n = d.qp n := by rw [rings]; rfl
  rw [loseEntries_eq]
  exact (qp n).trans (by rw [same])

/-- The link's loss raises no fault of its own. -/
theorem linkDown_quiet {s : State} (quiet : Quiet s) : Quiet (linkDown s) := by
  obtain ⟨r, q, p, frame⟩ := loseEntries_frame s.pl
  show (loseEntries s.pl).effects = []
  rw [frame]
  exact quiet

/-! ### Abandoned rings (R89, R237) -/

/-- What dropping collectives and runs may touch: the collectives, the staging queues and the veins. -/
def WorkOnly (d t : Plane) : Prop := ∃ c q v, t = { d with col := c, stg := q, veins := v }

theorem WorkOnly.refl (d : Plane) : WorkOnly d d := ⟨_, _, _, rfl⟩

theorem WorkOnly.trans {d t u : Plane} (h : WorkOnly d t) (k : WorkOnly t u) : WorkOnly d u := by
  obtain ⟨_, _, _, rfl⟩ := h
  obtain ⟨_, _, _, rfl⟩ := k
  exact ⟨_, _, _, rfl⟩

theorem dropColls_workOnly (d : Plane) (f : Nat → Bool) : WorkOnly d (dropColls d f) := by
  refine List.foldlRecOn (motive := WorkOnly d) _ _ (WorkOnly.refl d) fun t h x _ => h.trans ?_
  split <;> exact ⟨_, _, _, rfl⟩

theorem emptyVein_workOnly (d : Plane) (v stages : Nat) : WorkOnly d (emptyVein d v stages) := by
  have dropped : WorkOnly d ((List.range stages).foldl (fun d i => dropStage d v i) d) :=
    List.foldlRecOn (motive := WorkOnly d) _ _ (WorkOnly.refl d) fun t h i _ => h.trans ⟨_, _, _, rfl⟩
  exact dropped.trans ⟨_, _, _, rfl⟩

/-- A vein without runs is fed nothing. -/
theorem feedRun_empty (c : Ctl) (v : VeinRec) (n : Nat) (d : Plane) (h : (d.vein v.vein).runs = []) : feedRun c v n d = d := by
  cases n with
  | zero => rfl
  | succ n =>
    unfold feedRun
    rw [h]

/-- Dropping the runs of every ring feeds no vein again. -/
theorem dropRuns_all_workOnly (c : Ctl) (d : Plane) : WorkOnly d (dropRuns c d fun _ => true) := by
  refine List.foldlRecOn (motive := WorkOnly d) _ _ (WorkOnly.refl d) fun t h v _ => h.trans ?_
  dsimp only
  split
  · exact WorkOnly.refl t
  · rw [if_pos rfl, if_pos rfl, feedRun_empty]
    · exact (emptyVein_workOnly t v.vein v.stages.length).trans ⟨_, _, _, rfl⟩
    · simp

/-- With every ring abandoned no ring is left, and nothing beside the rings and the work that veins and engines hold for them
is touched. -/
theorem abandonRings_all (c : Ctl) (d : Plane) :
    WorkOnly { d with rings := [], cqs := [] } (abandonRings c d fun _ => true) := by
  have none : { d with rings := d.rings.filter fun _ => !true, cqs := d.cqs.filter fun _ => !true } =
      { d with rings := [], cqs := [] } := by simp
  unfold abandonRings
  dsimp only
  rw [none]
  exact (dropColls_workOnly _ _).trans (dropRuns_all_workOnly c _)

/-- With no vein and no collective, abandoning rings touches the rings only. -/
theorem abandonRings_idle (c : Ctl) (d : Plane) (f : Nat → Bool) (veins : c.job.veins = []) (colls : d.col.colls = []) :
    abandonRings c d f = { d with rings := d.rings.filter fun x => !f x.1, cqs := d.cqs.filter fun x => !f x.1 } := by
  simp [abandonRings, dropRuns, dropColls, veins, colls]

/-- The reset of the physical function leaves no ring. -/
theorem resetPf_frame (c : Ctl) (d : Plane) : ∃ r k q v, resetPf c d =
    { d with rings := [], cqs := [], regs := r, col := k, stg := q, veins := v } := by
  obtain ⟨k, q, v, h⟩ := abandonRings_all c d
  unfold resetPf
  rw [h]
  exact ⟨_, _, _, _, rfl⟩

/-- The context registers of a ring are registers. -/
theorem clearRingRegs_frame (d : Plane) (k : Nat) : ∃ r, clearRingRegs d k = { d with regs := r } := by
  refine List.foldlRecOn (motive := fun t : Plane => ∃ r, t = { d with regs := r }) _ _ ⟨d.regs, rfl⟩ ?_
  rintro _ ⟨r, rfl⟩ o _
  exact ⟨_, rfl⟩

theorem clearRings_frame (l : List Nat) (first : Nat) (d : Plane) :
    ∃ r, l.foldl (fun d j => clearRingRegs d (first + j)) d = { d with regs := r } := by
  refine List.foldlRecOn (motive := fun t : Plane => ∃ r, t = { d with regs := r }) l (fun d j => clearRingRegs d (first + j))
    ⟨d.regs, rfl⟩ ?_
  rintro _ ⟨r, rfl⟩ j _
  exact clearRingRegs_frame { d with regs := r } (first + j)

/-- The rings that a virtual function holds. -/
def Vf.holds (x : Vf) (k : Nat) : Bool := x.bound && decide (x.first ≤ k) && decide (k < x.first + x.count)

theorem Vf.holds_iff (x : Vf) (k : Nat) : x.holds k = true ↔ x.bound = true ∧ x.first ≤ k ∧ k < x.first + x.count := by
  simp [Vf.holds, and_assoc]

/-- The reset of a virtual function, with no vein and no collective, leaves none of the rings it holds and every other one. -/
theorem resetVf_frame (c : Ctl) (d : Plane) (v : Nat) (veins : c.job.veins = []) (colls : d.col.colls = []) :
    ∃ q r x p, resetVf c d v =
      { d with rings := d.rings.filter fun x => !(d.vf v).holds x.1, cqs := q, regs := r, xpt := x, cip := p } := by
  have rings := abandonRings_idle c d (d.vf v).holds veins colls
  have held : (fun k => (d.vf v).bound && decide ((d.vf v).first ≤ k) && decide (k < (d.vf v).first + (d.vf v).count)) =
      (d.vf v).holds := rfl
  unfold resetVf
  dsimp only
  rw [held, rings]
  split
  · obtain ⟨r, regs⟩ := clearRings_frame (List.range (d.vf v).count) (d.vf v).first
      { d with rings := d.rings.filter fun x => !(d.vf v).holds x.1, cqs := d.cqs.filter fun x => !(d.vf v).holds x.1 }
    rw [regs]
    exact ⟨_, _, _, _, rfl⟩
  · exact ⟨_, _, _, _, rfl⟩

/-! ### Drained queue pairs (R90) -/

/-- Nothing of a function is outstanding: no queue pair has a message, a placement or a response under way, no ring a fetched
entry, and no context waits to be freed. -/
structure Drained (d : Plane) : Prop where
  qps : ∀ n, (d.qp n).msgs = [] ∧ (d.qp n).places = [] ∧ (d.qp n).resps = [] ∧ (d.qp n).rxMsgs = []
  rings : ∀ r ∈ d.rings, r.2.fetched = []
  destroying : d.xpt.destroying = []

/-- What a drained queue pair that fails leaves of its context. -/
def Qp.failed (q : Qp) (status : Nat) : Qp :=
  { q with
    got := [], rxMsgs := [], places := [], resps := [], stalled := false, gapOn := false, ackCount := 0, hostAtomics := []
    msgs := [], psns := [], timerOn := false, timerLeft := none, state := .error, lastStatus := status }

/-- Stopping a flow touches flows, wheels, the cipher scheduler and the ports. -/
theorem stopFlow_frame (d : Plane) (n : Nat) : ∃ f w c p,
    stopFlow d n = { d with flows := f, wheels := w, cip := c, ports := p } := by
  unfold stopFlow unplaceFlow Plane.eachPort
  dsimp only
  refine List.foldlRecOn (motive := fun t => ∃ f w c p, t = { d with flows := f, wheels := w, cip := c, ports := p }) _ _ ?_ ?_
  · exact ⟨_, _, _, _, rfl⟩
  · rintro _ ⟨f, w, c, p, rfl⟩ k _
    exact ⟨_, _, _, _, rfl⟩

/-- With nothing fetched no entry names a queue pair. -/
theorem entriesOf_nil {d : Plane} (h : ∀ r ∈ d.rings, r.2.fetched = []) (n : Nat) : entriesOf d n = [] := by
  unfold entriesOf
  simp only [List.flatten_eq_nil_iff, List.mem_map]
  rintro _ ⟨r, mem, rfl⟩
  split
  · rfl
  · simp [h r mem]

/-- A drained queue pair that leaves READY has nothing to place or to return. -/
theorem Drained.quietQp {d : Plane} (h : Drained d) (c : Ctl) (n : Nat) : quietQp c d n =
    ((stopFlow d n).onQp n fun q => { q with
      got := [], rxMsgs := [], places := [], resps := [], stalled := false, gapOn := false, ackCount := 0, hostAtomics := [] }).onQp n
      fun q => { q with msgs := [], psns := [], timerOn := false, timerLeft := none } := by
  obtain ⟨-, places, resps, rx⟩ := h.qps n
  simp [Machine.quietQp, releaseRx, places, resps, rx]

/-- A drained queue pair that fails completes nothing: it passes to ERROR with its flow stopped. -/
theorem Drained.failQp {d : Plane} (h : Drained d) (c : Ctl) (n status others : Nat) (detail : Word) :
    failQp c d n status none others detail false =
      (Machine.quietQp c d n).onQp n fun q => { q with state := .error, lastStatus := status } := by
  obtain ⟨msgs, -⟩ := h.qps n
  obtain ⟨f, w, p, k, stopped⟩ := stopFlow_frame d n
  have kept : ((Machine.quietQp c d n).onQp n fun q => { q with state := .error, lastStatus := status }).rings = d.rings
      ∧ ((Machine.quietQp c d n).onQp n fun q => { q with state := .error, lastStatus := status }).xpt = d.xpt := by
    rw [h.quietQp, stopped]
    exact ⟨rfl, rfl⟩
  unfold Machine.failQp
  simp only [Bool.false_and, Bool.false_eq_true, if_false, msgs, List.foldl_nil]
  generalize (Machine.quietQp c d n).onQp n (fun q => { q with state := .error, lastStatus := status }) = t at kept ⊢
  obtain ⟨rings, xpt⟩ := kept
  rw [entriesOf_nil (by rw [rings]; exact h.rings)]
  simp [completeAll, drained, xpt, h.destroying]

/-- A drained queue pair that fails touches the queue pairs, flows, wheels, the cipher scheduler and the ports. -/
theorem Drained.failQp_frame {d : Plane} (h : Drained d) (c : Ctl) (n status others : Nat) (detail : Word) :
    ∃ q f w p k, Machine.failQp c d n status none others detail false =
      { d with qps := q, flows := f, wheels := w, cip := p, ports := k } := by
  obtain ⟨f, w, p, k, stopped⟩ := stopFlow_frame d n
  rw [h.failQp, h.quietQp, stopped]
  exact ⟨_, _, _, _, _, rfl⟩

theorem Drained.failQp_qp {d : Plane} (h : Drained d) (c : Ctl) (n status others : Nat) (detail : Word) (m : Nat) :
    (Machine.failQp c d n status none others detail false).qp m = if m = n then (d.qp n).failed status else d.qp m := by
  obtain ⟨f, w, p, k, stopped⟩ := stopFlow_frame d n
  have same (m : Nat) : (stopFlow d n).qp m = d.qp m := by rw [stopped]; rfl
  rw [h.failQp, h.quietQp]
  by_cases here : m = n
  · subst here
    simp [same, Qp.failed]
  · simp [same, here]

theorem Drained.after_failQp {d : Plane} (h : Drained d) (c : Ctl) (n status others : Nat) (detail : Word) :
    Drained (Machine.failQp c d n status none others detail false) := by
  obtain ⟨q, f, w, p, k, frame⟩ := h.failQp_frame c n status others detail
  refine ⟨fun m => ?_, by rw [frame]; exact h.rings, by rw [frame]; exact h.destroying⟩
  rw [h.failQp_qp]
  split
  · exact ⟨rfl, rfl, rfl, rfl⟩
  · exact h.qps m

/-- Drained queue pairs that fail one after the other pass to ERROR, and no other changes its state. -/
theorem Drained.failQps (c : Ctl) (l : List Nat) : ∀ {d : Plane}, Drained d →
    (∃ q f w p k, l.foldl (fun d n => Machine.failQp c d n stAborted none stAborted 0 false) d =
      { d with qps := q, flows := f, wheels := w, cip := p, ports := k })
    ∧ ∀ m, ((l.foldl (fun d n => Machine.failQp c d n stAborted none stAborted 0 false) d).qp m).state =
        if m ∈ l then .error else (d.qp m).state := by
  induction l with
  | nil => exact fun _ => ⟨⟨_, _, _, _, _, rfl⟩, fun _ => rfl⟩
  | cons n l ih =>
    intro d h
    obtain ⟨q, f, w, p, k, frame⟩ := h.failQp_frame c n stAborted stAborted 0
    obtain ⟨⟨q', f', w', p', k', rest⟩, states⟩ := ih (h.after_failQp c n stAborted stAborted 0)
    refine ⟨⟨q', f', w', p', k', ?_⟩, fun m => ?_⟩
    · rw [List.foldl_cons, rest, frame]
    · rw [List.foldl_cons, states, h.failQp_qp]
      by_cases here : m = n <;> simp [here, Qp.failed]

/-- The reset of the physical function takes every live queue pair to ERROR. -/
theorem mem_funcQps_pf {d : Plane} {n : Nat}
    (live : (d.qp n).state = .init ∨ (d.qp n).state = .connecting ∨ (d.qp n).state = .ready) :
    n ∈ funcQps d .pf := by
  have listed : (n, d.qp n) ∈ d.qps := by
    refine SMap.mem_of_find _ _ _ fun free => ?_
    have : d.qp n = {} := free
    simp [this] at live
  unfold funcQps
  simp only [List.mem_map, List.mem_filter]
  exact ⟨_, ⟨listed, by simpa [or_assoc] using live⟩, rfl⟩

/-! ### The statement -/

/-- A link that may come up gives BAR4 its size, a free one. -/
theorem linkUp_ready (s : State) (running : Running s) (rails : s.ctl.dev.rails = true)
    (clock : s.ctl.dev.pins.pcieRefclk = true) (locked : s.ctl.dev.locks.hif = true) (calm : NoRecovery s) :
    linkUp s = onDev (fun x => { x with pcieUp := true, bar4 := 2 ^ (30 + (Config.freeValue s.pl.seq).toNat % 11) })
      { s with pl := { s.pl with seq := s.pl.seq + 1 } } := by
  obtain ⟨booted, inReset⟩ := running
  obtain ⟨slots, -⟩ := calm
  have domains : s.ctl.domains = [] := by simp [Ctl.domains, slots]
  unfold linkUp
  simp [booted, inReset, rails, clock, locked, domains]

/-- The control side with the reset of a function noted. -/
def Ctl.resetting (c : Ctl) (f : Func) : Ctl :=
  { c with dev := { c.dev with funcReset := if c.dev.funcReset.contains f then c.dev.funcReset else c.dev.funcReset ++ [f] } }

theorem Ctl.mem_resetting (c : Ctl) (f : Func) : f ∈ (c.resetting f).dev.funcReset := by
  unfold Ctl.resetting
  dsimp only
  split
  next already => exact List.contains_iff_mem.1 already
  next => simp

theorem funcResetBegins_pf (s : State) (booted : s.ctl.dev.state.booted = true) :
    funcResetBegins s .pf = { s with ctl := s.ctl.resetting .pf, pl := resetPf (s.ctl.resetting .pf) s.pl } := by
  unfold funcResetBegins
  rw [booted]
  rfl

theorem funcResetBegins_vf (s : State) (v : VfId) (booted : s.ctl.dev.state.booted = true) :
    funcResetBegins s (.vf v) = { s with ctl := s.ctl.resetting (.vf v), pl := resetVf (s.ctl.resetting (.vf v)) s.pl v.val } := by
  unfold funcResetBegins
  rw [booted]
  rfl

/-- A function reset whose transfers have drained completes. -/
theorem funcResetDone_drained (s : State) {f : Func} (runs : f ∈ s.ctl.dev.funcReset) (free : funcBlocked s.pl f = false) :
    funcResetDone s f = { s with
      ctl := { s.ctl with dev := { s.ctl.dev with funcReset := s.ctl.dev.funcReset.filter (· != f) } }
      pl := funcDrained s.ctl s.pl f } := by
  unfold funcResetDone
  rw [List.contains_iff_mem.2 runs, free]
  rfl

/-- A command of the control side ends as its meaning leaves the state, when no effect is raised. -/
theorem exec_of_ctl {s t : State} {c : Instr} {f : State → State} (means : exec c s = .next (ctlStep f s)) (step : f s = t)
    (quiet : Quiet t) : exec c s = .next t := by
  rw [means, ctlStep, step, settle_quiet t quiet]

/-- Settles O10: a lost link touches rings, completion rings and queue pairs; a function reset abandons the rings it holds; and
drained queue pairs complete nothing when they fail. -/
theorem linkAndFunctionResets : Obligations.LinkAndFunctionResets := by
  refine ⟨?up, ?down, ?pf, ?vf, ?drained⟩
  case up =>
    intro s quiet running rails clock locked calm
    exact exec_of_ctl rfl (linkUp_ready s running rails clock locked calm) quiet
  case down =>
    intro s quiet
    obtain ⟨r, q, p, frame⟩ := loseEntries_frame s.pl
    refine ⟨linkDown s, exec_of_ctl rfl rfl (linkDown_quiet quiet), rfl, fun k => loseEntries_ring s.pl k,
      fun n => loseEntries_qp s.pl n, ?_⟩
    unfold linkDown
    dsimp only [onDev_pl]
    rw [frame]
    rfl
  case pf =>
    intro s quiet booted
    obtain ⟨r, k, q, v, frame⟩ := resetPf_frame (s.ctl.resetting .pf) s.pl
    have step := funcResetBegins_pf s booted
    rw [frame] at step
    exact ⟨_, exec_of_ctl rfl step quiet, rfl, rfl, s.ctl.mem_resetting .pf, rfl, rfl, rfl, rfl, rfl, rfl⟩
  case vf =>
    intro s v quiet booted veins colls
    obtain ⟨q, r, x, p, frame⟩ := resetVf_frame (s.ctl.resetting (.vf v)) s.pl v.val veins colls
    have step := funcResetBegins_vf s v booted
    rw [frame] at step
    refine ⟨_, exec_of_ctl rfl step quiet, fun k => ?_, s.ctl.mem_resetting (.vf v), rfl, rfl, rfl, rfl, rfl, rfl, rfl⟩
    refine (SMap.find_filter _ s.pl.rings (s.pl.vf v.val).holds k).trans ?_
    simp only [Vf.holds_iff]
    rfl
  case drained =>
    intro s f quiet runs free qps rings destroying
    have drained : Drained s.pl := ⟨qps, rings, destroying⟩
    obtain ⟨⟨q, fl, w, p, k, frame⟩, states⟩ := drained.failQps s.ctl (funcQps s.pl f)
    have step := funcResetDone_drained s runs free
    have frame : funcDrained s.ctl s.pl f = { s.pl with qps := q, flows := fl, wheels := w, cip := p, ports := k } := frame
    refine ⟨_, exec_of_ctl rfl step ?_, rfl, ?_, ?_, ?_, ?_⟩
    · show (funcDrained s.ctl s.pl f).effects = []
      rw [frame]
      exact quiet
    · exact (congrArg Plane.mem frame :)
    · exact (congrArg Plane.host frame :)
    · exact (congrArg Plane.rings frame :)
    · rintro rfl n live
      exact (states n).trans (if_pos (mem_funcQps_pf live))

end Sys2Proof.Machine
end

section
/-! PROOFS. PLLs and clocks (R38 to R41, R130, R562): which locks a loss takes, how the collector contains the fault of a clock at
device level, at engine level or only notes it, and the statement (O7). -/
namespace Sys2Proof.Machine

/-! ### Locks -/

/-- What every lock is after one was set. -/
theorem getLock_setLock (l : Locks) (p q : Pll) (v : Bool) : getLock (setLock l p v) q = if q = p then v else getLock l q := by
  cases p with
  | stack k =>
    cases q with
    | stack j =>
      have bit : (BitVec.ofNat 20 (2 ^ k.val)).getLsbD j.val = decide (j = k) := by
        have all : ∀ k j : Fin 20, (BitVec.ofNat 20 (2 ^ k.val)).getLsbD j.val = decide (j = k) := by decide
        exact all k j
      have below : j.val < 20 := j.isLt
      unfold setLock getLock
      dsimp only
      generalize BitVec.ofNat 20 (2 ^ k.val) = x at bit ⊢
      cases v with
      | true =>
        rw [if_pos rfl, BitVec.getLsbD_or, bit]
        by_cases same : j = k <;> simp [same]
      | false =>
        rw [if_neg Bool.false_ne_true, BitVec.getLsbD_and, BitVec.getLsbD_not, bit]
        by_cases same : j = k <;> simp [same, below]
    | _ => simp [setLock, getLock]
  | _ => cases q <;> simp [setLock, getLock]

/-- Locks that read alike are equal. -/
theorem Locks.ext_getLock {a b : Locks} (h : ∀ p, getLock a p = getLock b p) : a = b := by
  obtain ⟨core, xpt, hif, lod, obs, bits⟩ := a
  obtain ⟨core', xpt', hif', lod', obs', bits'⟩ := b
  have same : bits = bits' := BitVec.eq_of_getLsbD_eq fun i hi => h (.stack ⟨i, hi⟩)
  have c := h .core
  have x := h .xpt
  have f := h .hif
  have l := h .lod
  have o := h .obs
  simp_all [getLock]

/-- A PLL whose supply is there locks, and shows that its reference is. -/
theorem pllLocks_ready (s : State) (p : Pll) (rails : s.ctl.dev.rails = true)
    (session : p = .obs → s.ctl.own.session.isOpen = true) :
    pllLocks s p = onDev (fun x => { x with
      locks := setLock x.locks p true
      pins := if p = .hif then { x.pins with pcieRefclk := true } else { x.pins with refclk := true } }) s := by
  unfold pllLocks
  by_cases obs : p = .obs
  · subst obs
    simp [rails, session]
  · simp [rails, obs]

theorem loseLock_unlocked {s : State} {p : Pll} (h : getLock s.ctl.dev.locks p = false) : loseLock s p = s := by
  unfold loseLock
  rw [h]
  rfl

/-- A PLL that was locked drops its lock, sets its UNLOCK bit and reports the fault. -/
theorem loseLock_locked {s : State} {p : Pll} (h : getLock s.ctl.dev.locks p = true) : loseLock s p = { s with
    ctl := { s.ctl with dev := { s.ctl.dev with locks := setLock s.ctl.dev.locks p false } }
    pl := (s.pl.stick (unlockBit p).1 (bitIf true (unlockBit p).2)).raise (pllSource p) 0x05 } := by
  unfold loseLock
  rw [h]
  rfl

/-! ### Losing the lock of several PLLs -/

/-- A fault of a clock: loss of lock or of a reference, of an assigned source without a partition. -/
abbrev ClockCause (cause : Nat) : Prop := cause = 0x05 ∨ cause = 0x0F

def ClockEffect (e : Effect) : Prop :=
  ∃ source cause, e = .fault source cause none ∧ ClockCause cause ∧ (sourceOf source).isSome = true

theorem pllSource_assigned (p : Pll) : (sourceOf (pllSource p)).isSome = true := by
  have each : ∀ k : Fin 20, (sourceOf (pllSource (.stack k))).isSome = true := by decide
  cases p with
  | stack k => exact each k
  | _ => decide

/-- What a sticky register reads as once bits are set in another or in itself. -/
theorem flag_stick (d : Plane) (a b : Nat) (w : Word) (i : Nat) :
    flag ((d.stick a w).reg b) i = (flag (d.reg b) i || decide (b = a) && flag w i) := by
  by_cases same : b = a <;> simp [flag, same]

theorem flag_unlockBit (p : Pll) : flag (bitIf true (unlockBit p).2) (unlockBit p).2 = true := by
  have each : ∀ k : Fin 20, flag (bitIf true (unlockBit (.stack k)).2) (unlockBit (.stack k)).2 = true := by decide
  cases p with
  | stack k => exact each k
  | _ => decide

/-- From `s` to `t` the PLLs of a list have lost their locks: those that had one set their UNLOCK bits, and each reports its fault
once. -/
structure LosesLocks (l : List Pll) (s t : State) : Prop where
  frame : t = { s with
    ctl := { s.ctl with dev := { s.ctl.dev with locks := t.ctl.dev.locks } }
    pl := { s.pl with regs := t.pl.regs, effects := t.pl.effects } }
  locks : ∀ q, getLock t.ctl.dev.locks q = (getLock s.ctl.dev.locks q && decide (q ∉ l))
  sticky : ∀ a i, flag (s.pl.reg a) i = true → flag (t.pl.reg a) i = true
  unlock : ∀ q ∈ l, getLock s.ctl.dev.locks q = true → flag (t.pl.reg (unlockBit q).1) (unlockBit q).2 = true
  effects : ∃ es, t.pl.effects = s.pl.effects ++ es ∧ es.length ≤ l.length ∧ ∀ e ∈ es, ClockEffect e

theorem LosesLocks.nil (s : State) : LosesLocks [] s s where
  frame := rfl
  locks q := by simp
  sticky _ _ h := h
  unlock := by simp
  effects := ⟨[], by simp⟩

theorem LosesLocks.cons {l : List Pll} {p : Pll} {s t u : State} (h : LosesLocks [p] s t) (k : LosesLocks l t u) :
    LosesLocks (p :: l) s u where
  frame := by
    rw [k.frame, h.frame]
  locks q := by
    rw [k.locks, h.locks]
    by_cases same : q = p <;> simp [same]
  sticky a i old := k.sticky a i (h.sticky a i old)
  unlock q mem old := by
    by_cases same : q = p
    · exact k.sticky _ _ (h.unlock q (by simp [same]) old)
    · refine k.unlock q (by simpa [same] using mem) ?_
      rw [h.locks, old]
      simp [same]
  effects := by
    obtain ⟨es, raised, len, clock⟩ := h.effects
    obtain ⟨es', raised', len', clock'⟩ := k.effects
    refine ⟨es ++ es', by rw [raised', raised, List.append_assoc], ?_, ?_⟩
    · simp only [List.length_append, List.length_cons, List.length_nil] at *
      omega
    · intro e mem
      rcases List.mem_append.1 mem with mem | mem
      · exact clock e mem
      · exact clock' e mem

theorem loseLock_loses (s : State) (p : Pll) : LosesLocks [p] s (loseLock s p) := by
  cases h : getLock s.ctl.dev.locks p with
  | false =>
    rw [loseLock_unlocked h]
    refine ⟨rfl, fun q => ?_, fun _ _ k => k, fun q mem k => ?_, ⟨[], by simp⟩⟩
    · by_cases same : q = p <;> simp [same, h]
    · rw [List.mem_singleton.1 mem, h] at k
      exact absurd k Bool.false_ne_true
  | true =>
    rw [loseLock_locked h]
    refine ⟨rfl, fun q => ?_, fun a i k => ?_, fun q mem _ => ?_, [.fault (pllSource p) 0x05 none], rfl, Nat.le_refl _, ?_⟩
    · show getLock (setLock s.ctl.dev.locks p false) q = _
      rw [getLock_setLock]
      by_cases same : q = p <;> simp [same]
    · exact (flag_stick s.pl _ a _ i).trans (by rw [k, Bool.true_or])
    · rw [List.mem_singleton.1 mem]
      exact (flag_stick s.pl _ _ _ _).trans (by simp [flag_unlockBit p])
    · intro e mem
      exact ⟨_, _, List.mem_singleton.1 mem, .inl rfl, pllSource_assigned p⟩

theorem loseLocks_loses (l : List Pll) : ∀ s, LosesLocks l s (l.foldl loseLock s) := by
  induction l with
  | nil => exact LosesLocks.nil
  | cons p l ih => exact fun s => (loseLock_loses s p).cons (ih _)

/-- REFCLK feeds every PLL but that of HIF. -/
theorem mem_refclkPlls (p : Pll) : p ∈ refclkPlls ↔ p ≠ .hif := by
  have each : ∀ k : Fin 20, Pll.stack k ∈ refclkPlls := by decide
  cases p with
  | stack k => simp [each k]
  | _ => decide

/-- Without REFCLK only the HIF PLL keeps its lock. -/
theorem LosesLocks.refclk {s t : State} (h : LosesLocks refclkPlls s t) :
    t.ctl.dev.locks = { s.ctl.dev.locks with core := false, xpt := false, lod := false, obs := false, stackPlls := 0 } := by
  refine Locks.ext_getLock fun p => ?_
  rw [h.locks]
  cases p <;> simp [mem_refclkPlls, getLock]

/-! ### The collector -/

/-- The reserve seam does not look at the faults of clocks (R530). -/
theorem seam_clock (s : State) (source : Nat) {cause : Nat} (h : ClockCause cause) : seam s source cause = s := by
  rcases h with rfl | rfl <;> cases k : sourceOf source with
  | none => simp [seam, k]
  | some x => cases x <;> simp [seam, k]

theorem classOf_clock {cause : Nat} (h : ClockCause cause) : classOf cause = some classContain := by
  rcases h with rfl | rfl <;> rfl

/-- A clock's fault with an effective level is contained there. -/
theorem collectFault_contains (s : State) {source cause l : Nat} (h : ClockCause cause) (kind : (sourceOf source).isSome = true)
    (level : s.ctl.effLevel source none = some l) : collectFault s source cause none false =
      releasePairs (contain s source cause classContain (s.ctl.domainAt l source none) false) := by
  obtain ⟨x, kind⟩ := Option.isSome_iff_exists.1 kind
  unfold collectFault
  rw [kind, classOf_clock h]
  simp only [ite_self, level, seam_clock _ _ h]
  rw [if_neg (by decide)]

/-- A clock's fault of a source without a level is a report. -/
theorem collectFault_reports (s : State) {source cause : Nat} (h : ClockCause cause) (kind : (sourceOf source).isSome = true)
    (level : s.ctl.effLevel source none = none) : collectFault s source cause none false =
      releasePairs (report s source cause classReport false) := by
  obtain ⟨x, kind⟩ := Option.isSome_iff_exists.1 kind
  unfold collectFault
  rw [kind, classOf_clock h]
  simp only [ite_self, level, seam_clock _ _ h]
  rw [if_neg (by decide)]

/-! ### Faults that are only noted -/

/-- From `s` to `t` the collector has noted a fault and left everything else. -/
def Noted (s t : State) (source cause : Nat) : Prop := ∃ f e, t = { s with ctl := { s.ctl with flt := f } }
  ∧ f.hist = (e :: s.ctl.flt.hist).take 32 ∧ e.source = BitVec.ofNat 16 source ∧ e.cause = BitVec.ofNat 8 cause

theorem recordEvent_noted (s : State) (source cause cls : Nat) (x : Domain) (fo es ab : Bool) :
    Noted s (recordEvent s source cause cls x fo es ab) source cause := ⟨_, _, rfl, rfl, rfl, rfl⟩

theorem Noted.releasePairs {s t : State} {source cause : Nat} (h : Noted s t source cause) :
    Noted s (Machine.releasePairs t) source cause := by
  obtain ⟨f, e, rfl, hist, src, cse⟩ := h
  exact ⟨_, e, rfl, hist, src, cse⟩

/-- During a device reset, and before BOOT, a containing fault is only noted (R529, R566). -/
theorem contain_noted (s : State) (source cause cls : Nat) (x : Domain) (forced : Bool)
    (still : s.ctl.dev.inReset = true ∨ s.ctl.dev.state.booted = false) :
    Noted s (contain s source cause cls x forced) source cause := by
  unfold contain
  dsimp only
  split
  · exact recordEvent_noted _ _ _ _ _ _ _ _
  · next out =>
    rw [if_pos (by simp [still.resolve_left out])]
    exact recordEvent_noted _ _ _ _ _ _ _ _

theorem collectFault_noted (s : State) {source cause : Nat} (h : ClockCause cause) (kind : (sourceOf source).isSome = true)
    (still : s.ctl.dev.inReset = true ∨ s.ctl.dev.state.booted = false) :
    Noted s (collectFault s source cause none false) source cause := by
  cases level : s.ctl.effLevel source none with
  | none =>
    rw [collectFault_reports s h kind level]
    exact (recordEvent_noted _ _ _ _ _ _ _ _).releasePairs
  | some l =>
    rw [collectFault_contains s h kind level]
    exact (contain_noted _ _ _ _ _ _ still).releasePairs

/-- The faults of clocks that are still to be done then are noted one by one: an event stays in the history as long as it and the
events after it are no more than 32. -/
theorem settleFrom_noted (n : Nat) : ∀ s : State, (s.ctl.dev.inReset = true ∨ s.ctl.dev.state.booted = false) →
    (∀ e ∈ s.pl.effects, ClockEffect e) → ∃ f, settleFrom n s =
      { s with ctl := { s.ctl with flt := f }, pl := { s.pl with effects := [] } }
      ∧ ∀ k, k + s.pl.effects.length ≤ 32 → ∀ e ∈ s.ctl.flt.hist.take k, e ∈ f.hist := by
  induction n with
  | zero => exact fun s _ _ => ⟨_, rfl, fun k _ e mem => List.mem_of_mem_take mem⟩
  | succ n ih =>
    intro s still clock
    cases raised : s.pl.effects with
    | nil =>
      refine ⟨s.ctl.flt, ?_, fun k _ e mem => List.mem_of_mem_take mem⟩
      rw [settleFrom_quiet _ s raised, ← raised]
    | cons e rest =>
      obtain ⟨source, cause, rfl, h, kind⟩ := clock e (by simp [raised])
      obtain ⟨f, x, noted, hist, -, -⟩ := collectFault_noted { s with pl := { s.pl with effects := rest } } h kind still
      have first : settleFrom (n + 1) s =
          settleFrom n { s with ctl := { s.ctl with flt := f }, pl := { s.pl with effects := rest } } := by
        rw [settleFrom, raised]
        exact congrArg (settleFrom n) noted
      obtain ⟨g, rest_, kept⟩ := ih { s with ctl := { s.ctl with flt := f }, pl := { s.pl with effects := rest } } still
        fun e mem => clock e (by rw [raised]; exact List.mem_cons_of_mem _ mem)
      refine ⟨g, first.trans rest_, fun k room e mem => kept (k + 1) ?_ e ?_⟩
      · show k + 1 + rest.length ≤ 32
        rw [List.length_cons] at room
        omega
      · have : k + 1 ≤ 32 := by
          rw [List.length_cons] at room
          omega
        show e ∈ f.hist.take (k + 1)
        rw [hist, List.take_take, Nat.min_eq_left (by omega), List.take_succ_cons]
        exact List.mem_cons_of_mem _ mem

/-! ### Containment at device level (R529) -/

/-- A source of level 3 is contained at device level, whatever a policy says. -/
theorem effLevel_device (c : Ctl) {source : Nat} (level : defaultLevel source none = some 3) :
    ∃ l, c.effLevel source none = some l ∧ 3 ≤ l := by
  unfold Ctl.effLevel
  rw [level]
  cases c.policyOf source with
  | none => exact ⟨3, rfl, Nat.le_refl 3⟩
  | some b => exact ⟨max 3 b, rfl, Nat.le_max_left 3 b⟩

theorem domainAt_device (c : Ctl) {l : Nat} (h : 3 ≤ l) (source : Nat) :
    c.domainAt l source none = { level := 3, unit := 0, source := source } := by
  unfold Ctl.domainAt
  rw [if_neg (by omega), if_neg (by omega), if_neg (by omega)]

/-- From `s` to `t` a device reset has begun with a cause: BOOT in reset, dark outputs, no OBS PLL; the pins, the other locks, the
flash, memory (log 4), what is still to be done and the queue stay. -/
structure ResetBegun (s t : State) (cause : BitVec 4) : Prop where
  state : t.ctl.dev.state = .boot
  inReset : t.ctl.dev.inReset = true
  cause : t.ctl.dev.resetCause = cause
  dark : t.ctl.dev.lit = false
  pins : t.ctl.dev.pins = s.ctl.dev.pins
  locks : t.ctl.dev.locks = { s.ctl.dev.locks with obs := false }
  flash : t.ctl.flash = s.ctl.flash
  mem : t.pl.mem = s.pl.mem
  effects : t.pl.effects = s.pl.effects
  pending : t.pending = s.pending

theorem closeWindows_frame (l : List (Nat × Window)) (d : Plane) :
    ∃ w, l.foldl (fun d w => closeWindow d w.1) d = { d with wins := w } := by
  refine List.foldlRecOn (motive := fun t : Plane => ∃ w, t = { d with wins := w }) l (fun d w => closeWindow d w.1)
    ⟨d.wins, rfl⟩ ?_
  rintro _ ⟨w, rfl⟩ x _
  unfold closeWindow
  dsimp only
  split <;> exact ⟨_, rfl⟩

/-- A reset of the data side keeps memory (log 4), and what the control side has still to do. -/
theorem resetPlane_keeps (kept : Nat → Bool) (d : Plane) :
    (resetPlane kept d).mem = d.mem ∧ (resetPlane kept d).effects = d.effects := by
  obtain ⟨w, h⟩ := closeWindows_frame d.wins d
  unfold resetPlane
  rw [h]
  exact ⟨rfl, rfl⟩

/-- Entering a state touches the state, when it was entered and ALERT_N. -/
theorem enterState_frame (s : State) (x : DevState) : ∃ low since, enterState s x =
    onDev (fun d => { d with state := x, enteredAt := s.ctl.ns, alertLow := low, alertAt := since }) s := by
  unfold enterState onDev
  dsimp only
  split <;> exact ⟨_, _, rfl⟩

theorem startReset_begins (s : State) (cause : BitVec 4) (running : Running s) :
    ResetBegun s (startReset s cause) cause ∧ (startReset s cause).ctl.flt.hist = s.ctl.flt.hist := by
  obtain ⟨booted, inReset⟩ := running
  obtain ⟨mem, effects⟩ := resetPlane_keeps keptByReset s.pl
  unfold startReset
  rw [booted, inReset, if_neg (by decide)]
  dsimp only
  generalize enter : enterState _ DevState.boot = t
  obtain ⟨low, since, frame⟩ := enterState_frame _ DevState.boot
  rw [frame] at enter
  subst enter
  exact ⟨⟨rfl, rfl, rfl, rfl, rfl, rfl, rfl, mem, effects, rfl⟩, rfl⟩

/-- A containing fault of a clock that the device needs starts a device reset of cause 4, and is recorded at level 3. -/
theorem collectFault_device (s : State) {source cause : Nat} (running : Running s) (h : ClockCause cause)
    (kind : (sourceOf source).isSome = true) (level : defaultLevel source none = some 3) :
    ResetBegun s (collectFault s source cause none false) 4
    ∧ ∃ e, (collectFault s source cause none false).ctl.flt.hist = (e :: s.ctl.flt.hist).take 32
      ∧ e.source = BitVec.ofNat 16 source ∧ e.cause = BitVec.ofNat 8 cause ∧ e.level = 3 := by
  obtain ⟨l, eff, three⟩ := effLevel_device s.ctl level
  have ⟨booted, inReset⟩ := running
  have contained (x : Domain) (dev : x.level = 3) : contain s source cause classContain x false =
      containDevice (recordEvent s source cause classContain x false false false) := by
    unfold contain
    dsimp only
    rw [inReset, booted, if_neg Bool.false_ne_true, if_neg (by decide), if_pos dev]
  rw [collectFault_contains s h kind eff, domainAt_device s.ctl three, contained _ rfl]
  obtain ⟨⟨state, reset, cse, dark, pins, locks, flash, mem, effects, pending⟩, hist⟩ := startReset_begins
    (onFlt (fun f => { f with slots := [], queue := [] })
      (recordEvent s source cause classContain { level := 3, unit := 0, source := source } false false false)) 4 running
  exact ⟨⟨state, reset, cse, dark, pins, locks, flash, mem, effects, pending⟩, _, hist, rfl, rfl, rfl⟩

/-! ### Containment of one engine (R526) -/

theorem effLevel_engine (c : Ctl) {source : Nat} (level : defaultLevel source none = some 0) (free : c.policyOf source = none) :
    c.effLevel source none = some 0 := by
  unfold Ctl.effLevel
  rw [level, free]

/-- With nothing queued no recovery starts. -/
theorem startQueued_empty (n : Nat) (s : State) (h : s.ctl.flt.queue = []) : startQueued n s = s := by
  cases n with
  | zero => rfl
  | succ n =>
    unfold startQueued
    rw [h]
    cases slotNums.find? fun i => (s.ctl.flt.slot i).isNone <;> rfl

/-- A domain seizes the first slot when no recovery runs and none waits. -/
theorem seizeSlot_calm (s : State) (x : Domain) (calm : NoRecovery s) : seizeSlot s 0 x =
    startQueued 4 (beginRecovery (onFlt (fun f => { f.setSlot 0 (some x) with queue := [] }) s) x) := by
  obtain ⟨slots, queue⟩ := calm
  have free (i : Nat) : s.ctl.flt.slot i = none := by simp [Flt.slot, slots]
  simp only [seizeSlot, onFlt, slotNums, List.foldl_cons, List.foldl_nil, free, queue, List.filter_nil, Flt.setSlot]

/-- A fault of level 0 in a device that runs without a recovery takes the first slot. -/
theorem contain_calm (s : State) (source cause cls : Nat) (x : Domain) (forced : Bool) (running : Running s) (calm : NoRecovery s)
    (engine : x.level = 0) : contain s source cause cls x forced =
      seizeSlot (recordEvent s source cause cls x forced false false) 0 x := by
  obtain ⟨booted, inReset⟩ := running
  obtain ⟨slots, queue⟩ := calm
  have free (i : Nat) : s.ctl.flt.slot i = none := by simp [Flt.slot, slots]
  simp [contain, booted, inReset, engine, free, queue, slotNums]

/-- The fault of a clock of one engine starts that unit's recovery in the first slot, and is recorded at level 0. -/
theorem collectFault_engine (s : State) {source cause : Nat} (running : Running s) (calm : NoRecovery s) (h : ClockCause cause)
    (kind : (sourceOf source).isSome = true) (level : defaultLevel source none = some 0) (policy : s.ctl.policyOf source = none) :
    ∃ f e, collectFault s source cause none false =
        releasePairs (startQueued 4 (containUnit { s with ctl := { s.ctl with flt := f } } source))
      ∧ f.hist = (e :: s.ctl.flt.hist).take 32 ∧ e.source = BitVec.ofNat 16 source ∧ e.cause = BitVec.ofNat 8 cause ∧ e.level = 0
      ∧ f.slot 0 = some ⟨0, source, source⟩ ∧ f.queue = [] := by
  have contained : collectFault s source cause none false = releasePairs (startQueued 4 (containUnit
      (onFlt (fun f => { f.setSlot 0 (some (selfDomain source)) with queue := [] })
        (recordEvent s source cause classContain (selfDomain source) false false false)) source)) := by
    rw [collectFault_contains s h kind (effLevel_engine s.ctl level policy), contain_calm s _ _ _ _ _ running calm rfl,
      seizeSlot_calm (recordEvent s source cause classContain _ false false false) _ calm]
    rfl
  exact ⟨_, _, contained, rfl, rfl, rfl, rfl, (SMap.find_put _ _ _ _ _).trans (if_pos rfl), rfl⟩

/-- The outcome of the recovery on the HIF PLL and on the OBS PLL (R524). -/
theorem containUnit_hif (s : State) : containUnit s (pllSource .hif) = linkDown s := rfl

theorem containUnit_obs (s : State) : containUnit s (pllSource .obs) = closeSession s := rfl

/-! ### The losses -/

/-- A command of the control side ends as its effects leave the state. -/
theorem exec_of_settle {s t : State} {c : Instr} {f : State → State} (means : exec c s = .next (ctlStep f s))
    (ends : settle (f s) = t) : exec c s = .next t := by
  rw [means, ctlStep, ends]

/-- A data side with nothing to be done is itself without it. -/
theorem Plane.without_effects (d : Plane) (h : d.effects = []) : { d with effects := [] } = d := by
  obtain ⟨⟩ := d
  obtain rfl : _ = [] := h
  rfl

/-- The state in which a PLL has lost its lock and set its UNLOCK bit, before its fault is collected. -/
def unlocked (s : State) (p : Pll) : State :=
  { s with
    ctl := { s.ctl with dev := { s.ctl.dev with locks := setLock s.ctl.dev.locks p false } }
    pl := s.pl.stick (unlockBit p).1 (bitIf true (unlockBit p).2) }

/-- A loss of lock that is the only thing to be done ends with its fault collected. -/
theorem settle_loseLock {s t : State} {p : Pll} (quiet : Quiet s) (locked : getLock s.ctl.dev.locks p = true)
    (collected : collectFault (unlocked s p) (pllSource p) 0x05 none false = t) (done : Quiet t) : settle (loseLock s p) = t := by
  have raised : (loseLock s p).pl.effects = [.fault (pllSource p) 0x05 none] := by
    rw [loseLock_locked locked]
    show s.pl.effects ++ _ = _
    rw [quiet]
    rfl
  have same : applyEffect { loseLock s p with pl := { (loseLock s p).pl with effects := [] } }
      (.fault (pllSource p) 0x05 none) = t := by
    have rest := Plane.without_effects (unlocked s p).pl quiet
    rw [← collected, loseLock_locked locked]
    exact congrArg (fun d => collectFault { unlocked s p with pl := d } (pllSource p) 0x05 none false) rest
  rw [settle_one _ _ raised (by rw [same]; exact done), same]

/-- The state in which REFCLK and every lock that it feeds are gone, with registers `r` and the effects `es` to be done. -/
def refclkGone (s : State) (r : SMap Word) (es : List Effect) : State :=
  { s with
    ctl := { s.ctl with dev := { s.ctl.dev with
      pins := { s.ctl.dev.pins with refclk := false }
      locks := { s.ctl.dev.locks with core := false, xpt := false, lod := false, obs := false, stackPlls := 0 } } }
    pl := { s.pl with regs := r, effects := es } }

/-- The loss of REFCLK raises the fault of the PWR block and then one of each PLL that was locked. -/
theorem refclkLost_raises (s : State) (quiet : Quiet s) (on : s.ctl.dev.state ≠ .off) : ∃ r es,
    refclkLost s = refclkGone s r (.fault 0x283 0x0F none :: es) ∧ es.length ≤ 24 ∧ (∀ e ∈ es, ClockEffect e)
    ∧ (s.ctl.dev.locks.core = true → flag ((refclkGone s r es).pl.reg Reg.clkUnlock) 0 = true) := by
  have step : refclkLost s = refclkPlls.foldl loseLock { s with
      ctl := { s.ctl with dev := { s.ctl.dev with pins := { s.ctl.dev.pins with refclk := false } } }
      pl := { s.pl with
        regs := (withConditions (fun x => { x with pins := { x.pins with refclk := false } }) s).pl.regs
        effects := s.pl.effects ++ [.fault 0x283 0x0F none] } } := by
    unfold refclkLost
    exact if_neg on
  rw [step, quiet]
  have loses := loseLocks_loses refclkPlls { s with
    ctl := { s.ctl with dev := { s.ctl.dev with pins := { s.ctl.dev.pins with refclk := false } } }
    pl := { s.pl with
      regs := (withConditions (fun x => { x with pins := { x.pins with refclk := false } }) s).pl.regs
      effects := [.fault 0x283 0x0F none] } }
  obtain ⟨es, raised, len, clock⟩ := loses.effects
  have frame := loses.frame
  rw [raised, loses.refclk] at frame
  exact ⟨_, es, frame, len, clock, fun locked => loses.unlock .core (by decide) locked⟩

/-- The first of them is collected before the others. -/
theorem settle_refclkGone (s : State) (r : SMap Word) (es : List Effect) : settle (refclkGone s r (.fault 0x283 0x0F none :: es)) =
    settleFrom 65535 (collectFault (refclkGone s r es) 0x283 0x0F none false) :=
  settle_first (refclkGone s r (.fault 0x283 0x0F none :: es)) (.fault 0x283 0x0F none) es rfl

theorem srcPwr_assigned : (sourceOf 0x283).isSome = true := by decide

/-- The state in which PCIE_REFCLK is lost and the PCIe link is down with it, before the HIF PLL loses its lock. -/
def pcieClockGone (s : State) : State :=
  linkDown (withConditions (fun x => { x with pins := { x.pins with pcieRefclk := false } }) s)

/-- Releasing wire pairs and losing the link touch no slot, no ownership and no time. -/
theorem releasePairs_linkDown (s : State) : (releasePairs (linkDown s)).ctl.flt.slot = s.ctl.flt.slot
    ∧ (releasePairs (linkDown s)).ctl.own = s.ctl.own ∧ (releasePairs (linkDown s)).ctl.lod = s.ctl.lod := ⟨rfl, rfl, rfl⟩

theorem pcieRefclkLost_eq (s : State) : pcieRefclkLost s = loseLock (pcieClockGone s) .hif := rfl

/-- Settles O7: a lock is one bit; the fault of a lost clock starts a device reset, or the recovery of one engine, or is only noted. -/
theorem clocksLockAndFail : Obligations.ClocksLockAndFail := by
  refine ⟨?lock, ?device, ?unlocked, ?session, ?refclk, ?standby, ?link⟩
  case lock =>
    intro s p quiet rails session
    refine ⟨_, exec_of_ctl rfl (pllLocks_ready s p rails session) quiet, ?_, fun q other => ?_, rfl, rfl⟩
    · exact (getLock_setLock s.ctl.dev.locks p p true).trans (if_pos rfl)
    · exact (getLock_setLock s.ctl.dev.locks p q true).trans (if_neg other)
  case device =>
    intro s p quiet running inUse locked
    have level : defaultLevel (pllSource p) none = some 3 := by rcases inUse with rfl | rfl | rfl <;> decide
    obtain ⟨begun, e, hist, source, cause, three⟩ :=
      collectFault_device (unlocked s p) running (.inl rfl : ClockCause 0x05) (pllSource_assigned p) level
    refine ⟨_, e, exec_of_settle rfl (settle_loseLock quiet locked rfl (begun.effects.trans quiet)), begun.state, begun.inReset,
      begun.cause, begun.dark, ?_, hist, cause, three, source.trans ?_, begun.flash, begun.mem, begun.pending⟩
    · rw [begun.locks]
      rcases inUse with rfl | rfl | rfl <;> rfl
    · rcases inUse with rfl | rfl | rfl <;> rfl
  case unlocked =>
    intro s quiet free
    exact exec_of_ctl rfl (loseLock_unlocked free) quiet
  case session =>
    intro s quiet running calm policy locked
    obtain ⟨f, e, collected, hist, source, cause, level, slot, queue⟩ := collectFault_engine (unlocked s .obs) running calm
      (.inl rfl : ClockCause 0x05) (pllSource_assigned .obs) (by decide) policy
    rw [startQueued_empty 4 _ queue, containUnit_obs] at collected
    refine ⟨_, e, exec_of_settle rfl (settle_loseLock quiet locked collected quiet), rfl, rfl, ?_, fun a other => ?_, hist,
      source, cause, level, slot, rfl, rfl⟩
    · have bit : flag (bitIf true 4) 4 = true := by decide
      exact (flag_stick s.pl Reg.clkUnlock Reg.clkUnlock (bitIf true 4) 4).trans (by simp [bit])
    · exact (reg_setReg s.pl _ a _).trans (if_neg other)
  case refclk =>
    intro s quiet running
    have ⟨booted, _⟩ := running
    have on : s.ctl.dev.state ≠ .off := fun off => by simp [off, DevState.booted] at booted
    obtain ⟨r, es, step, -, clock, -⟩ := refclkLost_raises s quiet on
    obtain ⟨begun, -⟩ := collectFault_device (refclkGone s r es) running (.inr rfl : ClockCause 0x0F) srcPwr_assigned
      (by decide)
    obtain ⟨f, rest, -⟩ := settleFrom_noted 65535 (collectFault (refclkGone s r es) 0x283 0x0F none false) (.inl begun.inReset)
      (by rw [begun.effects]; exact clock)
    have ends := (settle_refclkGone s r es).trans rest
    refine ⟨_, exec_of_settle rfl ((congrArg settle step).trans ends), begun.state, begun.inReset,
      begun.cause, (congrArg Pins.refclk begun.pins :), ?_, ?_, ?_, ?_, ?_, (congrArg Flash.incarnation begun.flash :)⟩
    · exact (congrArg Locks.core begun.locks :)
    · exact (congrArg Locks.xpt begun.locks :)
    · exact (congrArg Locks.lod begun.locks :)
    · exact (congrArg Locks.stackPlls begun.locks :)
    · exact (congrArg Locks.hif begun.locks :)
  case standby =>
    intro s quiet standby
    have still : s.ctl.dev.state.booted = false := by rw [standby]; rfl
    have on : s.ctl.dev.state ≠ .off := by rw [standby]; decide
    obtain ⟨r, es, step, len, clock, unlock⟩ := refclkLost_raises s quiet on
    obtain ⟨f, e, first, hist, source, cause⟩ :=
      collectFault_noted (refclkGone s r es) (.inr rfl : ClockCause 0x0F) srcPwr_assigned (.inr still)
    obtain ⟨g, rest, kept⟩ := settleFrom_noted 65535
      { refclkGone s r es with ctl := { (refclkGone s r es).ctl with flt := f } } (.inr still) clock
    have newest : e ∈ f.hist.take 1 := by simp [hist]
    have ends := (settle_refclkGone s r es).trans ((congrArg (settleFrom 65535) first).trans rest)
    refine ⟨_, exec_of_settle rfl ((congrArg settle step).trans ends), rfl, unlock, ?_, rfl, rfl⟩
    exact ⟨e, kept 1 (by show 1 + es.length ≤ 32; omega) e newest, source, cause⟩
  case link =>
    intro s quiet running calm policy locked
    have down : Quiet (pcieClockGone s) := linkDown_quiet (s := withConditions _ s) quiet
    obtain ⟨f, e, collected, hist, source, cause, level, slot, queue⟩ := collectFault_engine (unlocked (pcieClockGone s) .hif)
      running calm (.inl rfl : ClockCause 0x05) (pllSource_assigned .hif) (by decide) policy
    rw [startQueued_empty 4 _ queue, containUnit_hif] at collected
    have ends := settle_loseLock (p := .hif) down locked collected (linkDown_quiet down)
    obtain ⟨slots, own, lod⟩ := releasePairs_linkDown
      { unlocked (pcieClockGone s) .hif with ctl := { (unlocked (pcieClockGone s) .hif).ctl with flt := f } }
    exact ⟨_, e, exec_of_settle rfl ((congrArg settle (pcieRefclkLost_eq s)).trans ends), rfl, hist, source, cause, level,
      (congrFun slots 0).trans slot, own, lod⟩

end Sys2Proof.Machine
end
